-- ==== Sys2Proof/Word.lean ====
section
/-! DEFINITION. The word types of the block and their plainest arithmetic. -/

namespace Sys2Proof

/-- One register word: every register is 32 bits wide (R5). -/
abbrev Word := BitVec 32

/-- One byte of a RAM region. -/
abbrev Byte := BitVec 8

/-- One value of the 64-bit time base, in ticks of 2.5 ns (R124, R235). -/
abbrev Tick := BitVec 64

end Sys2Proof
end

