-- ==== Sys2Proof/Types.lean ====
section
/-! DEFINITION. The kinds of operand a command of the block carries. -/

namespace Sys2Proof

/-- The two halves (R9). -/
inductive Half where
  | a
  | b
  deriving DecidableEq, Repr

/-- The other half. -/
def Half.other : Half → Half
  | .a => .b
  | .b => .a

/-- The bus masters that send accesses (R11; CTX_STAT.OWNER of R75). The flash loader, the fifth,
acts only inside the load sequence of SUPPLY_VALID. -/
inductive Master where
  | link
  | spi
  | mule (c : Fin 16)
  | jtag
  deriving DecidableEq, Repr

/-- One crank edge as the wake comparator of a half shows it in STANDBY (R45, R46): a timed edge with the level of
the CRKD line and the nanoseconds to that line's nearest edge; or, on a single line, a pulse that has ended, with its
width in nanoseconds. -/
inductive WakeEdge where
  | timed (crkd : Bool) (gapNs : Nat)
  | pulse (widthNs : Nat)
  deriving DecidableEq, Repr

/-- The condition that trips a bank (R216). -/
inductive BankTrip where
  | vdsHsb
  | vdsHsv
  | vdsLs
  | oc
  deriving DecidableEq, Repr

/-- The FETs of a bank (R196). -/
inductive Fet where
  | hsb
  | hsv
  | ls
  deriving DecidableEq, Repr

/-- The arm sources of a one-shot timer other than a bus write (R237). -/
inductive ArmSource where
  | event
  | compare
  | timer
  deriving DecidableEq, Repr

/-- One received link character (R328): a data byte, a control character by its byte, or a code or
disparity error. -/
inductive LinkChar where
  | data (b : Byte)
  | control (b : Byte)
  | error
  deriving DecidableEq, Repr

/-- One frame of the Afavo link as received between K27.7 and K29.7 (R330). `lenField` is the LEN
byte, `payload` the bytes that came, `crc` the CRC-32 that came with them, `codeError` whether a
code error lay inside it (R332). -/
structure Frame where
  type : Byte
  seq : Byte
  lenField : Byte
  flags : Byte
  payload : List Byte
  crc : Word
  codeError : Bool
  deriving DecidableEq, Repr

/-- Why the SPI host port does not execute a frame (R349, R350): its number of edges, its CRC or a reserved CMD,
both with the CMD it carried, or a start before the previous access ended. -/
inductive SpiReject where
  | length
  | crc (c : BitVec 4)
  | command (c : BitVec 4)
  | early
  deriving DecidableEq, Repr

/-- The fault classes (R356). -/
inductive FaultClass where
  | vote | gander | slot | ecc | parity | clock | voltage | adc | drive | trim | lane | sentinel
  | temp
  deriving DecidableEq, Repr

/-- The scope of a fault (R356). -/
inductive Scope where
  | half (h : Half)
  | device
  deriving DecidableEq, Repr

/-- One timed edge that a half's Gander takes from its own comparators (R83, R363), its timestamp `age` ticks back; it
has held its level since. Of a crank edge: the qualified CRKD level at it, whether a CRKD edge lies within QWIN of
it, the width of its pulse in ticks (DIRSRC 1), and whether the table copy is corrupt by now (R364). -/
inductive GanderEdge where
  | crank (age : Nat) (crkd near : Bool) (width : Nat) (corrupt : Bool)
  | cam (c : Fin 4) (age : Nat) (level : Bool)
  deriving DecidableEq, Repr

/-- An edge of a line: the level that the line takes, and whether it holds that level for its qualification time (R84). -/
structure LineEdge where
  level : Bool
  holds : Bool
  deriving DecidableEq, Repr

/-- A falling edge of a SENT line: the receiver, and whether the line stays low for the time of its filter (R274). -/
structure SentFall where
  line : Fin 6
  holds : Bool
  deriving DecidableEq, Repr

/-- What a knee search of a bank works on (R218): the bank, and the samples taken since the search began. -/
structure KneeSearch where
  bank : Fin 6
  samples : List Nat
  deriving DecidableEq, Repr

/-- What one window of the clock monitors measures (R371, R375): the deviation of each clock from its nominal frequency
in ppm, and whether the sentinel's oscillator and DRIVE mismatch. -/
structure Clocks where
  pllM : Int
  pllG : Int
  rc : Int
  xin : Int
  sentinel : Bool
  deriving DecidableEq, Repr

/-- What the flash shows to the loader (R35, R352): no response, no SFDP signature, no 1-1-4 fast
read in the SFDP table, or both. `log2size` is the density of the SFDP table (NVL_STAT.DENS). -/
inductive FlashProbe where
  | silent
  | noSfdp
  | noQuad (log2size : Nat) (dummy : Byte)
  | quad (log2size : Nat) (dummy : Byte)
  deriving DecidableEq, Repr

/-- The code with which a step of BOOT stops, if one does (R35). -/
inductive BootStop where
  | pllM | pllG | delayLine | adc (k : Fin 4) | march | ecc
  deriving DecidableEq, Repr

/-- What the device meets while the power-up sequence of R31 runs: the trim page as it can be read
(none: unreadable), the XIN reference, the step that stops, the flash, its contents from offset 0
(a byte past the list is erased, 0xFF), the microseconds from POR release to the end of the
sequence (SYS_BOOTTIME), and at its end the qualified level of SAFE_REQ_N and the qualified levels of each half's sensor inputs,
as SNS_STAT bits 5:0 show them. -/
structure PowerUp where
  trimReadable : Bool
  xinValid : Bool
  stop : Option BootStop
  dlCode : BitVec 6
  probe : FlashProbe
  flash : List Byte
  bootMicros : Word
  safeReqLow : Bool
  linesA : BitVec 6
  linesB : BitVec 6
  deriving DecidableEq, Repr

end Sys2Proof
end

