-- ==== Sys2Proof/Syntax.lean ====
section
/-! DEFINITION. The commands of the block: one constructor per row of spec/opcode_table.json, in the
table's order. The first operand `t` of each is the time-base tick at which it occurs (log 1). -/

namespace Sys2Proof

/-- The commands. Each constructor's docstring is the row's own summary. -/
inductive Instr where
  /-- R31: VBAT and all main supplies pass their valid thresholds and the power-up sequence starts at step 1. -/
  | supplyValid (t : Tick) (env : PowerUp)
  /-- R39: VBAT rises from below its valid threshold; the device resets, loses AON state and sets SYS_WAKE.COLD. -/
  | powerOnReset (t : Tick)
  /-- R395: A main supply falls below its reset threshold while VBAT stays valid, or VDDC dips for less than 100 µs, and the device resets. -/
  | brownReset (t : Tick)
  /-- R39: RESET_N is held low for at least 1 µs and the device moves to BOOT. -/
  | pinReset (t : Tick)
  /-- R41: RESET_N goes high, releasing a step 1 that was held. -/
  | resetNRelease (t : Tick)
  /-- R39: A write to SYS_SWRST resets the device with key 0x0000_C3A5, or sets KEY_ERR for any other value. -/
  | softwareReset (t : Tick) (m : Master) (v : Word)
  /-- R39: TRST_N or a TAP reset resets the JTAG TAP only. -/
  | tapReset (t : Tick)
  /-- R42: VDDC falls through its early-warning threshold, and each half hands its tooth index, direction and signature to the AON island. -/
  | vddcEarlyWarning (t : Tick) (okA okB : Bool)
  /-- R395: VDDC stays below 0.90 V for 100 µs with VBAT valid and the device enters STANDBY. -/
  | standbyEntry (t : Tick) (wakeIn : Bool)
  /-- R27: VBAT falls below 4.0 V; the device becomes unpowered and AON state is lost. -/
  | vbatLost (t : Tick)
  /-- R43: WAKE_IN is asserted in STANDBY; a wake request is raised and WAKE_OUT is driven high. -/
  | wakeInAsserted (t : Tick)
  /-- R45: A crank edge on the wake comparator in STANDBY wakes the AON counter, which counts it by direction. -/
  | standbyCrankEdge (t : Tick) (h : Half) (e : WakeEdge)
  /-- R45: The SETTLE time after STANDBY entry ends and edges may then wake the device. -/
  | settleExpiry (t : Tick) (h : Half)
  /-- R43: The supplies do not become valid within 100 ms of WAKE_OUT rising; WAKE_OUT stays high and nothing is repeated. -/
  | wakeSupplyTimeout (t : Tick)
  /-- R49: A JTAG debug request moves the device from OPERATE to HALT, or is held in BOOT and LOAD. -/
  | jtagDebugRequest (t : Tick)
  /-- R50: A JTAG resume returns the device from HALT to OPERATE with a fresh heartbeat window. -/
  | jtagDebugResume (t : Tick)
  /-- R51: A write to SYS_SVCKEY advances the two-word key sequence, or sets KEY_ERR or SVC_DENIED. -/
  | serviceKeyWrite (t : Tick) (m : Master) (v : Word)
  /-- R68: A write to IMG_KEY0 to IMG_KEY3 stages key bytes, or is refused with KEY_DENIED. -/
  | keyDataWrite (t : Tick) (m : Master) (k : Fin 4) (v : Word)
  /-- R68: A write of 0x0000_4B59 to IMG_KEYCTL in SERVICE starts programming the key slot. -/
  | keySlotProgram (t : Tick) (m : Master) (v : Word)
  /-- R68: Key-slot programming ends, setting PROG and KCV. -/
  | keyProgramDone (t : Tick)
  /-- R73: A write to TRIM_BUF stores page bytes, or is discarded with a bus error outside SERVICE or while BUSY is set. -/
  | trimBufferWrite (t : Tick) (m : Master) (k : Fin 64) (v : Word)
  /-- R73: A write of 0x0000_7A31 to TRIM_CMD checks the buffer CRC and starts the erase and program of the trim page. -/
  | trimRewrite (t : Tick) (m : Master) (v : Word)
  /-- R73: The trim rewrite ends with a read-back compare and a wear counter increment, and DONE is set. -/
  | trimRewriteDone (t : Tick) (readBackOk : Bool)
  /-- R75: CTX_CTL command OPEN claims the transaction buffer for the writing master. -/
  | ctxOpen (t : Tick) (m : Master)
  /-- R77: CTX_CTL command COMMIT takes COUNT and the apply point, runs the COMMIT tests and starts the checks. -/
  | ctxCommit (t : Tick) (m : Master) (count : BitVec 8) (when : BitVec 2)
  /-- R75: CTX_CTL command ABORT ends the transaction with code 0x19. -/
  | ctxAbort (t : Tick) (m : Master)
  /-- R75: A write to CTX_BUF stores an entry for the owner while OPEN, or is discarded with a bus error. -/
  | ctxBufWrite (t : Tick) (m : Master) (k : Fin 128) (v : Word)
  /-- R77: The transaction checks end, leaving it rejected or PENDING, or switched at once for IMMEDIATE. -/
  | ctxChecksEnd (t : Tick)
  /-- R78: The apply time or angle is reached and all entries switch at one tick. -/
  | ctxSwitch (t : Tick)
  /-- R81: A crank front end produces a timed edge that is timestamped and then qualified. -/
  | crankTimedEdge (t : Tick) (h : Half) (peak : Option (BitVec 16)) (holds : Bool)
  /-- R87: The opposite edge ends the pulse under pulse-width direction and decides the edge's direction. -/
  | crankPulseEnd (t : Tick) (h : Half)
  /-- R89: A qualified crank edge is validated and handed to the wheel and sync unit, which classifies or matches it. -/
  | crankEdgeHandover (t : Tick) (h : Half)
  /-- R91: A qualified CRKD edge is captured and judged for a quadrature illegal transition. -/
  | crkdEdge (t : Tick) (h : Half) (e : LineEdge)
  /-- R83: A cam front end produces a timed edge that is qualified by CAM_FILT. -/
  | camTimedEdge (t : Tick) (h : Half) (c : Fin 4) (peak : Option (BitVec 16)) (e : LineEdge)
  /-- R115: A qualified cam edge is captured and used for phase voting, cam checks or cam-based LIMP. -/
  | camEdgeHandover (t : Tick) (h : Half) (c : Fin 4)
  /-- R82: No timed edge for eight periods or 50 ms; the arming threshold falls to the 30 mV floor. -/
  | thresholdFloorTimeout (t : Tick) (h : Half)
  /-- R89: Any write to SNS_CNTCLR clears both counts of SNS_CNT. -/
  | snsCountClear (t : Tick) (m : Master) (h : Half) (v : Word)
  /-- R91: A read of SNS_CAPn_TIME returns the timestamp and clears NEW. -/
  | captureRead (t : Tick) (m : Master) (h : Half) (n : Fin 6)
  /-- R115: The interpolated angle passes a cam entry plus TOL with no matching edge, which is a cam error. -/
  | camMissingEdge (t : Tick) (h : Half) (c : Fin 4)
  /-- R28: No accepted edge for the stall timeout takes SEEK to IDLE, the tracking modes to RUNDOWN, or RUNDOWN to IDLE with a park report. -/
  | stallTimeout (t : Tick) (h : Half)
  /-- R154: The time since the last accepted edge exceeds d divided by the rundown speed, and the half enters RUNDOWN. -/
  | rundownSpeedTimeout (t : Tick) (h : Half)
  /-- R119: A write of 0x0000_5359 to WHL_RESYNC in SAFE gives one resync permit. -/
  | resyncPermit (t : Tick) (m : Master) (h : Half) (v : Word)
  /-- R119: With the safe endings complete and resync permitted, the half returns from SAFE to SEEK. -/
  | resync (t : Tick) (h : Half)
  /-- R123: Any write to WHL_CNTCLR clears LOSSES, REJTOT and the cam error counts. -/
  | whlCountClear (t : Tick) (m : Master) (h : Half) (v : Word)
  /-- R19: The tooth pass ends, predictions switch, late starts are tested, and the pre-pass starts. -/
  | toothPassEnd (t : Tick) (h : Half)
  /-- R18: The pre-pass finishes the coefficients for the next tooth. -/
  | prePassEnd (t : Tick) (h : Half)
  /-- R20: An idle-cycle evaluation of a changed, armed or newly entered channel completes and its prediction becomes active. -/
  | channelEvaluationDone (t : Tick) (h : Half) (c : Fin 256)
  /-- R138: φ reaches the late-tooth clamp and is held with CLAMPED set. -/
  | clampReached (t : Tick) (h : Half)
  /-- R139: A catch-up has not met m after 25,600 tk, so it jumps the remainder and sets CU_TMO. -/
  | catchupTimeout (t : Tick) (h : Half)
  /-- R139: φ meets m or the clamp and the catch-up ends. -/
  | catchupEnd (t : Tick) (h : Half)
  /-- R146: After a cycle-start mark the means of W and P are removed in idle lane cycles. -/
  | learnedTableAdjust (t : Tick) (h : Half)
  /-- R133: The V and U tables are derived from P in idle lane cycles and are used from the next accepted edge. -/
  | rippleDerivation (t : Tick) (h : Half)
  /-- R147: WE_CLR set in ANG_LEARNCTL clears W and its count. -/
  | weClear (t : Tick) (m : Master) (h : Half) (v : Word)
  /-- R147: RIP_CLR set in ANG_LEARNCTL clears P and its count. -/
  | ripClear (t : Tick) (m : Master) (h : Half) (v : Word)
  /-- R143: A direct bus write to a learned table takes effect in IDLE or SAFE with learning off, or gives a bus error. -/
  | learnedTableWrite (t : Tick) (m : Master) (h : Half) (j : Fin 768) (v : Word)
  /-- R142: A read of ANG_ANGLE latches the time base into ANG_ANGTIME for that master. -/
  | angleRead (t : Tick) (m : Master) (h : Half)
  /-- R93: The interpolated angle reaches ASC_NEXT; the compare fires its action and advances NEXT. -/
  | ascFire (t : Tick) (h : Half) (n : Fin 8)
  /-- R95: A point that came due within 40 tk of the previous firing fires 40 tk after that firing. -/
  | ascDeferredFire (t : Tick) (h : Half) (n : Fin 8)
  /-- R93: ASC_CTRL.EN going to 1 sets ASC_NEXT to the first point after the present angle. -/
  | ascEnable (t : Tick) (m : Master) (h : Half) (n : Fin 8) (v : Word)
  /-- R97: The crank repeat output falls after half the previous output period, or 100 µs after a first rise. -/
  | crkoFall (t : Tick) (h : Half) (o : Fin 2)
  /-- R98: The interpolated angle reaches a missing-tooth position and a filled edge is counted. -/
  | crkoFillEdge (t : Tick) (h : Half)
  /-- R97: A rise due while the output was high rises 40 tk after the forced fall. -/
  | crkoDelayedRise (t : Tick) (h : Half) (o : Fin 2)
  /-- R167: At P − 160 tk a channel takes an actuation slot and sends its action message, or is dropped or booked. -/
  | slotTake (t : Tick) (h : Half) (c : Fin 256)
  /-- R167: At P − 6 tk the start edge is launched on an output edge lane and OCC is incremented. -/
  | startLaunch (t : Tick) (h : Half) (c : Fin 256)
  /-- R167: At E − 6 tk the end edge is launched, and the slot passes to a booked occurrence. -/
  | endLaunch (t : Tick) (h : Half) (c : Fin 256)
  /-- R168: An internal action is issued when the time base reaches its start, or its end for ACC_WIN. -/
  | internalActionIssue (t : Tick) (h : Half) (c : Fin 256)
  /-- R162: φ reaches the anchor of a positive-offset start, which is then fixed in time. -/
  | anchorReached (t : Tick) (h : Half) (c : Fin 256)
  /-- R172: A held start exceeds MAXDEF and is dropped HELD. -/
  | heldTimeout (t : Tick) (h : Half) (c : Fin 256)
  /-- R160: A write of 1 to EVC_ARMg arms enabled channels. -/
  | channelArm (t : Tick) (m : Master) (h : Half) (g : Fin 16) (v : Word)
  /-- R160: A write of 1 to EVC_DISARMg disarms channels. -/
  | channelDisarm (t : Tick) (m : Master) (h : Half) (g : Fin 16) (v : Word)
  /-- R179: A write to EVC_STCLR clears the selected status flags of a channel or group, or clears EVC_SUM. -/
  | evcStatusClear (t : Tick) (m : Master) (h : Half) (v : Word)
  /-- R24: An actuation edge reaches the output voter and is passed if a permit admits it, or refused. -/
  | outputEdgeAtVoter (t : Tick) (h : Half) (c : Fin 256)
  /-- R366: The Gander angle reaches C − W and a start permit opens. -/
  | permitOpen (t : Tick) (h : Half) (c : Fin 256)
  /-- R366: The Gander angle passes the far edge of a permit and the permit closes. -/
  | permitClose (t : Tick) (h : Half) (c : Fin 256)
  /-- R368: The voter count reaches M with no end edge; the output is ended safely and class VOTE raised. -/
  | durationLimit (t : Tick) (h : Half) (c : Fin 256)
  /-- R368: The permit lanes carry no word for 8 µs; every permit closes and class GANDER is raised. -/
  | permitLaneSilent (t : Tick) (h : Half)
  /-- R183: DMD_CMT command COMMIT starts a commit, or rejects it on arrival under R415. -/
  | dmdCommit (t : Tick) (m : Master) (h : Half) (groups xgroups : Byte) (when : BitVec 2)
  /-- R187: DMD_CMT command ABORT ends a checking or pending commit with ABORTED. -/
  | dmdAbort (t : Tick) (m : Master) (h : Half)
  /-- R184: A bus write to a staged slot word takes effect, or is discarded with a bus error in a locked group. -/
  | stagedSlotWrite (t : Tick) (m : Master) (h : Half) (n : Fin 128) (w : Fin 8) (v : Word)
  /-- R189: The commit checks end, leaving the commit rejected or PENDING. -/
  | dmdChecksEnd (t : Tick) (h : Half)
  /-- R186: The lead half's angle prediction comes within 160 tk and it fixes the common switch tick T. -/
  | crossHalfTimeFix (t : Tick) (h : Half)
  /-- R185: The apply point is reached and the committed slots become active at one tick. -/
  | dmdSwitch (t : Tick) (h : Half)
  /-- R203: The current reaches the boost LEVEL or TMAX expires; TTP is tested and a transition begins. -/
  | boostPhaseEnd (t : Tick) (h : Half) (b : Fin 6) (atLevel : Bool)
  /-- R202: TFAST of a transition expires and the low-side turns back on for slow decay. -/
  | fastDecayTimeEnd (t : Tick) (h : Half) (b : Fin 6)
  /-- R202: The current falls to the next phase's lower level and that phase begins. -/
  | transitionEnd (t : Tick) (h : Half) (b : Fin 6)
  /-- R202: The peak TIME expires and the transition to hold begins. -/
  | peakTimeEnd (t : Tick) (h : Half) (b : Fin 6)
  /-- R202: The hold TIME expires before the end edge and the shot ends by fast decay with HOLD_TMO. -/
  | holdTimeout (t : Tick) (h : Half) (b : Fin 6)
  /-- R201: The shunt current crosses a chop threshold and the gate changes, subject to MINCHOP. -/
  | chopThreshold (t : Tick) (h : Half) (b : Fin 6) (upper : Bool)
  /-- R217: At boost end, or 20 µs after a start with no boost phase, a current below OL sets OPEN. -/
  | openLoadCheck (t : Tick) (h : Half) (b : Fin 6) (code : BitVec 10)
  /-- R216: BLANK after a FET switches on expires and its VDS monitor becomes active. -/
  | monitorBlankEnd (t : Tick) (h : Half) (b : Fin 6) (f : Fet)
  /-- R216: A VDS or overcurrent condition turns the bank off within 100 ns and latches it OFF. -/
  | bankProtectionTrip (t : Tick) (h : Half) (b : Fin 6) (cause : BankTrip)
  /-- R198: A high-side gate that has been on for 5 ms is switched off for 1 µs and REFRESH is recorded. -/
  | bootstrapRefresh (t : Tick) (h : Half) (b : Fin 6) (f : Fet)
  /-- R218: The opening slope detector finds its knee in the opening window. -/
  | openingKnee (t : Tick) (h : Half) (x : KneeSearch)
  /-- R218: The drain falls below the VBAT sense after E and the closing search starts. -/
  | closingArm (t : Tick) (h : Half) (b : Fin 6)
  /-- R218: The closing detector finds its knee and the closing search ends. -/
  | closingKnee (t : Tick) (h : Half) (x : KneeSearch)
  /-- R218: CWIN expires without a knee and NO_CLOSE is set. -/
  | closingSearchTimeout (t : Tick) (h : Half) (b : Fin 6)
  /-- R219: The shot result record is written in one cycle, RES_SEQ is incremented and C may be updated. -/
  | resultRecordWrite (t : Tick) (h : Half) (b : Fin 6)
  /-- R209: A deferred start is launched 6 tk before E1 + GAP. -/
  | deferredLaunch (t : Tick) (h : Half) (c : Fin 256)
  /-- R209: The deferral passes DEFER_MAX and the start is dropped OVLP. -/
  | deferralTimeout (t : Tick) (h : Half) (c : Fin 256)
  /-- R216: A write to DRV_BANKCLR clears OFF of the selected banks. -/
  | bankClear (t : Tick) (m : Master) (h : Half) (v : Word)
  /-- R221: A write to DRV_HYDCLR sets the corrections of the selected low-sides to 0. -/
  | hydClear (t : Tick) (m : Master) (h : Half) (v : Word)
  /-- R212: At each converter period start BST_G is turned on if VBST is below TARGET, or the period is skipped. -/
  | boostPeriodStart (t : Tick) (h : Half) (milliVolts : Nat)
  /-- R212: BST_CS reaches ILIM, or 90 % of the period passes, and BST_G turns off. -/
  | boostGateOff (t : Tick) (h : Half)
  /-- R212: Every 10 µs VBST is measured into BST_VMEAS and compared with START. -/
  | vbstMeasure (t : Tick) (h : Half) (milliVolts : Nat)
  /-- R213: VBST reaches OV; BST_G is turned off and OV is set. -/
  | vbstOvervoltage (t : Tick) (h : Half)
  /-- R213: VBST falls below OV − 2 V and switching resumes with soft start. -/
  | vbstOvRelease (t : Tick) (h : Half)
  /-- R213: VBST stays below UV for UVTIME and UV is set. -/
  | vbstUndervoltage (t : Tick) (h : Half)
  /-- R225: TMAX expires before the spark; a soft-off begins and DWELL_TMO is set. -/
  | dwellTimeout (t : Tick) (h : Half) (k : Fin 12)
  /-- R226: A restrike timer expires and the IGN output changes for a recharge or a restrike. -/
  | restrikeStep (t : Tick) (h : Half) (k : Fin 12)
  /-- R227: An IGN soft-off ramp reaches low and SOFTOFF clears. -/
  | softOffEnd (t : Tick) (h : Half) (k : Fin 12)
  /-- R236: A read of TMB_LO returns the low bits and latches the high bits for the reading port. -/
  | timeBaseRead (t : Tick) (m : Master)
  /-- R237: A write of 1 to TMR_ARM0 or TMR_ARM1 arms a timer and fixes its fire tick. -/
  | timerArmWrite (t : Tick) (m : Master) (k : Fin 2) (v : Word)
  /-- R237: An arm from an event, compare or timer trigger reaches TIME and fixes the fire tick. -/
  | timerArmRequest (t : Tick) (n : Fin 64) (src : ArmSource) (tick : Tick)
  /-- R237: A write to TMR_DISARM disarms timers without firing. -/
  | timerDisarm (t : Tick) (m : Master) (k : Fin 2) (v : Word)
  /-- R238: The time base reaches the fire tick; the timer fires, sets its flags and starts its trigger. -/
  | timerFire (t : Tick) (n : Fin 64)
  /-- R242: A PWM counter returns to 0 and transfers pending shadows. -/
  | pwmReload (t : Tick) (c : Fin 32)
  /-- R243: A PWM compare edge drives the output high or low. -/
  | pwmEdge (t : Tick) (c : Fin 32) (rise : Bool)
  /-- R244: A write to PWM_PER sets the shadow and PER_PEND, or is discarded with a bus error below 2. -/
  | pwmPerWrite (t : Tick) (m : Master) (c : Fin 32) (v : Word)
  /-- R244: A write to PWM_RISE sets the shadow, sets OPEN and clears PEND. -/
  | pwmRiseWrite (t : Tick) (m : Master) (c : Fin 32) (v : Word)
  /-- R244: A write to PWM_FALL completes a pair, setting PEND, or applies it at once in immediate mode. -/
  | pwmFallWrite (t : Tick) (m : Master) (c : Fin 32) (v : Word)
  /-- R246: Setting PWM_CFG.EN makes a reload; clearing it drives the safe level. -/
  | pwmEnable (t : Tick) (m : Master) (c : Fin 32) (v : Word)
  /-- R246: A PWM_SYNC write or timer trigger reloads the selected channels in one cycle. -/
  | pwmSyncRestart (t : Tick) (m : Option Master) (v : Word)
  /-- R250: A TRIP input is qualified active after its filter and the pairs that enable it go to their safe levels. -/
  | tripQualified (t : Tick) (i : Fin 4)
  /-- R250: A TRIP input is qualified inactive after its filter. -/
  | tripReleased (t : Tick) (i : Fin 4)
  /-- R251: A write to PWM_TRIPCLR clears TRIP of a pair, or is refused with CLR_DENIED. -/
  | tripClear (t : Tick) (m : Master) (v : Word)
  /-- R247: Every 64 µs the replica line is compared and the control code moves, or DL_ERR and class CLOCK are raised. -/
  | delayLineRecalibration (t : Tick) (taps : Int)
  /-- R257: A sequence conversion completes, delivers its sample and the next entry starts. -/
  | conversionEnd (t : Tick) (h : Half) (k : Fin 2) (code : BitVec 12)
  /-- R262: An urgent request reaches its converter and is scheduled, queued or discarded with OVR. -/
  | urgentRequest (t : Tick) (h : Half) (e : Fin 16) (tick : Tick)
  /-- R261: The urgent sample phase begins at its ADC boundary and aborts a running sequence conversion. -/
  | urgentSampleStart (t : Tick) (h : Half) (k : Fin 2)
  /-- R261: An urgent conversion ends; the next waiting urgent request or the sequence resumes. -/
  | urgentConversionEnd (t : Tick) (h : Half) (k : Fin 2) (code : BitVec 12)
  /-- R267: A pre-stage result reaches an accumulator and is judged into its window, closing a counted window. -/
  | accSample (t : Tick) (h : Half) (a : Fin 64)
  /-- R266: An open action reaches an accumulator and opens a window at its tick. -/
  | windowOpen (t : Tick) (h : Half) (a : Fin 64) (tick : Tick)
  /-- R266: A close action reaches an accumulator and closes its window at its tick. -/
  | windowClose (t : Tick) (h : Half) (a : Fin 64) (tick : Tick)
  /-- R268: After a close and its last sample the result record is written, NEW is set and the requests are raised. -/
  | accRecordWrite (t : Tick) (h : Half) (a : Fin 64)
  /-- R269: A read of ACC_RSUMLO returns the sum, latches the high bits and clears NEW. -/
  | accRecordRead (t : Tick) (m : Master) (h : Half) (a : Fin 64)
  /-- R269: A read of ACC_SUMLO returns the running sum and latches its high bits. -/
  | accSumRead (t : Tick) (m : Master) (h : Half) (a : Fin 64)
  /-- R274: A qualified falling edge ends an interval, which is decoded as calibration, nibble or pause and may complete a frame. -/
  | sentEdge (t : Tick) (e : SentFall)
  /-- R278: An interval grows past its largest allowed length; the frame is discarded and the receiver hunts. -/
  | sentIntervalTimeout (t : Tick) (r : Fin 6)
  /-- R279: A read of SNT_DATAr returns the frame and clears NEW. -/
  | sentDataRead (t : Tick) (m : Master) (r : Fin 6)
  /-- R279: A read of SNT_SERr returns the message and clears SER_NEW. -/
  | sentSerialRead (t : Tick) (m : Master) (r : Fin 6)
  /-- R297: COLT_CTRL command START loads the counters, clears the engine state and begins at ENTRY. -/
  | coltStart (t : Tick) (m : Master) (e : Fin 8)
  /-- R297: COLT_CTRL command STOP abandons the state and moves the owned pins to their safe levels. -/
  | coltStop (t : Tick) (m : Master) (e : Fin 8)
  /-- R297: COLT_CTRL command FLUSH empties both FIFOs. -/
  | coltFlush (t : Tick) (m : Master) (e : Fin 8)
  /-- R290: An engine cycle executes the state entry actions, a shift bit or a wait test. -/
  | coltEngineCycle (t : Tick) (e : Fin 8) (pins : BitVec 16)
  /-- R294: A pacing edge is latched, shifting a paced bit or setting PACE_OVR. -/
  | coltPaceEdge (t : Tick) (e : Fin 8) (pins : BitVec 16)
  /-- R295: A trigger from an event, timer or COLT_TRIG write sets TRIGP, or sets TRIG_OVR. -/
  | coltTrigger (t : Tick) (e : Fin 8)
  /-- R300: A write to COLT_INJHI requests an injected word, or is refused with INJ_DENIED. -/
  | coltInject (t : Tick) (m : Master) (e : Fin 8) (v : Word)
  /-- R299: A write to the upper table word commits the staged state word. -/
  | coltTableCommit (t : Tick) (m : Master) (e : Fin 8) (i : Fin 64) (v : Word)
  /-- R299: A write to the lower table word is held in the staging register. -/
  | coltTableStage (t : Tick) (m : Master) (e : Fin 8) (i : Fin 64) (v : Word)
  /-- R292: A write to COLT_TXFIFO pushes an entry, or sets TXOVR when full. -/
  | coltTxPush (t : Tick) (m : Master) (e : Fin 8) (v : Word)
  /-- R292: A read of COLT_RXFIFO pops an entry, or returns 0 and sets RXUND. -/
  | coltRxPop (t : Tick) (m : Master) (e : Fin 8)
  /-- R296: A write to COLT_GFLAG_SET sets common or local flags. -/
  | coltFlagSet (t : Tick) (m : Master) (v : Word)
  /-- R296: A write to COLT_GFLAG_CLR clears common or local flags. -/
  | coltFlagClear (t : Tick) (m : Master) (v : Word)
  /-- R303: MULE_CMD command COMMIT marks the shadow set VALID and may load it. -/
  | muleCommit (t : Tick) (m : Master) (c : Fin 16)
  /-- R312: MULE_CMD command STOP sets STOP_PEND, or clears EN at once when the channel is IDLE. -/
  | muleStop (t : Tick) (m : Master) (c : Fin 16)
  /-- R303: MULE_CMD command WITHDRAW clears VALID of an unloaded shadow set. -/
  | muleWithdraw (t : Tick) (m : Master) (c : Fin 16)
  /-- R315: A write of EN in MULE_CFG enables the channel and loads a VALID shadow, or acts as STOP when cleared. -/
  | muleEnableWrite (t : Tick) (m : Master) (c : Fin 16) (v : Word)
  /-- R303: A write to a shadow word stores it, or is discarded with SHW_DENIED while the set is VALID. -/
  | muleShadowWrite (t : Tick) (m : Master) (c : Fin 16) (w : Fin 4) (v : Word)
  /-- R306: A request line reaches a channel and PEND counts it, or REQ_OVR is set. -/
  | muleRequest (t : Tick) (src : Fin 46) (line : Fin 16)
  /-- R305: A write to MULE_SWREQ raises one software request per channel bit. -/
  | muleSoftwareRequest (t : Tick) (m : Master) (v : Word)
  /-- R307: A channel serves a pending request with a burst of reads and writes, which may be pre-empted and resumed. -/
  | muleBurst (t : Tick) (c : Fin 16) (accesses : Nat)
  /-- R311: The read-back after a set's last write ends; DONE is set and the next set loads. -/
  | muleReadbackEnd (t : Tick) (c : Fin 16)
  /-- R316: A source raising reaches the controller, sets pending, drives the pin or queues a message. -/
  | irqSourceRaise (t : Tick) (n : Byte)
  /-- R320: A write to IRQ_PEND_SET sets pending bits as raisings. -/
  | irqPendSet (t : Tick) (m : Master) (k : Fin 8) (v : Word)
  /-- R320: A write to IRQ_PEND_CLR clears pending bits. -/
  | irqPendClear (t : Tick) (m : Master) (k : Fin 8) (v : Word)
  /-- R320: A write to IRQ_EN_SET enables sources. -/
  | irqEnableSet (t : Tick) (m : Master) (k : Fin 8) (v : Word)
  /-- R320: A write to IRQ_EN_CLR disables sources. -/
  | irqEnableClear (t : Tick) (m : Master) (k : Fin 8) (v : Word)
  /-- R322: A read of IRQ_CLAIM returns the winning source, clears its pending bit and raises the running priority. -/
  | irqClaim (t : Tick) (m : Master) (g : Fin 2)
  /-- R322: A write to IRQ_COMPLETE ends the top active source, or sets CMPL_ERR. -/
  | irqComplete (t : Tick) (m : Master) (g : Fin 2) (v : Word)
  /-- R329: The receiver gains bit lock and the link enters ALIGN. -/
  | linkBitLock (t : Tick)
  /-- R329: A received character is decoded, counting commas toward UP and code errors toward DOWN. -/
  | linkCharacter (t : Tick) (c : LinkChar)
  /-- R329: 4 µs pass without a received K28.5 and the link goes DOWN. -/
  | commaTimeout (t : Tick)
  /-- R329: The 8 µs steady-zero hold after DOWN ends and idles are sent again. -/
  | downHoldEnd (t : Tick)
  /-- R333: A received frame is judged by CRC, format and SEQ, then accepted or discarded and answered. -/
  | frameReceived (t : Tick) (f : Frame)
  /-- R332: No K29.7 follows within 73 characters and the frame is discarded without an answer. -/
  | frameLengthTimeout (t : Tick)
  /-- R334: An ACK acknowledges frames, or a NAK causes a retransmission. -/
  | answerReceived (t : Tick) (nak : Bool) (seq code crc : Byte)
  /-- R334: No covering ACK arrives 2 µs after a frame and it is retransmitted, with DOWN on the third failure. -/
  | ackTimeout (t : Tick)
  /-- R334: 2 µs after a NAK FULL the sender resends from the named frame. -/
  | nakFullResend (t : Tick)
  /-- R336: The device starts sending the next answer, retransmission or queued frame in class order. -/
  | frameTransmit (t : Tick)
  /-- R340: A REG_RD request reads up to 15 words and queues a REG_RSP. -/
  | regRd (t : Tick)
  /-- R340: A REG_WR request writes up to 15 words and queues a REG_RSP. -/
  | regWr (t : Tick)
  /-- R338: A DMD_STAGE message writes the masked words of a staged slot. -/
  | dmdStage (t : Tick)
  /-- R341: A DMD_COMMIT message writes WHEN_LO, WHEN_HI and DMD_CMT as one sequence. -/
  | dmdCommitMessage (t : Tick)
  /-- R338: A CTX_STAGE message writes entries of CTX_BUF. -/
  | ctxStage (t : Tick)
  /-- R341: A CTX_COMMIT message writes CTX_WHEN and CTX_CTL as one sequence. -/
  | ctxCommitMessage (t : Tick)
  /-- R345: An accepted heartbeat is timed against HB_MIN and HB_MAX, possibly starting or ending host loss. -/
  | heartbeat (t : Tick)
  /-- R354: An NVM_PASS message runs a flash command in SERVICE and answers with the bytes read. -/
  | nvmPass (t : Tick)
  /-- R342: The STAT_PER period expires and a STATUS frame is queued. -/
  | statusPeriod (t : Tick)
  /-- R343: A Mule burst or LNK_STRADD write adds bytes to a stream ring, with overflow overwriting unsent bytes. -/
  | streamBytesAdded (t : Tick) (b : Fin 4) (n : Nat)
  /-- R343: The oldest unsent stream byte has waited FLUSH µs and a STREAM frame is queued. -/
  | streamFlushTimeout (t : Tick) (b : Fin 4)
  /-- R346: HB_MAX passes without a heartbeat and host loss begins. -/
  | heartbeatLate (t : Tick)
  /-- R346: The grace ends by HL_CYC marks or HL_MS and the half's fuel cut begins. -/
  | hostLossGraceEnd (t : Tick) (h : Half)
  /-- R350: An SPI frame with CMD NOP does nothing and returns the previous response. -/
  | spiNop (t : Tick)
  /-- R350: An SPI frame with CMD RD reads one word. -/
  | spiRd (t : Tick) (w : BitVec 20)
  /-- R350: An SPI frame with CMD WR writes one word. -/
  | spiWr (t : Tick) (w : BitVec 20) (v : Word)
  /-- R350: An SPI frame with CMD HB is taken as a heartbeat. -/
  | spiHb (t : Tick) (v : Word)
  /-- R350: An SPI frame with CMD MSGRD takes the oldest queued IRQ message for the SPI port. -/
  | spiMsgrd (t : Tick)
  /-- R349: An SPI frame of wrong length, wrong CRC, reserved CMD or early start is not executed and its flag is set. -/
  | spiFrameReject (t : Tick) (why : SpiReject)
  /-- R354: A write of NVL_PCTL with GO in SERVICE starts one pass-through flash command. -/
  | flashCommand (t : Tick) (m : Master) (v : Word)
  /-- R354: The pass-through command ends and DONE is set. -/
  | flashCommandDone (t : Tick) (bytes : List Byte)
  /-- R357: A detected fault is recorded and its configured reaction moves halves or the device to SAFE with safe endings. -/
  | faultReaction (t : Tick) (cls : FaultClass) (sc : Scope)
  /-- R370: A read finds a single-bit error, which is corrected, or a double-bit error, which raises class ECC. -/
  | eccReadError (t : Tick) (addr : Word) (double : Bool)
  /-- R370: Every 10 ms image RAM is scrubbed and its section CRCs are compared. -/
  | scrubPass (t : Tick) (differs : Bool)
  /-- R370: A register parity check fails and class PARITY is raised. -/
  | parityError (t : Tick) (sc : Scope)
  /-- R371: Each 1 µs window compares the clock pairs and raises class CLOCK on a deviation. -/
  | clockMonitorWindow (t : Tick) (w : Clocks) (tree : Option Half)
  /-- R371: PLL-M shows no edge for 32 GANDER cycles; FAULT_N and the PWM outputs are forced and the heartbeat stops. -/
  | pllMStop (t : Tick)
  /-- R372: A supply stays outside its window for 2 µs and class VOLTAGE is raised. -/
  | supplyWindowFault (t : Tick) (out : BitVec 6)
  /-- R372: Every 10 µs die temperatures are compared with TLIM and class TEMP is raised when exceeded. -/
  | temperatureSample (t : Tick) (logic power : Int)
  /-- R363: The Gander processes an edge from its own comparators for sync, phase and angle. -/
  | ganderEdge (t : Tick) (h : Half) (e : GanderEdge)
  /-- R365: One path has not reported an edge or loss within 2 µs and LAG raises class GANDER. -/
  | ganderLagTimeout (t : Tick) (h : Half)
  /-- R369: No valid heartbeat word for 14 µs; the sentinel ends drive and ignition and latches. -/
  | sentinelTimeout (t : Tick)
  /-- R369: No valid return word for 14 µs raises class LANE. -/
  | returnHeartbeatTimeout (t : Tick)
  /-- R374: A message-lane word with a bad CRC or sequence raises class LANE and stops the heartbeat. -/
  | laneWordError (t : Tick)
  /-- R374: A lane handshake stays unacknowledged for 1 µs and class LANE is raised. -/
  | laneHandshakeTimeout (t : Tick)
  /-- R362: SAFE_REQ_N is qualified low after 100 ns; both halves enter SAFE and device-wide SAFE begins. -/
  | safeReqQualified (t : Tick)
  /-- R362: SAFE_REQ_N goes high and its qualified level clears. -/
  | safeReqRelease (t : Tick)
  /-- R360: A write of 0x0000_5246 to SAF_RECOVER permits the end of device-wide SAFE. -/
  | safRecoverWrite (t : Tick) (m : Master) (v : Word)
  /-- R360: All recovery conditions hold; DEV_SAFE clears and the sentinel latch is released. -/
  | deviceSafeEnd (t : Tick)
  /-- R376: A write of SAF_TEST with its key starts the selected built-in tests, or sets TEST_DENIED. -/
  | safTest (t : Tick) (m : Master) (v : Word)
  /-- R376: The built-in tests end, SAF_TESTSTAT is written and source 0xCE is raised. -/
  | safTestDone (t : Tick) (pass : BitVec 5)
  /-- R373: A half receives no valid cross-link word for 4 µs and counts the link as lost. -/
  | crossLinkLoss (t : Tick) (h : Half)
  /-- R373: 64 consecutive valid words return the cross-link and end the grace count. -/
  | crossLinkReturn (t : Tick) (h : Half)
  /-- R7: A bus write to a register with no row of its own takes effect by its access code, or gives a bus error. -/
  | registerWrite (t : Tick) (m : Master) (addr v : Word)
  /-- R202: The bank current of an ended or safely ended shot reaches zero, the fast decay is over and the bank is off. -/
  | fastDecayEnd (t : Tick) (h : Half) (b : Fin 6)
  deriving DecidableEq, Repr

end Sys2Proof
end

