-- ==== Sys2Proof/Decode.lean ====
section
/-! DEFINITION. Decoding by the opcode table's bits: no row of the table gives any. -/

namespace Sys2Proof

/-- The command a word spells by the table's bits. Every row of the table has no fields, so none. -/
def decodeTableWord (_nbits _w : Nat) : Option Instr := none

end Sys2Proof
end

