-- ==== Sys2Proof/Machine/Crc.lean ====
section
/-! DEFINITION. The check codes: CRC-32 (R55), CRC-16 (R70), the CRC-8 of the links (R331), the
J2716 codes of SENT (R277, R280), and AES-128-CMAC (R61). -/

namespace Sys2Proof.Machine

open Sys2Proof

/-- One bit of a reflected CRC-32. -/
def crc32Bit (c : BitVec 32) : BitVec 32 :=
  if c.getLsbD 0 then (c >>> 1) ^^^ 0xEDB88320#32 else c >>> 1

/-- One byte of a reflected CRC-32. -/
def crc32Byte (c : BitVec 32) (b : Byte) : BitVec 32 :=
  Nat.repeat crc32Bit 8 (c ^^^ b.setWidth 32)

/-- The CRC-32 of R55: polynomial 0x04C11DB7 reflected in and out, start and final XOR all ones. -/
def crc32 (l : List Byte) : BitVec 32 := ~~~(l.foldl crc32Byte 0xFFFFFFFF#32)

/-- One bit of the CRC-16 of R70. -/
def crc16Bit (c : BitVec 16) : BitVec 16 :=
  if c.getLsbD 15 then (c <<< 1) ^^^ 0x1021#16 else c <<< 1

/-- The CRC-16 of R70: polynomial 0x1021, not reflected, start 0xFFFF, no final XOR. -/
def crc16 (l : List Byte) : BitVec 16 :=
  l.foldl (fun c b => Nat.repeat crc16Bit 8 (c ^^^ ((b.setWidth 16 : BitVec 16) <<< (8 : Nat)))) 0xFFFF#16

/-- One step of a CRC of `w` bits with polynomial `p` for one input bit. -/
def crcStep (w : Nat) (p : Nat) (c : Nat) (b : Bool) : Nat :=
  let top := c / 2 ^ (w - 1) % 2
  let c' := c * 2 % 2 ^ w
  if (top == 1) != b then c' ^^^ p else c'

/-- The 4-bit CRC of R277 over nibbles: polynomial x⁴ + x³ + x² + 1, seed 5; the recommended method
appends a zero nibble (PRESUMED, log 12). -/
def sentCrc (legacy : Bool) (l : List Nat) : Nat :=
  let tab := [0, 13, 7, 10, 14, 3, 9, 4, 1, 12, 6, 11, 15, 2, 8, 5]
  let r := l.foldl (fun c n => n ^^^ tab.getD c 0) 5
  if legacy then r else tab.getD r 0

/-- The 6-bit CRC of R280: polynomial x⁶ + x⁴ + x³ + 1, seed 0b010101, over bits; as SAE J2716 forms it, with
the seed ahead of the message and six zero bits behind (PRESUMED, log 12). -/
def sentCrc6 (l : List Bool) : Nat := (List.replicate 6 false ++ l).foldl (crcStep 6 0x19) 0x15

/-! ### AES-128 and CMAC: named by R61 and R68 with their standards (log 7) -/

/-- Double in GF(2⁸). -/
def gfDouble (x : Byte) : Byte := if x.getLsbD 7 then (x <<< 1) ^^^ 0x1B#8 else x <<< 1

/-- Product in GF(2⁸). -/
def gfMul (x y : Byte) : Byte :=
  ((List.range 8).foldl
    (fun p i => (if y.getLsbD i then p.1 ^^^ p.2 else p.1, gfDouble p.2)) ((0#8 : Byte), x)).1

/-- The multiplicative inverse in GF(2⁸), 0 for 0: the 254th power. -/
def gfInv (x : Byte) : Byte :=
  let x2 := gfMul x x
  let x4 := gfMul x2 x2
  let x8 := gfMul x4 x4
  let x16 := gfMul x8 x8
  let x32 := gfMul x16 x16
  let x64 := gfMul x32 x32
  let x128 := gfMul x64 x64
  gfMul x2 (gfMul x4 (gfMul x8 (gfMul x16 (gfMul x32 (gfMul x64 x128)))))

/-- The AES substitution. -/
def aesSub (x : Byte) : Byte :=
  let b := gfInv x
  b ^^^ b.rotateLeft 1 ^^^ b.rotateLeft 2 ^^^ b.rotateLeft 3 ^^^ b.rotateLeft 4 ^^^ 0x63#8

/-- XOR of two byte lists. -/
def xorL (a b : List Byte) : List Byte := List.zipWith (· ^^^ ·) a b

/-- The next round key. -/
def aesNextKey (rc : Byte) (k : List Byte) : List Byte :=
  let w := fun i => (k.drop (4 * i)).take 4
  let t := ((w 3).rotateLeft 1).map aesSub
  let t := match t with | b :: r => (b ^^^ rc) :: r | [] => []
  let w0 := xorL (w 0) t
  let w1 := xorL (w 1) w0
  let w2 := xorL (w 2) w1
  w0 ++ w1 ++ w2 ++ xorL (w 3) w2

/-- Rotate the rows of the AES state, held by columns. -/
def aesShift (s : List Byte) : List Byte :=
  [0, 5, 10, 15, 4, 9, 14, 3, 8, 13, 2, 7, 12, 1, 6, 11].map fun i => s.getD i 0

/-- Mix one column. -/
def aesMixCol : List Byte → List Byte
  | [a, b, c, d] =>
    [gfDouble a ^^^ gfDouble b ^^^ b ^^^ c ^^^ d, a ^^^ gfDouble b ^^^ gfDouble c ^^^ c ^^^ d,
      a ^^^ b ^^^ gfDouble c ^^^ gfDouble d ^^^ d, gfDouble a ^^^ a ^^^ b ^^^ c ^^^ gfDouble d]
  | l => l

/-- Mix every column. -/
def aesMix (s : List Byte) : List Byte :=
  aesMixCol (s.take 4) ++ aesMixCol ((s.drop 4).take 4) ++ aesMixCol ((s.drop 8).take 4) ++
    aesMixCol ((s.drop 12).take 4)

/-- AES-128 encryption of one block (PRESUMED, log 7). -/
def aes128 (key blk : List Byte) : List Byte :=
  let r := (List.range 10).foldl
    (fun (p : List Byte × List Byte × Byte) i =>
      let k := aesNextKey p.2.2 p.2.1
      let s := aesShift (p.1.map aesSub)
      (xorL (if i = 9 then s else aesMix s) k, k, gfDouble p.2.2))
    (xorL blk key, key, (1#8 : Byte))
  r.1

/-- Double a block in the CMAC field (PRESUMED, log 7). -/
def cmacDouble (l : List Byte) : List Byte :=
  let n := l.foldl (fun a b => a * 256 + b.toNat) 0
  let m := n * 2 % 2 ^ 128
  let m := if 2 ^ 127 ≤ n then m ^^^ 0x87 else m
  (List.range 16).map fun i => BitVec.ofNat 8 (m / 256 ^ (15 - i))

/-- The blocks of 16 bytes of a message, chained under AES, the last one masked by its subkey. -/
def cmacChain (key k1 k2 : List Byte) : Nat → List Byte → List Byte → List Byte
  | 0, x, _ => x
  | n + 1, x, m =>
    if m.length ≤ 16 then
      let last :=
        if m.length = 16 then xorL m k1
        else xorL (m ++ 0x80#8 :: List.replicate (15 - m.length) 0#8) k2
      aes128 key (xorL x last)
    else cmacChain key k1 k2 n (aes128 key (xorL x (m.take 16))) (m.drop 16)

/-- AES-128-CMAC, untruncated (R61) (PRESUMED, log 7). -/
def cmac (key msg : List Byte) : List Byte :=
  let k1 := cmacDouble (aes128 key (List.replicate 16 0#8))
  cmacChain key k1 (cmacDouble k1) (msg.length + 1) (List.replicate 16 0#8) msg

end Sys2Proof.Machine
end

