-- ==== Sys2Proof/Config.lean ====
section
/-! DEFINITION. What the spec leaves open: the precision of the observer beyond its 48 significant
bits, and the free values, which nothing constrains. -/

namespace Sys2Proof.Config

/-- Significant bits of the observer's arithmetic beyond the 48 that R127 asks for (log 6). -/
opaque obsExtra : Nat

/-- Significant bits of the observer's arithmetic (R127): at least 48 (DESIGN CHOICE, log 6). -/
def obsBits : Nat := 48 + obsExtra

/-- A free word, drawn at a value of `freeCtr` (log 2). -/
opaque freeWord : Nat → Word

/-- A free byte: the draw and the position in what it fills (log 2). -/
opaque freeByte : Nat → Nat → Byte

end Sys2Proof.Config
end

