-- ==== Sys2Proof/Machine/Regs.lean ====
section
/-! DEFINITION. The registers of the block: the byte address of each (R379, R380 and the register
headings of every chapter), the bit range of each field, and per register its reset word and the bits
of each access code (R7). -/

namespace Sys2Proof.Machine

/-- The base address of a half's window (R379). -/
def Half.base : Half → Nat
  | .a => 0x80000
  | .b => 0xC0000

/-- A field of a register: its top and bottom bit. -/
structure Fld where
  hi : Nat
  lo : Nat
  deriving DecidableEq, Repr

namespace Reg

def SYS_ID : Nat := 0x0
def SYS_MODE : Nat := 0x4
def SYS_READY : Nat := 0x8
def SYS_BOOTSTAT : Nat := 0xC
def SYS_BOOTTIME : Nat := 0x10
def SYS_RSTCAUSE : Nat := 0x14
def SYS_WAKE : Nat := 0x18
def SYS_FLAG : Nat := 0x1C
def SYS_SWRST : Nat := 0x20
def SYS_SVCKEY : Nat := 0x24
def SYS_PMCFG : Nat := 0x28
/-- SYS_PMSTAT of a half. -/
def SYS_PMSTAT : Half → Nat
  | .a => 0x2C
  | .b => 0x30
def IMG_STAT : Nat := 0x2000
def IMG_ID : Nat := 0x2004
def IMG_LEN : Nat := 0x2008
def IMG_FAIL1 : Nat := 0x2010
def IMG_FAIL2 : Nat := 0x2018
def IMG_FAILAT1 : Nat := 0x2014
def IMG_FAILAT2 : Nat := 0x201C
def IMG_KEY (k : Nat) : Nat := 0x2040 + 4 * k
def IMG_KEYCTL : Nat := 0x2050
def IMG_KEYSTAT : Nat := 0x2054
def IMG_FLAG : Nat := 0x2058
def CTX_CTL : Nat := 0x2100
def CTX_WHEN_LO : Nat := 0x2104
def CTX_WHEN_HI : Nat := 0x2108
def CTX_STAT : Nat := 0x210C
def CTX_APPLIED_LO : Nat := 0x2110
def CTX_APPLIED_HI : Nat := 0x2114
def CTX_SEQ : Nat := 0x2118
def CTX_BUF (k : Nat) : Nat := 0x2200 + 4 * k
def TRIM_PAGE (k : Nat) : Nat := 0x1000 + 4 * k
def TRIM_BUF (k : Nat) : Nat := 0x1100 + 4 * k
def TRIM_CMD : Nat := 0x1200
def TRIM_STAT : Nat := 0x1204
def SNS_CFG (h : Half) : Nat := Half.base h + 0x0
def SNS_THR (h : Half) : Nat := Half.base h + 0x4
def SNS_FILT (h : Half) : Nat := Half.base h + 0x8
def SNS_DIRCFG (h : Half) : Nat := Half.base h + 0xC
def SNS_MININT (h : Half) : Nat := Half.base h + 0x10
def SNS_SHARE (h : Half) : Nat := Half.base h + 0x18
def SNS_STAT (h : Half) : Nat := Half.base h + 0x20
def SNS_CNT (h : Half) : Nat := Half.base h + 0x24
def SNS_CNTCLR (h : Half) : Nat := Half.base h + 0x28
def SNS_PEAK (h : Half) : Nat := Half.base h + 0x2C
def SNS_CAP_TIME (h : Half) (n : Nat) : Nat := Half.base h + 0x40 + 4 * n
def SNS_CAP_STAT (h : Half) (n : Nat) : Nat := Half.base h + 0x60 + 4 * n
def ASC_CTRL (h : Half) (n : Nat) : Nat := Half.base h + 0x100 + 32 * n
def ASC_STEP (h : Half) (n : Nat) : Nat := Half.base h + 0x104 + 32 * n
def ASC_ANCHOR (h : Half) (n : Nat) : Nat := Half.base h + 0x108 + 32 * n
def ASC_NEXT (h : Half) (n : Nat) : Nat := Half.base h + 0x10C + 32 * n
def ASC_STAT (h : Half) (n : Nat) : Nat := Half.base h + 0x110 + 32 * n
def CRKO_CTRL (h : Half) (m : Nat) : Nat := Half.base h + 0x200 + 16 * m
def CRKO_STAT (h : Half) (m : Nat) : Nat := Half.base h + 0x204 + 16 * m
def WHL_WCFG (h : Half) : Nat := Half.base h + 0x1000
def WHL_WWIN (h : Half) : Nat := Half.base h + 0x1004
def WHL_SYNCCFG (h : Half) : Nat := Half.base h + 0x1008
def WHL_CAMCFG (h : Half) : Nat := Half.base h + 0x100C
def WHL_CAMN (h : Half) : Nat := Half.base h + 0x1010
def WHL_RESYNC (h : Half) : Nat := Half.base h + 0x1014
def WHL_STAT (h : Half) : Nat := Half.base h + 0x1020
def WHL_POS (h : Half) : Nat := Half.base h + 0x1024
def WHL_LOSS (h : Half) : Nat := Half.base h + 0x1028
def WHL_LOSSTIME (h : Half) : Nat := Half.base h + 0x102C
def WHL_CNT (h : Half) : Nat := Half.base h + 0x1030
def WHL_CAMERR (h : Half) : Nat := Half.base h + 0x1034
def WHL_SIG (h : Half) : Nat := Half.base h + 0x1038
def WHL_CNTCLR (h : Half) : Nat := Half.base h + 0x103C
def WHL_CAMTAB (h : Half) (c : Nat) (j : Nat) : Nat := Half.base h + 0x1200 + 128 * c + 4 * j
def WHL_WTAB (h : Half) (i : Nat) : Nat := Half.base h + 0x1800 + 4 * i
def ANG_MODE (h : Half) : Nat := Half.base h + 0x2000
def ANG_CFG (h : Half) : Nat := Half.base h + 0x2004
def ANG_STAT (h : Half) : Nat := Half.base h + 0x2008
def ANG_ANGLE (h : Half) : Nat := Half.base h + 0x200C
def ANG_ANGTIME (h : Half) : Nat := Half.base h + 0x2010
def ANG_SPEED (h : Half) : Nat := Half.base h + 0x2014
def ANG_ACCEL (h : Half) : Nat := Half.base h + 0x2018
def ANG_RPM (h : Half) : Nat := Half.base h + 0x201C
def ANG_TOOTH (h : Half) : Nat := Half.base h + 0x2020
def ANG_RESID (h : Half) : Nat := Half.base h + 0x2024
def ANG_PERIOD (h : Half) : Nat := Half.base h + 0x2028
def ANG_CLAMP (h : Half) : Nat := Half.base h + 0x202C
def ANG_CYCLE (h : Half) : Nat := Half.base h + 0x2030
def ANG_STOPCFG (h : Half) : Nat := Half.base h + 0x2034
def ANG_BANDL (h : Half) (n : Nat) : Nat := Half.base h + 0x2040 + 8 * n
def ANG_BANDG (h : Half) (n : Nat) : Nat := Half.base h + 0x2044 + 8 * n
def ANG_LEARNCTL (h : Half) : Nat := Half.base h + 0x20A0
def ANG_LEARNCFG (h : Half) : Nat := Half.base h + 0x20A4
def ANG_WEBAND (h : Half) : Nat := Half.base h + 0x20A8
def ANG_RIPBAND (h : Half) : Nat := Half.base h + 0x20AC
def ANG_WEAMAX (h : Half) : Nat := Half.base h + 0x20B0
def ANG_LEARNSTAT (h : Half) : Nat := Half.base h + 0x20B4
def ANG_LEARNCNT (h : Half) : Nat := Half.base h + 0x20B8
def ANG_SEGCFG (h : Half) : Nat := Half.base h + 0x20C0
def ANG_SEGPOS (h : Half) : Nat := Half.base h + 0x20C4
def ANG_LOGCFG (h : Half) : Nat := Half.base h + 0x20D0
def ANG_LOGPOS (h : Half) : Nat := Half.base h + 0x20D4
def ANG_PARK (h : Half) : Nat := Half.base h + 0x20E0
def ANG_PARKIDX (h : Half) : Nat := Half.base h + 0x20E4
def ANG_PARKTIME (h : Half) : Nat := Half.base h + 0x20E8
def ANG_SEG_TIME (h : Half) (j : Nat) : Nat := Half.base h + 0x2800 + 8 * j
def ANG_SEG_INFO (h : Half) (j : Nat) : Nat := Half.base h + 0x2804 + 8 * j
def EVC_CTRL (h : Half) (n : Nat) : Nat := Half.base h + 0x10000 + 32 * n
def EVC_ANGLE (h : Half) (n : Nat) : Nat := Half.base h + 0x10004 + 32 * n
def EVC_OFFSET (h : Half) (n : Nat) : Nat := Half.base h + 0x10008 + 32 * n
def EVC_END (h : Half) (n : Nat) : Nat := Half.base h + 0x1000C + 32 * n
def EVC_LIMIT (h : Half) (n : Nat) : Nat := Half.base h + 0x10010 + 32 * n
def EVC_AUX (h : Half) (n : Nat) : Nat := Half.base h + 0x10014 + 32 * n
def EVC_PRED (h : Half) (n : Nat) : Nat := Half.base h + 0x10018 + 32 * n
def EVC_STAT (h : Half) (n : Nat) : Nat := Half.base h + 0x1001C + 32 * n
def EVC_ARM (h : Half) (g : Nat) : Nat := Half.base h + 0x12000 + 4 * g
def EVC_DISARM (h : Half) (g : Nat) : Nat := Half.base h + 0x12040 + 4 * g
def EVC_GSTAT (h : Half) (g : Nat) : Nat := Half.base h + 0x12080 + 4 * g
def EVC_STCLR (h : Half) : Nat := Half.base h + 0x120C0
def EVC_SUM (h : Half) : Nat := Half.base h + 0x120C4
def DMD_ANGLE (h : Half) (n : Nat) : Nat := Half.base h + 0x14000 + 64 * n
def DMD_ANGLE_ACT (h : Half) (n : Nat) : Nat := Half.base h + 0x14020 + 64 * n
def DMD_OFFSET (h : Half) (n : Nat) : Nat := Half.base h + 0x14004 + 64 * n
def DMD_OFFSET_ACT (h : Half) (n : Nat) : Nat := Half.base h + 0x14024 + 64 * n
def DMD_END (h : Half) (n : Nat) : Nat := Half.base h + 0x14008 + 64 * n
def DMD_END_ACT (h : Half) (n : Nat) : Nat := Half.base h + 0x14028 + 64 * n
def DMD_FLAG (h : Half) (n : Nat) : Nat := Half.base h + 0x1400C + 64 * n
def DMD_FLAG_ACT (h : Half) (n : Nat) : Nat := Half.base h + 0x1402C + 64 * n
def DMD_USER0 (h : Half) (n : Nat) : Nat := Half.base h + 0x14010 + 64 * n
def DMD_USER1 (h : Half) (n : Nat) : Nat := Half.base h + 0x14014 + 64 * n
def DMD_USER0_ACT (h : Half) (n : Nat) : Nat := Half.base h + 0x14030 + 64 * n
def DMD_USER1_ACT (h : Half) (n : Nat) : Nat := Half.base h + 0x14034 + 64 * n
def DMD_CMT (h : Half) : Nat := Half.base h + 0x16000
def DMD_WHEN_LO (h : Half) : Nat := Half.base h + 0x16004
def DMD_WHEN_HI (h : Half) : Nat := Half.base h + 0x16008
def DMD_STAT (h : Half) : Nat := Half.base h + 0x1600C
def DMD_RES (h : Half) : Nat := Half.base h + 0x16010
def DMD_APPLIED_LO (h : Half) : Nat := Half.base h + 0x16014
def DMD_APPLIED_HI (h : Half) : Nat := Half.base h + 0x16018
def DMD_SEQ (h : Half) : Nat := Half.base h + 0x1601C
def DMD_FLAGS (h : Half) : Nat := Half.base h + 0x16020
def DMD_CHKSPD (h : Half) : Nat := Half.base h + 0x16024
def DMD_SHOTLIM (h : Half) : Nat := Half.base h + 0x16028
def DMD_CYLLIM (h : Half) : Nat := Half.base h + 0x1602C
def DMD_BOOSTLIM (h : Half) : Nat := Half.base h + 0x16030
def DMD_DWELL (h : Half) : Nat := Half.base h + 0x16034
def DMD_LSCFG (h : Half) (n : Nat) : Nat := Half.base h + 0x16040 + 4 * n
def DRV_STAT (h : Half) : Nat := Half.base h + 0x22000
def DRV_BANKCLR (h : Half) : Nat := Half.base h + 0x22004
def DRV_HYDCLR (h : Half) : Nat := Half.base h + 0x22008
def DRV_BANKCFG (h : Half) (b : Nat) : Nat := Half.base h + 0x22040 + 16 * b
def DRV_BANKDIAG (h : Half) (b : Nat) : Nat := Half.base h + 0x22044 + 16 * b
def DRV_BANKLIM (h : Half) (b : Nat) : Nat := Half.base h + 0x22048 + 16 * b
def DRV_BANKSTAT (h : Half) (b : Nat) : Nat := Half.base h + 0x2204C + 16 * b
def DRV_PBOOST (h : Half) (p : Nat) : Nat := Half.base h + 0x22100 + 32 * p
def DRV_PPEAK (h : Half) (p : Nat) : Nat := Half.base h + 0x22104 + 32 * p
def DRV_PHOLD (h : Half) (p : Nat) : Nat := Half.base h + 0x22108 + 32 * p
def DRV_PCFG (h : Half) (p : Nat) : Nat := Half.base h + 0x2210C + 32 * p
def DRV_PDIAG (h : Half) (p : Nat) : Nat := Half.base h + 0x22110 + 32 * p
def DRV_PNEEDLE (h : Half) (p : Nat) : Nat := Half.base h + 0x22114 + 32 * p
def DRV_PHYD (h : Half) (p : Nat) : Nat := Half.base h + 0x22118 + 32 * p
def DRV_RES_START (h : Half) (n : Nat) : Nat := Half.base h + 0x22400 + 32 * n
def DRV_RES_END (h : Half) (n : Nat) : Nat := Half.base h + 0x22404 + 32 * n
def DRV_RES_OPEN (h : Half) (n : Nat) : Nat := Half.base h + 0x22408 + 32 * n
def DRV_RES_CLOSE (h : Half) (n : Nat) : Nat := Half.base h + 0x2240C + 32 * n
def DRV_RES_TTP (h : Half) (n : Nat) : Nat := Half.base h + 0x22410 + 32 * n
def DRV_RES_HYD (h : Half) (n : Nat) : Nat := Half.base h + 0x22414 + 32 * n
def DRV_RES_FLAGS (h : Half) (n : Nat) : Nat := Half.base h + 0x22418 + 32 * n
def DRV_RES_SEQ (h : Half) (n : Nat) : Nat := Half.base h + 0x2241C + 32 * n
def DRV_HYDC (h : Half) (n : Nat) (j : Nat) : Nat := Half.base h + 0x22600 + 32 * n + 4 * j
def BST_CTRL (h : Half) : Nat := Half.base h + 0x23000
def BST_VCFG (h : Half) : Nat := Half.base h + 0x23004
def BST_PROT (h : Half) : Nat := Half.base h + 0x23008
def BST_ILIM (h : Half) : Nat := Half.base h + 0x2300C
def BST_STAT (h : Half) : Nat := Half.base h + 0x23010
def BST_VMEAS (h : Half) : Nat := Half.base h + 0x23014
def IGN_CFG (h : Half) (k : Nat) : Nat := Half.base h + 0x21000 + 16 * k
def IGN_MS (h : Half) (k : Nat) : Nat := Half.base h + 0x21004 + 16 * k
def IGN_STAT (h : Half) (k : Nat) : Nat := Half.base h + 0x21008 + 16 * k
def IGN_SUM (h : Half) : Nat := Half.base h + 0x21100
def GAO_CFG (h : Half) (k : Nat) : Nat := Half.base h + 0x20000 + 4 * k
def GAO_LVL (h : Half) : Nat := Half.base h + 0x20040
def TMB_LO : Nat := 0x30000
def TMB_HI : Nat := 0x30004
def TMR_ARM (k : Nat) : Nat := 0x30010 + 4 * k
def TMR_DISARM (k : Nat) : Nat := 0x30018 + 4 * k
def TMR_GFLAG : Nat := 0x30020
def TMR_CTRL (n : Nat) : Nat := 0x30100 + 32 * n
def TMR_CMP_LO (n : Nat) : Nat := 0x30104 + 32 * n
def TMR_CMP_HI (n : Nat) : Nat := 0x30108 + 32 * n
def TMR_FIRE (n : Nat) : Nat := 0x3010C + 32 * n
def TMR_STAT (n : Nat) : Nat := 0x30110 + 32 * n
def PWM_CFG (c : Nat) : Nat := 0x40000 + 32 * c
def PWM_PER (c : Nat) : Nat := 0x40004 + 32 * c
def PWM_RISE (c : Nat) : Nat := 0x40008 + 32 * c
def PWM_FALL (c : Nat) : Nat := 0x4000C + 32 * c
def PWM_CNT (c : Nat) : Nat := 0x40010 + 32 * c
def PWM_STAT (c : Nat) : Nat := 0x40014 + 32 * c
def PWM_PAIRCFG (p : Nat) : Nat := 0x40400 + 16 * p
def PWM_DT (p : Nat) : Nat := 0x40404 + 16 * p
def PWM_MINP (p : Nat) : Nat := 0x40408 + 16 * p
def PWM_TRIPCFG : Nat := 0x40600
def PWM_TRIPPOL : Nat := 0x40604
def PWM_TRIPSTAT : Nat := 0x40608
def PWM_TRIPCLR : Nat := 0x4060C
def PWM_TRIPFLAG : Nat := 0x40610
def PWM_SYNC : Nat := 0x40614
def PWM_SYNCSEL : Nat := 0x40618
def PWM_DLSTAT : Nat := 0x4061C
def ADC_CFG (h : Half) (m : Nat) : Nat := Half.base h + 0x24000 + 4 * m
def ADC_PLCFG (h : Half) : Nat := Half.base h + 0x24008
def ADC_PLTOL (h : Half) : Nat := Half.base h + 0x2400C
def ADC_KNK (h : Half) (k : Nat) : Nat := Half.base h + 0x24010 + 4 * k
def ADC_STAT (h : Half) (m : Nat) : Nat := Half.base h + 0x24020 + 4 * m
def ADC_PLSTAT (h : Half) : Nat := Half.base h + 0x24028
def ADC_URGFLAG (h : Half) : Nat := Half.base h + 0x2402C
def ADC_URGCNCL (h : Half) : Nat := Half.base h + 0x24030
def ADC_SEQ (h : Half) (m : Nat) (e : Nat) : Nat := Half.base h + 0x24100 + 128 * m + 4 * e
def ADC_URG (h : Half) (j : Nat) : Nat := Half.base h + 0x24200 + 4 * j
def ACC_CFG (h : Half) (a : Nat) : Nat := Half.base h + 0x25000 + 64 * a
def ACC_PARAM (h : Half) (a : Nat) : Nat := Half.base h + 0x25004 + 64 * a
def ACC_BPF0 (h : Half) (a : Nat) : Nat := Half.base h + 0x25008 + 64 * a
def ACC_BPF1 (h : Half) (a : Nat) : Nat := Half.base h + 0x2500C + 64 * a
def ACC_SUMLO (h : Half) (a : Nat) : Nat := Half.base h + 0x25010 + 64 * a
def ACC_SUMHI (h : Half) (a : Nat) : Nat := Half.base h + 0x25014 + 64 * a
def ACC_STAT (h : Half) (a : Nat) : Nat := Half.base h + 0x25018 + 64 * a
def ACC_RSUMLO (h : Half) (a : Nat) : Nat := Half.base h + 0x2501C + 64 * a
def ACC_RSUMHI (h : Half) (a : Nat) : Nat := Half.base h + 0x25020 + 64 * a
def ACC_RCNT (h : Half) (a : Nat) : Nat := Half.base h + 0x25024 + 64 * a
def ACC_RMIN (h : Half) (a : Nat) : Nat := Half.base h + 0x25028 + 64 * a
def ACC_RMAX (h : Half) (a : Nat) : Nat := Half.base h + 0x2502C + 64 * a
def ACC_ROPEN (h : Half) (a : Nat) : Nat := Half.base h + 0x25030 + 64 * a
def ACC_RCLOSE (h : Half) (a : Nat) : Nat := Half.base h + 0x25034 + 64 * a
def ACC_RSEQ (h : Half) (a : Nat) : Nat := Half.base h + 0x25038 + 64 * a
def ACC_NEWLO (h : Half) : Nat := Half.base h + 0x26000
def ACC_NEWHI (h : Half) : Nat := Half.base h + 0x26004
def SNT_CFG (r : Nat) : Nat := 0x60000 + 64 * r
def SNT_FLEN (r : Nat) : Nat := 0x60004 + 64 * r
def SNT_DATA (r : Nat) : Nat := 0x60008 + 64 * r
def SNT_TIME (r : Nat) : Nat := 0x6000C + 64 * r
def SNT_CAL (r : Nat) : Nat := 0x60010 + 64 * r
def SNT_STAT (r : Nat) : Nat := 0x60014 + 64 * r
def SNT_CNT (r : Nat) : Nat := 0x60018 + 64 * r
def SNT_SER (r : Nat) : Nat := 0x6001C + 64 * r
def SNT_SERTIME (r : Nat) : Nat := 0x60020 + 64 * r
def COLT_CFG (e : Nat) : Nat := 0x50000 + 64 * e
def COLT_MODE (e : Nat) : Nat := 0x50004 + 64 * e
def COLT_CTRL (e : Nat) : Nat := 0x50008 + 64 * e
def COLT_FIFOCFG (e : Nat) : Nat := 0x5000C + 64 * e
def COLT_RELOAD (e : Nat) : Nat := 0x50010 + 64 * e
def COLT_CNT (e : Nat) : Nat := 0x50014 + 64 * e
def COLT_TSR (e : Nat) : Nat := 0x50018 + 64 * e
def COLT_RSR (e : Nat) : Nat := 0x5001C + 64 * e
def COLT_TXFIFO (e : Nat) : Nat := 0x50020 + 64 * e
def COLT_RXFIFO (e : Nat) : Nat := 0x50024 + 64 * e
def COLT_STAT (e : Nat) : Nat := 0x50028 + 64 * e
def COLT_FLAG (e : Nat) : Nat := 0x5002C + 64 * e
def COLT_EXLO (e : Nat) : Nat := 0x50030 + 64 * e
def COLT_EXHI (e : Nat) : Nat := 0x50034 + 64 * e
def COLT_INJLO (e : Nat) : Nat := 0x50038 + 64 * e
def COLT_INJHI (e : Nat) : Nat := 0x5003C + 64 * e
def COLT_PINOWN (k : Nat) : Nat := 0x50200 + 4 * k
def COLT_PINSAFE : Nat := 0x50208
def COLT_PINLVL : Nat := 0x5020C
def COLT_TRIG : Nat := 0x50210
def COLT_GFLAG : Nat := 0x50214
def COLT_GFLAG_SET : Nat := 0x50218
def COLT_GFLAG_CLR : Nat := 0x5021C
def COLT_SUM : Nat := 0x50220
def COLT_TAB_LO (e : Nat) (i : Nat) : Nat := 0x51000 + 512 * e + 8 * i
def COLT_TAB_HI (e : Nat) (i : Nat) : Nat := 0x51004 + 512 * e + 8 * i
def MULE_CFG (c : Nat) : Nat := 0x20000 + 64 * c
def MULE_CMD (c : Nat) : Nat := 0x20004 + 64 * c
def MULE_STAT (c : Nat) : Nat := 0x20008 + 64 * c
def MULE_FLAG (c : Nat) : Nat := 0x2000C + 64 * c
def MULE_ASADDR (c : Nat) : Nat := 0x20010 + 64 * c
def MULE_ADADDR (c : Nat) : Nat := 0x20014 + 64 * c
def MULE_ALEN (c : Nat) : Nat := 0x20018 + 64 * c
def MULE_ACTL (c : Nat) : Nat := 0x2001C + 64 * c
def MULE_SSADDR (c : Nat) : Nat := 0x20020 + 64 * c
def MULE_SDADDR (c : Nat) : Nat := 0x20024 + 64 * c
def MULE_SLEN (c : Nat) : Nat := 0x20028 + 64 * c
def MULE_SCTL (c : Nat) : Nat := 0x2002C + 64 * c
def MULE_SETS (c : Nat) : Nat := 0x20030 + 64 * c
def MULE_SWREQ : Nat := 0x20400
def MULE_PWMSEL : Nat := 0x20404
def MULE_SUM : Nat := 0x20408
def IRQ_PEND_SET (k : Nat) : Nat := 0x10000 + 4 * k
def IRQ_PEND_CLR (k : Nat) : Nat := 0x10020 + 4 * k
def IRQ_EN_SET (k : Nat) : Nat := 0x10040 + 4 * k
def IRQ_EN_CLR (k : Nat) : Nat := 0x10060 + 4 * k
def IRQ_TGTCTL (t : Nat) : Nat := 0x10100 + 4 * t
def IRQ_TGTSTAT (t : Nat) : Nat := 0x10120 + 4 * t
def IRQ_CLAIM (t : Nat) : Nat := 0x10140 + 4 * t
def IRQ_COMPLETE (t : Nat) : Nat := 0x10148 + 4 * t
def IRQ_SRCCFG (n : Nat) : Nat := 0x10400 + 4 * n
def LNK_CFG : Nat := 0x70000
def LNK_STAT : Nat := 0x70004
def LNK_FLAG : Nat := 0x70008
def LNK_CNT : Nat := 0x7000C
def LNK_HBCFG : Nat := 0x70010
def LNK_HLCFG : Nat := 0x70014
def LNK_HBVAL : Nat := 0x70018
def LNK_HBTIME : Nat := 0x7001C
def LNK_STRCFG (b : Nat) : Nat := 0x70040 + 16 * b
def LNK_STRSTAT (b : Nat) : Nat := 0x70044 + 16 * b
def LNK_STRADD (b : Nat) : Nat := 0x70048 + 16 * b
def SPH_CFG : Nat := 0x70400
def SPH_STAT : Nat := 0x70404
def SPH_FLAG : Nat := 0x70408
def NVL_STAT : Nat := 0x70800
def NVL_PCTL : Nat := 0x70804
def NVL_PADDR : Nat := 0x70808
def NVL_PSTAT : Nat := 0x7080C
def NVL_PDATA (n : Nat) : Nat := 0x70840 + 4 * n
def SAF_STAT : Nat := 0x100000
def SAF_FLAG : Nat := 0x100004
def SAF_REACT : Nat := 0x100008
def SAF_CFG : Nat := 0x10000C
def SAF_RECOVER : Nat := 0x100010
def SAF_FIRST : Nat := 0x100014
def SAF_FIRSTTIME : Nat := 0x100018
def SAF_ECC : Nat := 0x10001C
def SAF_ECCADDR : Nat := 0x100020
def SAF_MON : Nat := 0x100024
def SAF_CNT : Nat := 0x100028
def SAF_TEST : Nat := 0x100030
def SAF_TESTSTAT : Nat := 0x100034
def GDR_CFG (h : Half) : Nat := Half.base h + 0x30000
def GDR_STAT (h : Half) : Nat := Half.base h + 0x30004
def GDR_ANGLE (h : Half) : Nat := Half.base h + 0x30008
def GDR_SIG (h : Half) : Nat := Half.base h + 0x3000C
def GDR_FLAG (h : Half) : Nat := Half.base h + 0x30010
def GDR_VOTE (h : Half) : Nat := Half.base h + 0x30014
def GDR_CNT (h : Half) : Nat := Half.base h + 0x30018
def XLK_CFG (h : Half) : Nat := Half.base h + 0x31000
def XLK_STAT (h : Half) : Nat := Half.base h + 0x31004
def XLK_FLAG (h : Half) : Nat := Half.base h + 0x31008

end Reg

namespace F

def SYS_ID_PART : Fld := ⟨31, 16⟩
def SYS_ID_STEP_MAJ : Fld := ⟨15, 12⟩
def SYS_ID_STEP_MIN : Fld := ⟨11, 8⟩
def SYS_ID_FAMILY : Fld := ⟨7, 0⟩
def SYS_MODE_DEV_SAFE : Fld := ⟨17, 17⟩
def SYS_MODE_HALT_PEND : Fld := ⟨16, 16⟩
def SYS_MODE_MODE_B : Fld := ⟨10, 8⟩
def SYS_MODE_MODE_A : Fld := ⟨6, 4⟩
def SYS_MODE_MODE : Fld := ⟨2, 0⟩
def SYS_READY_HALF_B_ON : Fld := ⟨2, 2⟩
def SYS_READY_HALF_A_ON : Fld := ⟨1, 1⟩
def SYS_READY_RDY : Fld := ⟨0, 0⟩
def SYS_BOOTSTAT_SINGLE_READ : Fld := ⟨18, 18⟩
def SYS_BOOTSTAT_RC_CLK : Fld := ⟨17, 17⟩
def SYS_BOOTSTAT_TRIM_BAD : Fld := ⟨16, 16⟩
def SYS_BOOTSTAT_COPY : Fld := ⟨13, 12⟩
def SYS_BOOTSTAT_STEP : Fld := ⟨11, 8⟩
def SYS_BOOTSTAT_CODE : Fld := ⟨7, 0⟩
def SYS_RSTCAUSE_WAKE : Fld := ⟨4, 4⟩
def SYS_RSTCAUSE_SOFT : Fld := ⟨3, 3⟩
def SYS_RSTCAUSE_PIN : Fld := ⟨2, 2⟩
def SYS_RSTCAUSE_BROWN : Fld := ⟨1, 1⟩
def SYS_RSTCAUSE_POR : Fld := ⟨0, 0⟩
def SYS_WAKE_COLD : Fld := ⟨3, 3⟩
def SYS_WAKE_MOTION_B : Fld := ⟨2, 2⟩
def SYS_WAKE_MOTION_A : Fld := ⟨1, 1⟩
def SYS_WAKE_WAKE_IN : Fld := ⟨0, 0⟩
def SYS_FLAG_SVC_DENIED : Fld := ⟨1, 1⟩
def SYS_FLAG_KEY_ERR : Fld := ⟨0, 0⟩
def SYS_PMCFG_WAKEN_B : Fld := ⟨28, 21⟩
def SYS_PMCFG_SETTLE_B : Fld := ⟨20, 17⟩
def SYS_PMCFG_PM_EN_B : Fld := ⟨16, 16⟩
def SYS_PMCFG_WAKEN_A : Fld := ⟨12, 5⟩
def SYS_PMCFG_SETTLE_A : Fld := ⟨4, 1⟩
def SYS_PMCFG_PM_EN_A : Fld := ⟨0, 0⟩
def SYS_PMSTAT_COUNT : Fld := ⟨31, 16⟩
def SYS_PMSTAT_TOOTH : Fld := ⟨15, 7⟩
def SYS_PMSTAT_OVF : Fld := ⟨4, 4⟩
def SYS_PMSTAT_DIR_ERR : Fld := ⟨3, 3⟩
def SYS_PMSTAT_DISCARDED : Fld := ⟨2, 2⟩
def SYS_PMSTAT_USED : Fld := ⟨1, 1⟩
def SYS_PMSTAT_VALID : Fld := ⟨0, 0⟩
def IMG_STAT_VER_MIN : Fld := ⟨31, 24⟩
def IMG_STAT_NSECT : Fld := ⟨23, 16⟩
def IMG_STAT_CMAC_OK : Fld := ⟨3, 3⟩
def IMG_STAT_CMAC_PRES : Fld := ⟨2, 2⟩
def IMG_STAT_COPY : Fld := ⟨1, 0⟩
def IMG_FAIL_CHECK : Fld := ⟨31, 24⟩
def IMG_FAIL_TYPE : Fld := ⟨23, 16⟩
def IMG_FAIL_SECT : Fld := ⟨14, 8⟩
def IMG_KEYSTAT_KCV : Fld := ⟨31, 8⟩
def IMG_KEYSTAT_PROG : Fld := ⟨0, 0⟩
def IMG_FLAG_KEY_DENIED : Fld := ⟨0, 0⟩
def CTX_CTL_COUNT : Fld := ⟨15, 8⟩
def CTX_CTL_WHEN : Fld := ⟨5, 4⟩
def CTX_CTL_CMD : Fld := ⟨1, 0⟩
def CTX_STAT_CHECK : Fld := ⟨31, 24⟩
def CTX_STAT_CODE : Fld := ⟨23, 16⟩
def CTX_STAT_ENTRY : Fld := ⟨15, 10⟩
def CTX_STAT_ENTV : Fld := ⟨9, 9⟩
def CTX_STAT_OWNER : Fld := ⟨6, 4⟩
def CTX_STAT_STATE : Fld := ⟨1, 0⟩
def TRIM_STAT_WCNT : Fld := ⟨15, 5⟩
def TRIM_STAT_WEAR : Fld := ⟨4, 4⟩
def TRIM_STAT_ERR : Fld := ⟨3, 2⟩
def TRIM_STAT_DONE : Fld := ⟨1, 1⟩
def TRIM_STAT_BUSY : Fld := ⟨0, 0⟩
def SNS_CFG_CAM_EDGE : Fld := ⟨23, 16⟩
def SNS_CFG_CAM_TYPE : Fld := ⟨15, 12⟩
def SNS_CFG_CAM_EN : Fld := ⟨11, 8⟩
def SNS_CFG_FWD_LVL : Fld := ⟨6, 6⟩
def SNS_CFG_DIRSRC : Fld := ⟨5, 4⟩
def SNS_CFG_CRK_POL : Fld := ⟨1, 1⟩
def SNS_CFG_CRK_TYPE : Fld := ⟨0, 0⟩
def SNS_THR_CAM3_PCT : Fld := ⟨29, 24⟩
def SNS_THR_CAM2_PCT : Fld := ⟨23, 18⟩
def SNS_THR_CAM1_PCT : Fld := ⟨17, 12⟩
def SNS_THR_CAM0_PCT : Fld := ⟨11, 6⟩
def SNS_THR_CRK_PCT : Fld := ⟨5, 0⟩
def SNS_FILT_CAM_FILT : Fld := ⟨15, 8⟩
def SNS_FILT_CRK_FILT : Fld := ⟨7, 0⟩
def SNS_DIRCFG_QWIN : Fld := ⟨21, 16⟩
def SNS_DIRCFG_REV_MIN : Fld := ⟨15, 8⟩
def SNS_DIRCFG_FWD_MAX : Fld := ⟨7, 0⟩
def SNS_MININT_MIN_INT : Fld := ⟨15, 0⟩
def SNS_SHARE_SHARE : Fld := ⟨0, 0⟩
def SNS_STAT_THR_FLOOR : Fld := ⟨12, 12⟩
def SNS_STAT_DIRCHG : Fld := ⟨11, 11⟩
def SNS_STAT_MININT_FLT : Fld := ⟨10, 10⟩
def SNS_STAT_DIR_AMB : Fld := ⟨9, 9⟩
def SNS_STAT_ILLEGAL : Fld := ⟨8, 8⟩
def SNS_STAT_REGIME : Fld := ⟨7, 7⟩
def SNS_STAT_DIR : Fld := ⟨6, 6⟩
def SNS_STAT_CAM_LVL : Fld := ⟨5, 2⟩
def SNS_STAT_CRKD_LVL : Fld := ⟨1, 1⟩
def SNS_STAT_CRK_LVL : Fld := ⟨0, 0⟩
def SNS_CNT_ILLEGALS : Fld := ⟨31, 16⟩
def SNS_CNT_FAULTS : Fld := ⟨15, 0⟩
def SNS_PEAK_CRK_PEAK : Fld := ⟨15, 0⟩
def SNS_CAP_STAT_DIR : Fld := ⟨3, 3⟩
def SNS_CAP_STAT_LEVEL : Fld := ⟨2, 2⟩
def SNS_CAP_STAT_OVR : Fld := ⟨1, 1⟩
def SNS_CAP_STAT_NEW : Fld := ⟨0, 0⟩
def ASC_CTRL_TARGET : Fld := ⟨13, 8⟩
def ASC_CTRL_ACTION : Fld := ⟨5, 4⟩
def ASC_CTRL_EN : Fld := ⟨0, 0⟩
def ASC_STEP_STEP : Fld := ⟨23, 0⟩
def ASC_ANCHOR_ANCHOR : Fld := ⟨23, 0⟩
def ASC_NEXT_NEXT : Fld := ⟨23, 0⟩
def ASC_STAT_SKIP : Fld := ⟨31, 31⟩
def ASC_STAT_SKIPS : Fld := ⟨23, 16⟩
def ASC_STAT_HITS : Fld := ⟨15, 0⟩
def CRKO_CTRL_PHASE : Fld := ⟨24, 16⟩
def CRKO_CTRL_RATIO : Fld := ⟨15, 8⟩
def CRKO_CTRL_INV : Fld := ⟨2, 2⟩
def CRKO_CTRL_FILL : Fld := ⟨1, 1⟩
def CRKO_CTRL_EN : Fld := ⟨0, 0⟩
def CRKO_STAT_LOCKED : Fld := ⟨9, 9⟩
def CRKO_STAT_FILLING : Fld := ⟨8, 8⟩
def CRKO_STAT_COUNT : Fld := ⟨7, 0⟩
def WHL_WCFG_CYC720 : Fld := ⟨16, 16⟩
def WHL_WCFG_NENT : Fld := ⟨9, 0⟩
def WHL_WWIN_HI3 : Fld := ⟨31, 27⟩
def WHL_WWIN_LO3 : Fld := ⟨26, 24⟩
def WHL_WWIN_HI2 : Fld := ⟨23, 19⟩
def WHL_WWIN_LO2 : Fld := ⟨18, 16⟩
def WHL_WWIN_HI1 : Fld := ⟨15, 11⟩
def WHL_WWIN_LO1 : Fld := ⟨10, 8⟩
def WHL_WWIN_HI0 : Fld := ⟨7, 3⟩
def WHL_WWIN_LO0 : Fld := ⟨2, 0⟩
def WHL_SYNCCFG_CRKLOSS : Fld := ⟨22, 20⟩
def WHL_SYNCCFG_LIMP_CRK : Fld := ⟨17, 17⟩
def WHL_SYNCCFG_AUTO : Fld := ⟨16, 16⟩
def WHL_SYNCCFG_MAXREJ : Fld := ⟨15, 12⟩
def WHL_SYNCCFG_CONFIRM : Fld := ⟨8, 0⟩
def WHL_CAMCFG_TOL : Fld := ⟨27, 16⟩
def WHL_CAMCFG_LIMPCAM : Fld := ⟨13, 12⟩
def WHL_CAMCFG_CAMLOSS : Fld := ⟨11, 8⟩
def WHL_CAMCFG_NDEC : Fld := ⟨7, 4⟩
def WHL_CAMCFG_PHCAM : Fld := ⟨3, 0⟩
def WHL_CAMN_N3 : Fld := ⟨29, 24⟩
def WHL_CAMN_N2 : Fld := ⟨21, 16⟩
def WHL_CAMN_N1 : Fld := ⟨13, 8⟩
def WHL_CAMN_N0 : Fld := ⟨5, 0⟩
def WHL_STAT_LOSS : Fld := ⟨31, 31⟩
def WHL_STAT_CAMERR : Fld := ⟨30, 30⟩
def WHL_STAT_REJ : Fld := ⟨29, 29⟩
def WHL_STAT_CRKLOST : Fld := ⟨28, 28⟩
def WHL_STAT_CAMLOST : Fld := ⟨27, 24⟩
def WHL_STAT_RESYNC_PERM : Fld := ⟨17, 17⟩
def WHL_STAT_PH_DEC : Fld := ⟨16, 16⟩
def WHL_STAT_NCAND : Fld := ⟨11, 8⟩
def WHL_STAT_CLASS : Fld := ⟨6, 4⟩
def WHL_STAT_CONFIRMING : Fld := ⟨1, 1⟩
def WHL_STAT_SYNC : Fld := ⟨0, 0⟩
def WHL_POS_CONF : Fld := ⟨24, 16⟩
def WHL_POS_INDEX : Fld := ⟨8, 0⟩
def WHL_LOSS_INDEX : Fld := ⟨24, 16⟩
def WHL_LOSS_CAM : Fld := ⟨5, 4⟩
def WHL_LOSS_REASON : Fld := ⟨3, 0⟩
def WHL_CNT_LOSSES : Fld := ⟨31, 16⟩
def WHL_CNT_REJTOT : Fld := ⟨15, 8⟩
def WHL_CNT_REJREV : Fld := ⟨3, 0⟩
def WHL_CAMERR_ERR3 : Fld := ⟨31, 24⟩
def WHL_CAMERR_ERR2 : Fld := ⟨23, 16⟩
def WHL_CAMERR_ERR1 : Fld := ⟨15, 8⟩
def WHL_CAMERR_ERR0 : Fld := ⟨7, 0⟩
def WHL_CAMTAB_LEVEL : Fld := ⟨24, 24⟩
def WHL_CAMTAB_ANGLE : Fld := ⟨23, 0⟩
def WHL_WTAB_RCLASS : Fld := ⟨27, 26⟩
def WHL_WTAB_GAP : Fld := ⟨25, 25⟩
def WHL_WTAB_REF : Fld := ⟨24, 24⟩
def WHL_WTAB_ANGLE : Fld := ⟨23, 0⟩
def ANG_MODE_PREV : Fld := ⟨6, 4⟩
def ANG_MODE_MODE : Fld := ⟨2, 0⟩
def ANG_CFG_EARLY : Fld := ⟨16, 16⟩
def ANG_CFG_GUARD : Fld := ⟨14, 8⟩
def ANG_STAT_OVERRANGE : Fld := ⟨31, 31⟩
def ANG_STAT_CU_TMO : Fld := ⟨30, 30⟩
def ANG_STAT_JUMPED : Fld := ⟨29, 29⟩
def ANG_STAT_LINFB : Fld := ⟨28, 28⟩
def ANG_STAT_CRK_RET : Fld := ⟨27, 27⟩
def ANG_STAT_CAM_RET : Fld := ⟨26, 26⟩
def ANG_STAT_BAND : Fld := ⟨10, 8⟩
def ANG_STAT_LIMP_SRC : Fld := ⟨6, 6⟩
def ANG_STAT_DIR : Fld := ⟨4, 4⟩
def ANG_STAT_CATCHING : Fld := ⟨2, 2⟩
def ANG_STAT_CLAMPED : Fld := ⟨1, 1⟩
def ANG_STAT_TRACKING : Fld := ⟨0, 0⟩
def ANG_ANGLE_ANGLE : Fld := ⟨23, 0⟩
def ANG_RPM_RPM : Fld := ⟨19, 0⟩
def ANG_PERIOD_PERIOD : Fld := ⟨29, 0⟩
def ANG_CLAMP_CLAMP : Fld := ⟨23, 0⟩
def ANG_STOPCFG_STALL : Fld := ⟨27, 16⟩
def ANG_STOPCFG_RDSPD : Fld := ⟨9, 0⟩
def ANG_BANDL_UPPER : Fld := ⟨15, 0⟩
def ANG_BANDG_KA : Fld := ⟨31, 22⟩
def ANG_BANDG_KW : Fld := ⟨21, 11⟩
def ANG_BANDG_KT : Fld := ⟨10, 0⟩
def ANG_LEARNCTL_RIP_CLR : Fld := ⟨9, 9⟩
def ANG_LEARNCTL_WE_CLR : Fld := ⟨8, 8⟩
def ANG_LEARNCTL_RIP_EN : Fld := ⟨1, 1⟩
def ANG_LEARNCTL_WE_EN : Fld := ⟨0, 0⟩
def ANG_LEARNCFG_RIP_SHIFT : Fld := ⟨7, 4⟩
def ANG_LEARNCFG_WE_SHIFT : Fld := ⟨3, 0⟩
def ANG_WEBAND_HI : Fld := ⟨31, 16⟩
def ANG_WEBAND_LO : Fld := ⟨15, 0⟩
def ANG_RIPBAND_HI : Fld := ⟨31, 16⟩
def ANG_RIPBAND_LO : Fld := ⟨15, 0⟩
def ANG_WEAMAX_AMAX : Fld := ⟨15, 0⟩
def ANG_LEARNSTAT_RIP_ACT : Fld := ⟨5, 5⟩
def ANG_LEARNSTAT_WE_ACT : Fld := ⟨4, 4⟩
def ANG_LEARNSTAT_RIP_SAT : Fld := ⟨3, 3⟩
def ANG_LEARNSTAT_WE_SAT : Fld := ⟨2, 2⟩
def ANG_LEARNSTAT_RIP_CONV : Fld := ⟨1, 1⟩
def ANG_LEARNSTAT_WE_CONV : Fld := ⟨0, 0⟩
def ANG_LEARNCNT_RIP_CYC : Fld := ⟨31, 16⟩
def ANG_LEARNCNT_WE_CYC : Fld := ⟨15, 0⟩
def ANG_SEGCFG_NSEG : Fld := ⟨29, 24⟩
def ANG_SEGCFG_ANCHOR : Fld := ⟨23, 0⟩
def ANG_SEGPOS_WRAPS : Fld := ⟨31, 16⟩
def ANG_SEGPOS_POS : Fld := ⟨5, 0⟩
def ANG_LOGCFG_SEG_REQ : Fld := ⟨9, 9⟩
def ANG_LOGCFG_LOG_REQ : Fld := ⟨8, 8⟩
def ANG_LOGCFG_BLK : Fld := ⟨3, 0⟩
def ANG_LOGPOS_WRAPS : Fld := ⟨31, 16⟩
def ANG_LOGPOS_POS : Fld := ⟨12, 0⟩
def ANG_PARK_ANGLE : Fld := ⟨23, 0⟩
def ANG_PARKIDX_VALID : Fld := ⟨31, 31⟩
def ANG_PARKIDX_PHK : Fld := ⟨30, 30⟩
def ANG_PARKIDX_DIR : Fld := ⟨16, 16⟩
def ANG_PARKIDX_INDEX : Fld := ⟨8, 0⟩
def ANG_SEG_INFO_CYCLE : Fld := ⟨31, 16⟩
def ANG_SEG_INFO_INVALID : Fld := ⟨9, 9⟩
def ANG_SEG_INFO_SEG : Fld := ⟨4, 0⟩
def EVC_CTRL_GROUP : Fld := ⟨31, 28⟩
def EVC_CTRL_LIMP : Fld := ⟨25, 24⟩
def EVC_CTRL_DSLOT : Fld := ⟨23, 16⟩
def EVC_CTRL_TARGET : Fld := ⟨15, 8⟩
def EVC_CTRL_ACTION : Fld := ⟨7, 4⟩
def EVC_CTRL_ARMEN : Fld := ⟨3, 3⟩
def EVC_CTRL_IE : Fld := ⟨2, 2⟩
def EVC_CTRL_CYC : Fld := ⟨1, 1⟩
def EVC_CTRL_EN : Fld := ⟨0, 0⟩
def EVC_ANGLE_ANGLE : Fld := ⟨23, 0⟩
def EVC_END_KIND : Fld := ⟨31, 31⟩
def EVC_END_VAL : Fld := ⟨30, 0⟩
def EVC_LIMIT_MAXDEF : Fld := ⟨27, 16⟩
def EVC_LIMIT_CULIM : Fld := ⟨11, 0⟩
def EVC_AUX_PARAM : Fld := ⟨15, 8⟩
def EVC_AUX_PROFILE : Fld := ⟨3, 0⟩
def EVC_STAT_OCC : Fld := ⟨31, 24⟩
def EVC_STAT_DROPS : Fld := ⟨23, 16⟩
def EVC_STAT_REASON : Fld := ⟨15, 12⟩
def EVC_STAT_CUT : Fld := ⟨8, 8⟩
def EVC_STAT_DROP : Fld := ⟨7, 7⟩
def EVC_STAT_CAUGHT : Fld := ⟨6, 6⟩
def EVC_STAT_LATE : Fld := ⟨5, 5⟩
def EVC_STAT_DONE : Fld := ⟨4, 4⟩
def EVC_STAT_FAR : Fld := ⟨3, 3⟩
def EVC_STAT_WAITING : Fld := ⟨2, 2⟩
def EVC_STAT_INFLIGHT : Fld := ⟨1, 1⟩
def EVC_STAT_ARMED : Fld := ⟨0, 0⟩
def EVC_ARM_ARM : Fld := ⟨15, 0⟩
def EVC_DISARM_DISARM : Fld := ⟨15, 0⟩
def EVC_GSTAT_DRP : Fld := ⟨31, 16⟩
def EVC_GSTAT_EVT : Fld := ⟨15, 0⟩
def EVC_STCLR_GRP : Fld := ⟨31, 31⟩
def EVC_STCLR_SUMCLR : Fld := ⟨30, 30⟩
def EVC_STCLR_CUT : Fld := ⟨12, 12⟩
def EVC_STCLR_DROP : Fld := ⟨11, 11⟩
def EVC_STCLR_CAUGHT : Fld := ⟨10, 10⟩
def EVC_STCLR_LATE : Fld := ⟨9, 9⟩
def EVC_STCLR_DONE : Fld := ⟨8, 8⟩
def EVC_STCLR_CH : Fld := ⟨7, 0⟩
def EVC_SUM_DROPTOT : Fld := ⟨31, 16⟩
def EVC_SUM_PEAK : Fld := ⟨13, 8⟩
def EVC_SUM_INUSE : Fld := ⟨5, 0⟩
def DMD_ANGLE_ANGLE : Fld := ⟨23, 0⟩
def DMD_END_KIND : Fld := ⟨31, 31⟩
def DMD_END_VAL : Fld := ⟨30, 0⟩
def DMD_FLAG_TAG : Fld := ⟨31, 16⟩
def DMD_FLAG_OFF : Fld := ⟨8, 8⟩
def DMD_FLAG_PROFILE : Fld := ⟨3, 0⟩
def DMD_CMT_XGROUPS : Fld := ⟨23, 16⟩
def DMD_CMT_GROUPS : Fld := ⟨15, 8⟩
def DMD_CMT_WHEN : Fld := ⟨5, 4⟩
def DMD_CMT_CMD : Fld := ⟨1, 0⟩
def DMD_STAT_LOCKED : Fld := ⟨23, 16⟩
def DMD_STAT_FUELCUT : Fld := ⟨8, 8⟩
def DMD_STAT_LEAD : Fld := ⟨5, 5⟩
def DMD_STAT_XH : Fld := ⟨4, 4⟩
def DMD_STAT_STATE : Fld := ⟨1, 0⟩
def DMD_RES_CODE : Fld := ⟨31, 24⟩
def DMD_RES_CHAN : Fld := ⟨23, 16⟩
def DMD_RES_SLOT : Fld := ⟨15, 8⟩
def DMD_RES_CHV : Fld := ⟨7, 7⟩
def DMD_RES_FAILHALF : Fld := ⟨6, 6⟩
def DMD_RES_XH : Fld := ⟨5, 5⟩
def DMD_FLAGS_STG_LOCKED : Fld := ⟨3, 3⟩
def DMD_FLAGS_LATE : Fld := ⟨2, 2⟩
def DMD_FLAGS_REJ : Fld := ⟨1, 1⟩
def DMD_FLAGS_DONE : Fld := ⟨0, 0⟩
def DMD_CHKSPD_SPDMARG : Fld := ⟨19, 16⟩
def DMD_CHKSPD_SPD : Fld := ⟨15, 0⟩
def DMD_SHOTLIM_SHOTMAX : Fld := ⟨31, 16⟩
def DMD_SHOTLIM_SHOTMIN : Fld := ⟨15, 0⟩
def DMD_CYLLIM_MAXSHOTS : Fld := ⟨27, 24⟩
def DMD_CYLLIM_TOTAL : Fld := ⟨19, 0⟩
def DMD_BOOSTLIM_QRATE : Fld := ⟨15, 0⟩
def DMD_DWELL_DWMAX : Fld := ⟨31, 16⟩
def DMD_DWELL_DWMIN : Fld := ⟨15, 0⟩
def DMD_LSCFG_MINSEP : Fld := ⟨31, 16⟩
def DMD_LSCFG_CYL : Fld := ⟨3, 0⟩
def DRV_STAT_LOWB_CNT : Fld := ⟨31, 24⟩
def DRV_STAT_OVLP_CNT : Fld := ⟨23, 16⟩
def DRV_STAT_CORR_SAT : Fld := ⟨4, 4⟩
def DRV_STAT_DIAG : Fld := ⟨3, 3⟩
def DRV_STAT_DEFER : Fld := ⟨2, 2⟩
def DRV_STAT_LOWBOOST : Fld := ⟨1, 1⟩
def DRV_STAT_OVLP_DROP : Fld := ⟨0, 0⟩
def DRV_BANKCLR_CLR : Fld := ⟨5, 0⟩
def DRV_HYDCLR_CLR : Fld := ⟨11, 0⟩
def DRV_BANKCFG_MINCHOP : Fld := ⟨31, 24⟩
def DRV_BANKCFG_RSHUNT : Fld := ⟨19, 8⟩
def DRV_BANKCFG_GAIN : Fld := ⟨5, 4⟩
def DRV_BANKCFG_LS1_EN : Fld := ⟨2, 2⟩
def DRV_BANKCFG_LS0_EN : Fld := ⟨1, 1⟩
def DRV_BANKCFG_EN : Fld := ⟨0, 0⟩
def DRV_BANKDIAG_FC : Fld := ⟨28, 28⟩
def DRV_BANKDIAG_BLANK : Fld := ⟨27, 24⟩
def DRV_BANKDIAG_VDS_TH : Fld := ⟨22, 20⟩
def DRV_BANKDIAG_OL : Fld := ⟨19, 10⟩
def DRV_BANKDIAG_OC : Fld := ⟨9, 0⟩
def DRV_BANKLIM_DEFER_MAX : Fld := ⟨31, 16⟩
def DRV_BANKLIM_GAP : Fld := ⟨15, 0⟩
def DRV_BANKSTAT_OFF : Fld := ⟨31, 31⟩
def DRV_BANKSTAT_ACTIVE : Fld := ⟨30, 30⟩
def DRV_BANKSTAT_DEFER_PEND : Fld := ⟨29, 29⟩
def DRV_BANKSTAT_ACT_LS : Fld := ⟨28, 28⟩
def DRV_BANKSTAT_HOLD_TMO : Fld := ⟨9, 9⟩
def DRV_BANKSTAT_OPEN : Fld := ⟨8, 8⟩
def DRV_BANKSTAT_TTP_LONG : Fld := ⟨7, 7⟩
def DRV_BANKSTAT_TTP_SHORT : Fld := ⟨6, 6⟩
def DRV_BANKSTAT_OC : Fld := ⟨5, 5⟩
def DRV_BANKSTAT_VDS_LS1 : Fld := ⟨4, 4⟩
def DRV_BANKSTAT_VDS_LS0 : Fld := ⟨3, 3⟩
def DRV_BANKSTAT_VDS_HSV : Fld := ⟨2, 2⟩
def DRV_BANKSTAT_VDS_HSB : Fld := ⟨1, 1⟩
def DRV_PBOOST_TMAX : Fld := ⟨27, 16⟩
def DRV_PBOOST_LEVEL : Fld := ⟨9, 0⟩
def DRV_PPEAK_TIME : Fld := ⟨27, 16⟩
def DRV_PPEAK_PHYST : Fld := ⟨15, 10⟩
def DRV_PPEAK_LEVEL : Fld := ⟨9, 0⟩
def DRV_PHOLD_TIME : Fld := ⟨31, 16⟩
def DRV_PHOLD_HYST : Fld := ⟨15, 10⟩
def DRV_PHOLD_LEVEL : Fld := ⟨9, 0⟩
def DRV_PCFG_TFAST : Fld := ⟨15, 8⟩
def DRV_PCFG_VALID : Fld := ⟨7, 7⟩
def DRV_PCFG_NEEDLE_EN : Fld := ⟨4, 4⟩
def DRV_PCFG_TTPEND : Fld := ⟨3, 3⟩
def DRV_PCFG_LOWB : Fld := ⟨2, 2⟩
def DRV_PCFG_HYDRAULIC : Fld := ⟨1, 1⟩
def DRV_PCFG_BOOST_EN : Fld := ⟨0, 0⟩
def DRV_PDIAG_TTP_MAX : Fld := ⟨27, 16⟩
def DRV_PDIAG_TTP_MIN : Fld := ⟨11, 0⟩
def DRV_PNEEDLE_KO : Fld := ⟨31, 28⟩
def DRV_PNEEDLE_SW : Fld := ⟨26, 25⟩
def DRV_PNEEDLE_OWE : Fld := ⟨24, 16⟩
def DRV_PNEEDLE_OWS : Fld := ⟨8, 0⟩
def DRV_PHYD_HYD_LIM : Fld := ⟨31, 24⟩
def DRV_PHYD_HYD_SHIFT : Fld := ⟨19, 16⟩
def DRV_PHYD_KC : Fld := ⟨15, 12⟩
def DRV_PHYD_CWIN : Fld := ⟨8, 0⟩
def DRV_HYDC_CORR : Fld := ⟨15, 0⟩
def BST_CTRL_FSW : Fld := ⟨24, 16⟩
def BST_CTRL_EN : Fld := ⟨0, 0⟩
def BST_VCFG_START : Fld := ⟨24, 16⟩
def BST_VCFG_TARGET : Fld := ⟨8, 0⟩
def BST_PROT_UVTIME : Fld := ⟨31, 28⟩
def BST_PROT_OV : Fld := ⟨24, 16⟩
def BST_PROT_UV : Fld := ⟨8, 0⟩
def BST_ILIM_ILIM : Fld := ⟨7, 0⟩
def BST_STAT_OV : Fld := ⟨9, 9⟩
def BST_STAT_UV : Fld := ⟨8, 8⟩
def BST_STAT_OV_ACT : Fld := ⟨4, 4⟩
def BST_STAT_UV_ACT : Fld := ⟨3, 3⟩
def BST_STAT_BELOW_START : Fld := ⟨2, 2⟩
def BST_STAT_SOFT : Fld := ⟨1, 1⟩
def BST_STAT_RUN : Fld := ⟨0, 0⟩
def BST_VMEAS_VBST : Fld := ⟨9, 0⟩
def IGN_CFG_TMAX : Fld := ⟨31, 24⟩
def IGN_CFG_MSN : Fld := ⟨18, 16⟩
def IGN_CFG_SOFT : Fld := ⟨11, 8⟩
def IGN_CFG_EN : Fld := ⟨0, 0⟩
def IGN_MS_MS_RPM : Fld := ⟨31, 16⟩
def IGN_MS_RECH : Fld := ⟨15, 8⟩
def IGN_MS_SPK : Fld := ⟨7, 0⟩
def IGN_STAT_DWELL : Fld := ⟨31, 16⟩
def IGN_STAT_SOFT_IGN : Fld := ⟨7, 7⟩
def IGN_STAT_MS_TRUNC : Fld := ⟨6, 6⟩
def IGN_STAT_DWELL_TMO : Fld := ⟨5, 5⟩
def IGN_STAT_RSLEFT : Fld := ⟨4, 2⟩
def IGN_STAT_SOFTOFF : Fld := ⟨1, 1⟩
def IGN_STAT_DWELLING : Fld := ⟨0, 0⟩
def IGN_SUM_FLAG : Fld := ⟨11, 0⟩
def GAO_CFG_VSEL : Fld := ⟨8, 8⟩
def GAO_CFG_SAFE : Fld := ⟨5, 4⟩
def GAO_CFG_EN : Fld := ⟨0, 0⟩
def GAO_LVL_HIZ : Fld := ⟨31, 16⟩
def GAO_LVL_LVL : Fld := ⟨15, 0⟩
def TMR_GFLAG_GRP : Fld := ⟨7, 0⟩
def TMR_CTRL_TGT : Fld := ⟨21, 16⟩
def TMR_CTRL_THALF : Fld := ⟨8, 8⟩
def TMR_CTRL_TRIG : Fld := ⟨7, 4⟩
def TMR_CTRL_LINK : Fld := ⟨3, 2⟩
def TMR_CTRL_MODE : Fld := ⟨1, 1⟩
def TMR_CTRL_IE : Fld := ⟨0, 0⟩
def TMR_STAT_FIRES : Fld := ⟨31, 16⟩
def TMR_STAT_SRC : Fld := ⟨6, 4⟩
def TMR_STAT_CANCEL : Fld := ⟨3, 3⟩
def TMR_STAT_LATE : Fld := ⟨2, 2⟩
def TMR_STAT_FIRED : Fld := ⟨1, 1⟩
def TMR_STAT_ARMED : Fld := ⟨0, 0⟩
def PWM_CFG_PSC : Fld := ⟨15, 8⟩
def PWM_CFG_SAFE : Fld := ⟨5, 4⟩
def PWM_CFG_IMM : Fld := ⟨1, 1⟩
def PWM_CFG_EN : Fld := ⟨0, 0⟩
def PWM_PER_PER : Fld := ⟨26, 0⟩
def PWM_EDGE_COUNT : Fld := ⟨31, 5⟩
def PWM_EDGE_FINE : Fld := ⟨4, 0⟩
def PWM_CNT_COUNT : Fld := ⟨26, 0⟩
def PWM_STAT_PERIODS : Fld := ⟨31, 16⟩
def PWM_STAT_FORCED : Fld := ⟨7, 7⟩
def PWM_STAT_MINP : Fld := ⟨6, 6⟩
def PWM_STAT_RANGE : Fld := ⟨5, 5⟩
def PWM_STAT_SHORT : Fld := ⟨4, 4⟩
def PWM_STAT_PER_PEND : Fld := ⟨3, 3⟩
def PWM_STAT_OPEN : Fld := ⟨2, 2⟩
def PWM_STAT_PEND : Fld := ⟨1, 1⟩
def PWM_STAT_LVL : Fld := ⟨0, 0⟩
def PWM_PAIRCFG_LINK : Fld := ⟨9, 8⟩
def PWM_PAIRCFG_TRIPEN : Fld := ⟨7, 4⟩
def PWM_PAIRCFG_IE : Fld := ⟨3, 3⟩
def PWM_PAIRCFG_MPMODE : Fld := ⟨1, 1⟩
def PWM_PAIRCFG_COMP : Fld := ⟨0, 0⟩
def PWM_DT_DTF : Fld := ⟨31, 16⟩
def PWM_DT_DTR : Fld := ⟨15, 0⟩
def PWM_MINP_MINP : Fld := ⟨15, 0⟩
def PWM_TRIPCFG_FILT3 : Fld := ⟨31, 24⟩
def PWM_TRIPCFG_FILT2 : Fld := ⟨23, 16⟩
def PWM_TRIPCFG_FILT1 : Fld := ⟨15, 8⟩
def PWM_TRIPCFG_FILT0 : Fld := ⟨7, 0⟩
def PWM_TRIPPOL_POL : Fld := ⟨3, 0⟩
def PWM_TRIPSTAT_HALF : Fld := ⟨21, 20⟩
def PWM_TRIPSTAT_IN : Fld := ⟨19, 16⟩
def PWM_TRIPSTAT_TRIP : Fld := ⟨15, 0⟩
def PWM_TRIPCLR_CLR : Fld := ⟨15, 0⟩
def PWM_TRIPFLAG_CLR_DENIED : Fld := ⟨15, 0⟩
def PWM_DLSTAT_CALS : Fld := ⟨31, 16⟩
def PWM_DLSTAT_DL_ERR : Fld := ⟨8, 8⟩
def PWM_DLSTAT_CODE : Fld := ⟨5, 0⟩
def ADC_CFG_LEN : Fld := ⟨13, 8⟩
def ADC_CFG_EN : Fld := ⟨0, 0⟩
def ADC_PLCFG_ENT1 : Fld := ⟨28, 24⟩
def ADC_PLCFG_ENT0 : Fld := ⟨20, 16⟩
def ADC_PLCFG_PL_CH : Fld := ⟨13, 8⟩
def ADC_PLCFG_PL_N : Fld := ⟨7, 0⟩
def ADC_PLTOL_TOL : Fld := ⟨11, 0⟩
def ADC_KNK_GAIN : Fld := ⟨6, 4⟩
def ADC_KNK_EN : Fld := ⟨0, 0⟩
def ADC_STAT_PASSES : Fld := ⟨31, 16⟩
def ADC_STAT_ABORTS : Fld := ⟨15, 8⟩
def ADC_STAT_URG : Fld := ⟨1, 1⟩
def ADC_STAT_RUN : Fld := ⟨0, 0⟩
def ADC_PLSTAT_PL_ERR : Fld := ⟨31, 31⟩
def ADC_PLSTAT_CODE1 : Fld := ⟨27, 16⟩
def ADC_PLSTAT_CODE0 : Fld := ⟨11, 0⟩
def ADC_URGFLAG_OVR : Fld := ⟨31, 16⟩
def ADC_URGFLAG_LATE : Fld := ⟨15, 0⟩
def ADC_URGCNCL_CNCL : Fld := ⟨15, 0⟩
def ADC_SEQ_SXT : Fld := ⟨11, 8⟩
def ADC_SEQ_INPUT : Fld := ⟨5, 0⟩
def ADC_URG_CONV : Fld := ⟨16, 16⟩
def ADC_URG_SXT : Fld := ⟨11, 8⟩
def ADC_URG_INPUT : Fld := ⟨5, 0⟩
def ACC_CFG_SRCK : Fld := ⟨17, 16⟩
def ACC_CFG_SRCI : Fld := ⟨12, 8⟩
def ACC_CFG_WMODE : Fld := ⟨7, 6⟩
def ACC_CFG_PRE : Fld := ⟨5, 4⟩
def ACC_CFG_MREQ : Fld := ⟨2, 2⟩
def ACC_CFG_IE : Fld := ⟨1, 1⟩
def ACC_CFG_EN : Fld := ⟨0, 0⟩
def ACC_PARAM_NSAMP : Fld := ⟨31, 16⟩
def ACC_PARAM_OFS : Fld := ⟨11, 0⟩
def ACC_STAT_CNT : Fld := ⟨31, 8⟩
def ACC_STAT_STRAY : Fld := ⟨3, 3⟩
def ACC_STAT_OVR : Fld := ⟨2, 2⟩
def ACC_STAT_NEW : Fld := ⟨1, 1⟩
def ACC_STAT_OPEN : Fld := ⟨0, 0⟩
def ACC_RCNT_INCOMPLETE : Fld := ⟨31, 31⟩
def ACC_RCNT_SAT : Fld := ⟨30, 30⟩
def ACC_RCNT_DISTURB : Fld := ⟨29, 29⟩
def ACC_RCNT_COUNT : Fld := ⟨23, 0⟩
def SNT_CFG_FILT : Fld := ⟨31, 24⟩
def SNT_CFG_SERIAL : Fld := ⟨21, 20⟩
def SNT_CFG_CALCHK : Fld := ⟨19, 18⟩
def SNT_CFG_PAUSE : Fld := ⟨17, 16⟩
def SNT_CFG_CRCMODE : Fld := ⟨15, 15⟩
def SNT_CFG_MREQ : Fld := ⟨14, 14⟩
def SNT_CFG_IE : Fld := ⟨13, 13⟩
def SNT_CFG_EN : Fld := ⟨12, 12⟩
def SNT_CFG_NOMTICK : Fld := ⟨9, 0⟩
def SNT_FLEN_FLEN : Fld := ⟨10, 0⟩
def SNT_DATA_STATUS : Fld := ⟨27, 24⟩
def SNT_DATA_DATA : Fld := ⟨23, 0⟩
def SNT_CAL_CAL : Fld := ⟨20, 0⟩
def SNT_STAT_SER_ABT : Fld := ⟨10, 10⟩
def SNT_STAT_SER_CRC : Fld := ⟨9, 9⟩
def SNT_STAT_PAUSE_ERR : Fld := ⟨8, 8⟩
def SNT_STAT_CRC_ERR : Fld := ⟨7, 7⟩
def SNT_STAT_NIB_ERR : Fld := ⟨6, 6⟩
def SNT_STAT_CAL_ERR : Fld := ⟨5, 5⟩
def SNT_STAT_SER_OVR : Fld := ⟨4, 4⟩
def SNT_STAT_SER_NEW : Fld := ⟨3, 3⟩
def SNT_STAT_SYNC : Fld := ⟨2, 2⟩
def SNT_STAT_OVR : Fld := ⟨1, 1⟩
def SNT_STAT_NEW : Fld := ⟨0, 0⟩
def SNT_CNT_ERRORS : Fld := ⟨31, 16⟩
def SNT_CNT_FRAMES : Fld := ⟨15, 0⟩
def SNT_SER_FMT : Fld := ⟨31, 30⟩
def SNT_SER_ID : Fld := ⟨23, 16⟩
def SNT_SER_DATA : Fld := ⟨15, 0⟩
def COLT_CFG_DIV : Fld := ⟨31, 16⟩
def COLT_CFG_LINK : Fld := ⟨15, 14⟩
def COLT_CFG_ENTRY : Fld := ⟨13, 8⟩
def COLT_CFG_DOUT : Fld := ⟨7, 4⟩
def COLT_CFG_DIN : Fld := ⟨3, 0⟩
def COLT_MODE_AUTO : Fld := ⟨8, 8⟩
def COLT_MODE_PACE : Fld := ⟨7, 6⟩
def COLT_MODE_PSRC : Fld := ⟨5, 5⟩
def COLT_MODE_PIDX : Fld := ⟨4, 0⟩
def COLT_CTRL_CMD : Fld := ⟨1, 0⟩
def COLT_FIFOCFG_IE : Fld := ⟨10, 10⟩
def COLT_FIFOCFG_RXREQ : Fld := ⟨9, 9⟩
def COLT_FIFOCFG_TXREQ : Fld := ⟨8, 8⟩
def COLT_FIFOCFG_RXWM : Fld := ⟨6, 4⟩
def COLT_FIFOCFG_TXWM : Fld := ⟨2, 0⟩
def COLT_RELOAD_CBR : Fld := ⟨31, 16⟩
def COLT_RELOAD_CAR : Fld := ⟨15, 0⟩
def COLT_CNT_CB : Fld := ⟨31, 16⟩
def COLT_CNT_CA : Fld := ⟨15, 0⟩
def COLT_STAT_STATE : Fld := ⟨31, 29⟩
def COLT_STAT_INJ_PEND : Fld := ⟨28, 28⟩
def COLT_STAT_INJ_EXEC : Fld := ⟨27, 27⟩
def COLT_STAT_TRIGP : Fld := ⟨26, 26⟩
def COLT_STAT_PACEP : Fld := ⟨25, 25⟩
def COLT_STAT_TXLVL : Fld := ⟨23, 21⟩
def COLT_STAT_RXLVL : Fld := ⟨20, 18⟩
def COLT_STAT_OUTCNT : Fld := ⟨17, 12⟩
def COLT_STAT_INCNT : Fld := ⟨11, 6⟩
def COLT_STAT_PC : Fld := ⟨5, 0⟩
def COLT_FLAG_STOPC : Fld := ⟨14, 12⟩
def COLT_FLAG_BADWORD : Fld := ⟨9, 9⟩
def COLT_FLAG_PACE_OVR : Fld := ⟨8, 8⟩
def COLT_FLAG_TRIG_OVR : Fld := ⟨7, 7⟩
def COLT_FLAG_INJ_DENIED : Fld := ⟨6, 6⟩
def COLT_FLAG_PINERR : Fld := ⟨5, 5⟩
def COLT_FLAG_RXUND : Fld := ⟨4, 4⟩
def COLT_FLAG_TXOVR : Fld := ⟨3, 3⟩
def COLT_FLAG_RXOVR : Fld := ⟨2, 2⟩
def COLT_FLAG_TXUND : Fld := ⟨1, 1⟩
def COLT_FLAG_SIRQ : Fld := ⟨0, 0⟩
def COLT_PINLVL_LVL : Fld := ⟨31, 16⟩
def COLT_PINLVL_HIZ : Fld := ⟨15, 0⟩
def COLT_TRIG_TRIG : Fld := ⟨7, 0⟩
def COLT_GFLAG_LFLAG : Fld := ⟨19, 4⟩
def COLT_GFLAG_CFLAG : Fld := ⟨3, 0⟩
def COLT_GFLAG_SET_LFLAG : Fld := ⟨19, 4⟩
def COLT_GFLAG_SET_CFLAG : Fld := ⟨3, 0⟩
def COLT_GFLAG_CLR_LFLAG : Fld := ⟨19, 4⟩
def COLT_GFLAG_CLR_CFLAG : Fld := ⟨3, 0⟩
def COLT_SUM_FLAGGED : Fld := ⟨15, 8⟩
def COLT_SUM_RUNNING : Fld := ⟨7, 0⟩
def MULE_CFG_PRIO : Fld := ⟨17, 16⟩
def MULE_CFG_SRC : Fld := ⟨13, 8⟩
def MULE_CFG_IE : Fld := ⟨1, 1⟩
def MULE_CFG_EN : Fld := ⟨0, 0⟩
def MULE_CMD_CMD : Fld := ⟨1, 0⟩
def MULE_STAT_BUFCNT : Fld := ⟨31, 24⟩
def MULE_STAT_PEND : Fld := ⟨15, 12⟩
def MULE_STAT_STOP_PEND : Fld := ⟨9, 9⟩
def MULE_STAT_VALID : Fld := ⟨8, 8⟩
def MULE_STAT_STATE : Fld := ⟨2, 0⟩
def MULE_FLAG_BADC : Fld := ⟨10, 8⟩
def MULE_FLAG_SHW_DENIED : Fld := ⟨3, 3⟩
def MULE_FLAG_REQ_OVR : Fld := ⟨2, 2⟩
def MULE_FLAG_BAD : Fld := ⟨1, 1⟩
def MULE_FLAG_DONE : Fld := ⟨0, 0⟩
def MULE_SLEN_LEN : Fld := ⟨19, 0⟩
def MULE_SCTL_REPEAT : Fld := ⟨18, 18⟩
def MULE_SCTL_DRSZ : Fld := ⟨17, 14⟩
def MULE_SCTL_SRSZ : Fld := ⟨13, 10⟩
def MULE_SCTL_DMODE : Fld := ⟨9, 8⟩
def MULE_SCTL_SMODE : Fld := ⟨7, 6⟩
def MULE_SCTL_SWAP : Fld := ⟨5, 4⟩
def MULE_SCTL_BEATS : Fld := ⟨3, 0⟩
def MULE_SETS_BADSETS : Fld := ⟨31, 16⟩
def MULE_SETS_DONESETS : Fld := ⟨15, 0⟩
def MULE_SWREQ_REQ : Fld := ⟨15, 0⟩
def MULE_SUM_ACTIVE : Fld := ⟨31, 16⟩
def MULE_SUM_FLAGGED : Fld := ⟨15, 0⟩
def IRQ_TGTCTL_SLEEP : Fld := ⟨1, 1⟩
def IRQ_TGTCTL_MASK : Fld := ⟨0, 0⟩
def IRQ_TGTSTAT_SEQ : Fld := ⟨31, 16⟩
def IRQ_TGTSTAT_QLVL : Fld := ⟨11, 8⟩
def IRQ_TGTSTAT_ACTIVE : Fld := ⟨7, 4⟩
def IRQ_TGTSTAT_CMPL_ERR : Fld := ⟨3, 3⟩
def IRQ_TGTSTAT_WAKE : Fld := ⟨2, 2⟩
def IRQ_TGTSTAT_ELIG : Fld := ⟨1, 1⟩
def IRQ_TGTSTAT_ASSERTED : Fld := ⟨0, 0⟩
def IRQ_COMPLETE_SRC : Fld := ⟨7, 0⟩
def IRQ_SRCCFG_TGT : Fld := ⟨4, 2⟩
def IRQ_SRCCFG_PRIO : Fld := ⟨1, 0⟩
def LNK_CFG_MPORT : Fld := ⟨19, 16⟩
def LNK_CFG_STAT_PER : Fld := ⟨15, 8⟩
def LNK_CFG_DRES : Fld := ⟨3, 2⟩
def LNK_CFG_RXTERM : Fld := ⟨0, 0⟩
def LNK_STAT_RXEXP : Fld := ⟨31, 24⟩
def LNK_STAT_TXSEQ : Fld := ⟨23, 16⟩
def LNK_STAT_TXOUT : Fld := ⟨15, 12⟩
def LNK_STAT_RXQ : Fld := ⟨11, 8⟩
def LNK_STAT_HBV : Fld := ⟨4, 4⟩
def LNK_STAT_HL : Fld := ⟨3, 3⟩
def LNK_STAT_STATE : Fld := ⟨1, 0⟩
def LNK_FLAG_STR_OVR : Fld := ⟨11, 11⟩
def LNK_FLAG_HL_END : Fld := ⟨10, 10⟩
def LNK_FLAG_HB_LATE : Fld := ⟨9, 9⟩
def LNK_FLAG_HB_EARLY : Fld := ⟨8, 8⟩
def LNK_FLAG_RETX : Fld := ⟨7, 7⟩
def LNK_FLAG_NAK_RX : Fld := ⟨6, 6⟩
def LNK_FLAG_FMT_ERR : Fld := ⟨5, 5⟩
def LNK_FLAG_SEQ_ERR : Fld := ⟨4, 4⟩
def LNK_FLAG_CRC_ERR : Fld := ⟨3, 3⟩
def LNK_FLAG_CODE_ERR : Fld := ⟨2, 2⟩
def LNK_FLAG_UP : Fld := ⟨1, 1⟩
def LNK_FLAG_DOWN : Fld := ⟨0, 0⟩
def LNK_CNT_RETXCNT : Fld := ⟨31, 16⟩
def LNK_CNT_ERRCNT : Fld := ⟨15, 0⟩
def LNK_HBCFG_HB_MAX : Fld := ⟨31, 16⟩
def LNK_HBCFG_HB_MIN : Fld := ⟨15, 0⟩
def LNK_HLCFG_HBPORT : Fld := ⟨25, 24⟩
def LNK_HLCFG_CUT : Fld := ⟨22, 22⟩
def LNK_HLCFG_HB_EN : Fld := ⟨20, 20⟩
def LNK_HLCFG_HL_CYC : Fld := ⟨19, 16⟩
def LNK_HLCFG_HL_MS : Fld := ⟨9, 0⟩
def LNK_STRCFG_RSZ : Fld := ⟨31, 28⟩
def LNK_STRCFG_SW : Fld := ⟨24, 24⟩
def LNK_STRCFG_MCH : Fld := ⟨23, 20⟩
def LNK_STRCFG_BASE : Fld := ⟨17, 9⟩
def LNK_STRCFG_FLUSH : Fld := ⟨7, 1⟩
def LNK_STRCFG_EN : Fld := ⟨0, 0⟩
def LNK_STRSTAT_OVR : Fld := ⟨31, 31⟩
def LNK_STRSTAT_UNSENT : Fld := ⟨17, 0⟩
def LNK_STRADD_ADD : Fld := ⟨17, 0⟩
def SPH_CFG_EN : Fld := ⟨0, 0⟩
def SPH_STAT_ERRCNT : Fld := ⟨31, 16⟩
def SPH_STAT_FCNT : Fld := ⟨15, 8⟩
def SPH_STAT_BUSY : Fld := ⟨0, 0⟩
def SPH_FLAG_EARLY : Fld := ⟨3, 3⟩
def SPH_FLAG_FRAME : Fld := ⟨2, 2⟩
def SPH_FLAG_FMT_ERR : Fld := ⟨1, 1⟩
def SPH_FLAG_CRC_ERR : Fld := ⟨0, 0⟩
def NVL_STAT_DENS : Fld := ⟨31, 24⟩
def NVL_STAT_DUMMY : Fld := ⟨23, 16⟩
def NVL_STAT_ADDR4 : Fld := ⟨3, 3⟩
def NVL_STAT_QREAD : Fld := ⟨2, 2⟩
def NVL_STAT_SFDP : Fld := ⟨1, 1⟩
def NVL_STAT_DRIVE : Fld := ⟨0, 0⟩
def NVL_PCTL_NRD : Fld := ⟨31, 26⟩
def NVL_PCTL_NWR : Fld := ⟨25, 20⟩
def NVL_PCTL_DUMMY : Fld := ⟨19, 16⟩
def NVL_PCTL_ADDRB : Fld := ⟨13, 12⟩
def NVL_PCTL_GO : Fld := ⟨8, 8⟩
def NVL_PCTL_OPCODE : Fld := ⟨7, 0⟩
def NVL_PSTAT_DENIED : Fld := ⟨2, 2⟩
def NVL_PSTAT_DONE : Fld := ⟨1, 1⟩
def NVL_PSTAT_BUSY : Fld := ⟨0, 0⟩
def SAF_STAT_LASTC : Fld := ⟨19, 16⟩
def SAF_STAT_LASTS : Fld := ⟨15, 14⟩
def SAF_STAT_SENT_LATCH : Fld := ⟨5, 5⟩
def SAF_STAT_SAFEREQ : Fld := ⟨4, 4⟩
def SAF_STAT_FAULTN : Fld := ⟨3, 3⟩
def SAF_STAT_RECOV_PERM : Fld := ⟨1, 1⟩
def SAF_STAT_DEV_SAFE : Fld := ⟨0, 0⟩
def SAF_FLAG_CLASS : Fld := ⟨12, 0⟩
def SAF_CFG_TLIM : Fld := ⟨31, 24⟩
def SAF_CFG_HOLD : Fld := ⟨23, 16⟩
def SAF_CFG_FNHALF : Fld := ⟨2, 2⟩
def SAF_CFG_AUTO : Fld := ⟨0, 0⟩
def SAF_FIRST_VALID : Fld := ⟨31, 31⟩
def SAF_FIRST_CLASS : Fld := ⟨19, 16⟩
def SAF_FIRST_SCOPE : Fld := ⟨15, 14⟩
def SAF_MON_TOVER : Fld := ⟨11, 10⟩
def SAF_MON_VWIN : Fld := ⟨9, 4⟩
def SAF_MON_CLK : Fld := ⟨3, 0⟩
def SAF_CNT_DEV : Fld := ⟨31, 16⟩
def SAF_CNT_HALF : Fld := ⟨15, 0⟩
def SAF_TEST_KEY : Fld := ⟨31, 16⟩
def SAF_TEST_SEL : Fld := ⟨4, 0⟩
def SAF_TESTSTAT_BUSY : Fld := ⟨31, 31⟩
def SAF_TESTSTAT_TEST_DENIED : Fld := ⟨30, 30⟩
def SAF_TESTSTAT_PASS : Fld := ⟨12, 8⟩
def SAF_TESTSTAT_DONE : Fld := ⟨4, 0⟩
def GDR_CFG_DTOL : Fld := ⟨31, 24⟩
def GDR_CFG_GLAG : Fld := ⟨19, 16⟩
def GDR_CFG_SPDK : Fld := ⟨15, 8⟩
def GDR_CFG_PWIN : Fld := ⟨7, 0⟩
def GDR_STAT_INDEX : Fld := ⟨24, 16⟩
def GDR_STAT_NOPEN : Fld := ⟨15, 8⟩
def GDR_STAT_PHK : Fld := ⟨2, 2⟩
def GDR_STAT_GSYNC : Fld := ⟨1, 1⟩
def GDR_STAT_LIVE : Fld := ⟨0, 0⟩
def GDR_FLAG_LANE_SIL : Fld := ⟨6, 6⟩
def GDR_FLAG_SIG_ERR : Fld := ⟨5, 5⟩
def GDR_FLAG_LAG : Fld := ⟨4, 4⟩
def GDR_FLAG_IDX_MIS : Fld := ⟨3, 3⟩
def GDR_FLAG_DURMAX : Fld := ⟨2, 2⟩
def GDR_FLAG_REF_END : Fld := ⟨1, 1⟩
def GDR_FLAG_REF_START : Fld := ⟨0, 0⟩
def GDR_VOTE_KIND : Fld := ⟨21, 20⟩
def GDR_VOTE_WHY : Fld := ⟨19, 16⟩
def GDR_VOTE_OUT : Fld := ⟨15, 8⟩
def GDR_CNT_REFUSED : Fld := ⟨31, 16⟩
def GDR_CNT_PERMITS : Fld := ⟨15, 0⟩
def XLK_CFG_GRACE : Fld := ⟨15, 0⟩
def XLK_STAT_MARKS : Fld := ⟨31, 16⟩
def XLK_STAT_GRACE_OUT : Fld := ⟨2, 2⟩
def XLK_STAT_LOST : Fld := ⟨1, 1⟩
def XLK_STAT_UP : Fld := ⟨0, 0⟩
def XLK_FLAG_RET : Fld := ⟨1, 1⟩
def XLK_FLAG_LOST : Fld := ⟨0, 0⟩
def SAF_ECC_UE : Fld := ⟨31, 16⟩
def SAF_ECC_CE : Fld := ⟨15, 0⟩
def GDR_ANGLE_ANGLE : Fld := ⟨23, 0⟩
def ACC_BPF0_A1 : Fld := ⟨31, 16⟩
def ACC_BPF0_B0 : Fld := ⟨15, 0⟩
def ACC_BPF1_A2 : Fld := ⟨15, 0⟩

end F

/-- One register row of a block: its offset in the device map or in a half's window, the strides and
counts of its indices, its reset word, and the bits of each access code of R7 (all other bits RO). -/
structure RegRow where
  off : Nat
  dims : List (Nat × Nat)
  reset : Nat
  rw : Nat
  w1c : Nat
  w1s : Nat
  wo : Nat
  tx : Nat
  deriving DecidableEq, Repr

/-- The register rows of SYS. -/
def rowsSys : List RegRow := [
  ⟨0x0, [], 0x5120214C, 0x0, 0x0, 0x0, 0x0, 0x0⟩,
  ⟨0x4, [], 0x771, 0x0, 0x0, 0x0, 0x0, 0x0⟩,
  ⟨0x8, [], 0x0, 0x0, 0x0, 0x0, 0x0, 0x0⟩,
  ⟨0xC, [], 0x0, 0x0, 0x0, 0x0, 0x0, 0x0⟩,
  ⟨0x10, [], 0x0, 0x0, 0x0, 0x0, 0x0, 0x0⟩,
  ⟨0x14, [], 0x1, 0x0, 0x1F, 0x0, 0x0, 0x0⟩,
  ⟨0x18, [], 0x8, 0x0, 0xF, 0x0, 0x0, 0x0⟩,
  ⟨0x1C, [], 0x0, 0x0, 0x3, 0x0, 0x0, 0x0⟩,
  ⟨0x20, [], 0x0, 0x0, 0x0, 0x0, 0xFFFFFFFF, 0x0⟩,
  ⟨0x24, [], 0x0, 0x0, 0x0, 0x0, 0xFFFFFFFF, 0x0⟩,
  ⟨0x28, [], 0x0, 0x0, 0x0, 0x0, 0x0, 0x1FFF1FFF⟩,
  ⟨0x2C, [], 0x0, 0x0, 0x0, 0x0, 0x0, 0x0⟩,
  ⟨0x30, [], 0x0, 0x0, 0x0, 0x0, 0x0, 0x0⟩]

/-- The register rows of IMG. -/
def rowsImg : List RegRow := [
  ⟨0x2000, [], 0x0, 0x0, 0x0, 0x0, 0x0, 0x0⟩,
  ⟨0x2004, [], 0x0, 0x0, 0x0, 0x0, 0x0, 0x0⟩,
  ⟨0x2008, [], 0x0, 0x0, 0x0, 0x0, 0x0, 0x0⟩,
  ⟨0x2010, [], 0x0, 0x0, 0x0, 0x0, 0x0, 0x0⟩,
  ⟨0x2018, [], 0x0, 0x0, 0x0, 0x0, 0x0, 0x0⟩,
  ⟨0x2014, [], 0x0, 0x0, 0x0, 0x0, 0x0, 0x0⟩,
  ⟨0x201C, [], 0x0, 0x0, 0x0, 0x0, 0x0, 0x0⟩,
  ⟨0x2040, [(4, 4)], 0x0, 0x0, 0x0, 0x0, 0xFFFFFFFF, 0x0⟩,
  ⟨0x2050, [], 0x0, 0x0, 0x0, 0x0, 0xFFFFFFFF, 0x0⟩,
  ⟨0x2054, [], 0x0, 0x0, 0x0, 0x0, 0x0, 0x0⟩,
  ⟨0x2058, [], 0x0, 0x0, 0x1, 0x0, 0x0, 0x0⟩,
  ⟨0x2100, [], 0x0, 0x0, 0x0, 0x0, 0xFFFFFFFF, 0x0⟩,
  ⟨0x2104, [], 0x0, 0xFFFFFFFF, 0x0, 0x0, 0x0, 0x0⟩,
  ⟨0x2108, [], 0x0, 0xFFFFFFFF, 0x0, 0x0, 0x0, 0x0⟩,
  ⟨0x210C, [], 0x0, 0x0, 0x0, 0x0, 0x0, 0x0⟩,
  ⟨0x2110, [], 0x0, 0x0, 0x0, 0x0, 0x0, 0x0⟩,
  ⟨0x2114, [], 0x0, 0x0, 0x0, 0x0, 0x0, 0x0⟩,
  ⟨0x2118, [], 0x0, 0x0, 0x0, 0x0, 0x0, 0x0⟩,
  ⟨0x2200, [(4, 128)], 0x0, 0xFFFFFFFF, 0x0, 0x0, 0x0, 0x0⟩]

/-- The register rows of TRIM. -/
def rowsTrim : List RegRow := [
  ⟨0x1000, [(4, 64)], 0x0, 0x0, 0x0, 0x0, 0x0, 0x0⟩,
  ⟨0x1100, [(4, 64)], 0x0, 0xFFFFFFFF, 0x0, 0x0, 0x0, 0x0⟩,
  ⟨0x1200, [], 0x0, 0x0, 0x0, 0x0, 0xFFFFFFFF, 0x0⟩,
  ⟨0x1204, [], 0x0, 0x0, 0x2, 0x0, 0x0, 0x0⟩]

/-- The register rows of SNS. -/
def rowsSns : List RegRow := [
  ⟨0x0, [], 0x0, 0x0, 0x0, 0x0, 0x0, 0xFFFF73⟩,
  ⟨0x4, [], 0x1E79E79E, 0x0, 0x0, 0x0, 0x0, 0x3FFFFFFF⟩,
  ⟨0x8, [], 0x0, 0x0, 0x0, 0x0, 0x0, 0xFFFF⟩,
  ⟨0xC, [], 0x54B3C, 0x0, 0x0, 0x0, 0x0, 0x3FFFFF⟩,
  ⟨0x10, [], 0x0, 0x0, 0x0, 0x0, 0x0, 0xFFFF⟩,
  ⟨0x18, [], 0x0, 0x0, 0x0, 0x0, 0x0, 0x1⟩,
  ⟨0x20, [], 0x1000, 0x0, 0xF00, 0x0, 0x0, 0x0⟩,
  ⟨0x24, [], 0x0, 0x0, 0x0, 0x0, 0x0, 0x0⟩,
  ⟨0x28, [], 0x0, 0x0, 0x0, 0x0, 0xFFFFFFFF, 0x0⟩,
  ⟨0x2C, [], 0x0, 0x0, 0x0, 0x0, 0x0, 0x0⟩,
  ⟨0x40, [(4, 6)], 0x0, 0x0, 0x0, 0x0, 0x0, 0x0⟩,
  ⟨0x60, [(4, 6)], 0x0, 0x0, 0x2, 0x0, 0x0, 0x0⟩,
  ⟨0x100, [(32, 8)], 0x0, 0x1, 0x0, 0x0, 0x0, 0x3F30⟩,
  ⟨0x104, [(32, 8)], 0x0, 0x0, 0x0, 0x0, 0x0, 0xFFFFFF⟩,
  ⟨0x108, [(32, 8)], 0x0, 0x0, 0x0, 0x0, 0x0, 0xFFFFFF⟩,
  ⟨0x10C, [(32, 8)], 0x0, 0x0, 0x0, 0x0, 0x0, 0x0⟩,
  ⟨0x110, [(32, 8)], 0x0, 0x0, 0x80000000, 0x0, 0x0, 0x0⟩,
  ⟨0x200, [(16, 2)], 0x0, 0x1, 0x0, 0x0, 0x0, 0x1FFFF06⟩,
  ⟨0x204, [(16, 2)], 0x0, 0x0, 0x0, 0x0, 0x0, 0x0⟩]

/-- The register rows of WHL. -/
def rowsWhl : List RegRow := [
  ⟨0x1000, [], 0x0, 0x0, 0x0, 0x0, 0x0, 0x103FF⟩,
  ⟨0x1004, [], 0x2A2A2A2A, 0x0, 0x0, 0x0, 0x0, 0xFFFFFFFF⟩,
  ⟨0x1008, [], 0x213000, 0x0, 0x0, 0x0, 0x0, 0x73F1FF⟩,
  ⟨0x100C, [], 0x1400410, 0x0, 0x0, 0x0, 0x0, 0xFFF3FFF⟩,
  ⟨0x1010, [], 0x0, 0x0, 0x0, 0x0, 0x0, 0x3F3F3F3F⟩,
  ⟨0x1014, [], 0x0, 0x0, 0x0, 0x0, 0xFFFFFFFF, 0x0⟩,
  ⟨0x1020, [], 0x0, 0x0, 0xE0000000, 0x0, 0x0, 0x0⟩,
  ⟨0x1024, [], 0x0, 0x0, 0x0, 0x0, 0x0, 0x0⟩,
  ⟨0x1028, [], 0x0, 0x0, 0x0, 0x0, 0x0, 0x0⟩,
  ⟨0x102C, [], 0x0, 0x0, 0x0, 0x0, 0x0, 0x0⟩,
  ⟨0x1030, [], 0x0, 0x0, 0x0, 0x0, 0x0, 0x0⟩,
  ⟨0x1034, [], 0x0, 0x0, 0x0, 0x0, 0x0, 0x0⟩,
  ⟨0x1038, [], 0x0, 0x0, 0x0, 0x0, 0x0, 0x0⟩,
  ⟨0x103C, [], 0x0, 0x0, 0x0, 0x0, 0xFFFFFFFF, 0x0⟩,
  ⟨0x1200, [(128, 4), (4, 32)], 0x0, 0x0, 0x0, 0x0, 0x0, 0x1FFFFFF⟩,
  ⟨0x1800, [(4, 512)], 0x0, 0x0, 0x0, 0x0, 0x0, 0xFFFFFFF⟩]

/-- The register rows of ANG. -/
def rowsAng : List RegRow := [
  ⟨0x2000, [], 0x0, 0x0, 0x0, 0x0, 0x0, 0x0⟩,
  ⟨0x2004, [], 0x400, 0x0, 0x0, 0x0, 0x0, 0x17F00⟩,
  ⟨0x2008, [], 0x0, 0x0, 0xF0000000, 0x0, 0x0, 0x0⟩,
  ⟨0x200C, [], 0x0, 0x0, 0x0, 0x0, 0x0, 0x0⟩,
  ⟨0x2010, [], 0x0, 0x0, 0x0, 0x0, 0x0, 0x0⟩,
  ⟨0x2014, [], 0x0, 0x0, 0x0, 0x0, 0x0, 0x0⟩,
  ⟨0x2018, [], 0x0, 0x0, 0x0, 0x0, 0x0, 0x0⟩,
  ⟨0x201C, [], 0x0, 0x0, 0x0, 0x0, 0x0, 0x0⟩,
  ⟨0x2020, [], 0x0, 0x0, 0x0, 0x0, 0x0, 0x0⟩,
  ⟨0x2024, [], 0x0, 0x0, 0x0, 0x0, 0x0, 0x0⟩,
  ⟨0x2028, [], 0x0, 0x0, 0x0, 0x0, 0x0, 0x0⟩,
  ⟨0x202C, [], 0x0, 0x0, 0x0, 0x0, 0x0, 0x0⟩,
  ⟨0x2030, [], 0x0, 0x0, 0x0, 0x0, 0x0, 0x0⟩,
  ⟨0x2034, [], 0x1F40028, 0x0, 0x0, 0x0, 0x0, 0xFFF03FF⟩,
  ⟨0x2040, [(8, 8)], 0x0, 0x0, 0x0, 0x0, 0x0, 0xFFFF⟩,
  ⟨0x2044, [(8, 8)], 0x0, 0x0, 0x0, 0x0, 0x0, 0xFFFFFFFF⟩,
  ⟨0x20A0, [], 0x0, 0x3, 0x0, 0x0, 0x300, 0x0⟩,
  ⟨0x20A4, [], 0x56, 0x0, 0x0, 0x0, 0x0, 0xFF⟩,
  ⟨0x20A8, [], 0xBB80258, 0x0, 0x0, 0x0, 0x0, 0xFFFFFFFF⟩,
  ⟨0x20AC, [], 0xBB80190, 0x0, 0x0, 0x0, 0x0, 0xFFFFFFFF⟩,
  ⟨0x20B0, [], 0xC8, 0x0, 0x0, 0x0, 0x0, 0xFFFF⟩,
  ⟨0x20B4, [], 0x0, 0x0, 0xC, 0x0, 0x0, 0x0⟩,
  ⟨0x20B8, [], 0x0, 0x0, 0x0, 0x0, 0x0, 0x0⟩,
  ⟨0x20C0, [], 0x0, 0x0, 0x0, 0x0, 0x0, 0x3FFFFFFF⟩,
  ⟨0x20C4, [], 0x0, 0x0, 0x0, 0x0, 0x0, 0x0⟩,
  ⟨0x20D0, [], 0x6, 0x30F, 0x0, 0x0, 0x0, 0x0⟩,
  ⟨0x20D4, [], 0x0, 0x0, 0x0, 0x0, 0x0, 0x0⟩,
  ⟨0x20E0, [], 0x0, 0x0, 0x0, 0x0, 0x0, 0x0⟩,
  ⟨0x20E4, [], 0x0, 0x0, 0x0, 0x0, 0x0, 0x0⟩,
  ⟨0x20E8, [], 0x0, 0x0, 0x0, 0x0, 0x0, 0x0⟩,
  ⟨0x2800, [(8, 64)], 0x0, 0x0, 0x0, 0x0, 0x0, 0x0⟩,
  ⟨0x2804, [(8, 64)], 0x0, 0x0, 0x0, 0x0, 0x0, 0x0⟩]

/-- The register rows of EVC. -/
def rowsEvc : List RegRow := [
  ⟨0x10000, [(32, 256)], 0xFF0000, 0x0, 0x0, 0x0, 0x0, 0x3FFFFFF⟩,
  ⟨0x10004, [(32, 256)], 0x0, 0x0, 0x0, 0x0, 0x0, 0xFFFFFF⟩,
  ⟨0x10008, [(32, 256)], 0x0, 0x0, 0x0, 0x0, 0x0, 0xFFFFFFFF⟩,
  ⟨0x1000C, [(32, 256)], 0x0, 0x0, 0x0, 0x0, 0x0, 0xFFFFFFFF⟩,
  ⟨0x10010, [(32, 256)], 0xC80080, 0x0, 0x0, 0x0, 0x0, 0xFFF0FFF⟩,
  ⟨0x10014, [(32, 256)], 0x0, 0x0, 0x0, 0x0, 0x0, 0xFF0F⟩,
  ⟨0x10018, [(32, 256)], 0x0, 0x0, 0x0, 0x0, 0x0, 0x0⟩,
  ⟨0x1001C, [(32, 256)], 0x0, 0x0, 0x0, 0x0, 0x0, 0x0⟩,
  ⟨0x12000, [(4, 16)], 0x0, 0x0, 0x0, 0xFFFF, 0x0, 0x0⟩,
  ⟨0x12040, [(4, 16)], 0x0, 0x0, 0x0, 0x0, 0xFFFFFFFF, 0x0⟩,
  ⟨0x12080, [(4, 16)], 0x0, 0x0, 0x0, 0x0, 0x0, 0x0⟩,
  ⟨0x120C0, [], 0x0, 0x0, 0x0, 0x0, 0xFFFFFFFF, 0x0⟩,
  ⟨0x120C4, [], 0x0, 0x0, 0x0, 0x0, 0x0, 0x0⟩]

/-- The register rows of DMD. -/
def rowsDmd : List RegRow := [
  ⟨0x14000, [(64, 128)], 0x0, 0xFFFFFF, 0x0, 0x0, 0x0, 0x0⟩,
  ⟨0x14020, [(64, 128)], 0x0, 0x0, 0x0, 0x0, 0x0, 0x0⟩,
  ⟨0x14004, [(64, 128)], 0x0, 0xFFFFFFFF, 0x0, 0x0, 0x0, 0x0⟩,
  ⟨0x14024, [(64, 128)], 0x0, 0x0, 0x0, 0x0, 0x0, 0x0⟩,
  ⟨0x14008, [(64, 128)], 0x0, 0xFFFFFFFF, 0x0, 0x0, 0x0, 0x0⟩,
  ⟨0x14028, [(64, 128)], 0x0, 0x0, 0x0, 0x0, 0x0, 0x0⟩,
  ⟨0x1400C, [(64, 128)], 0x0, 0xFFFF010F, 0x0, 0x0, 0x0, 0x0⟩,
  ⟨0x1402C, [(64, 128)], 0x0, 0x0, 0x0, 0x0, 0x0, 0x0⟩,
  ⟨0x14010, [(64, 128)], 0x0, 0xFFFFFFFF, 0x0, 0x0, 0x0, 0x0⟩,
  ⟨0x14014, [(64, 128)], 0x0, 0xFFFFFFFF, 0x0, 0x0, 0x0, 0x0⟩,
  ⟨0x14030, [(64, 128)], 0x0, 0x0, 0x0, 0x0, 0x0, 0x0⟩,
  ⟨0x14034, [(64, 128)], 0x0, 0x0, 0x0, 0x0, 0x0, 0x0⟩,
  ⟨0x16000, [], 0x0, 0x0, 0x0, 0x0, 0xFFFFFFFF, 0x0⟩,
  ⟨0x16004, [], 0x0, 0xFFFFFFFF, 0x0, 0x0, 0x0, 0x0⟩,
  ⟨0x16008, [], 0x0, 0xFFFFFFFF, 0x0, 0x0, 0x0, 0x0⟩,
  ⟨0x1600C, [], 0x0, 0x0, 0x0, 0x0, 0x0, 0x0⟩,
  ⟨0x16010, [], 0x0, 0x0, 0x0, 0x0, 0x0, 0x0⟩,
  ⟨0x16014, [], 0x0, 0x0, 0x0, 0x0, 0x0, 0x0⟩,
  ⟨0x16018, [], 0x0, 0x0, 0x0, 0x0, 0x0, 0x0⟩,
  ⟨0x1601C, [], 0x0, 0x0, 0x0, 0x0, 0x0, 0x0⟩,
  ⟨0x16020, [], 0x0, 0x0, 0xF, 0x0, 0x0, 0x0⟩,
  ⟨0x16024, [], 0x12C, 0x0, 0x0, 0x0, 0x0, 0xFFFFF⟩,
  ⟨0x16028, [], 0xFFFF0000, 0x0, 0x0, 0x0, 0x0, 0xFFFFFFFF⟩,
  ⟨0x1602C, [], 0x80FFFFF, 0x0, 0x0, 0x0, 0x0, 0xF0FFFFF⟩,
  ⟨0x16030, [], 0x0, 0x0, 0x0, 0x0, 0x0, 0xFFFF⟩,
  ⟨0x16034, [], 0xFFFF0000, 0x0, 0x0, 0x0, 0x0, 0xFFFFFFFF⟩,
  ⟨0x16040, [(4, 12)], 0x0, 0x0, 0x0, 0x0, 0x0, 0xFFFF000F⟩]

/-- The register rows of DRV. -/
def rowsDrv : List RegRow := [
  ⟨0x22000, [], 0x0, 0x0, 0x1F, 0x0, 0x0, 0x0⟩,
  ⟨0x22004, [], 0x0, 0x0, 0x0, 0x0, 0xFFFFFFFF, 0x0⟩,
  ⟨0x22008, [], 0x0, 0x0, 0x0, 0x0, 0xFFFFFFFF, 0x0⟩,
  ⟨0x22040, [(16, 6)], 0x32006410, 0x0, 0x0, 0x0, 0x0, 0xFF0FFF37⟩,
  ⟨0x22044, [(16, 6)], 0x33083E8, 0x0, 0x0, 0x0, 0x0, 0x1F7FFFFF⟩,
  ⟨0x22048, [(16, 6)], 0xC800C8, 0x0, 0x0, 0x0, 0x0, 0xFFFFFFFF⟩,
  ⟨0x2204C, [(16, 6)], 0x0, 0x0, 0x3FE, 0x0, 0x0, 0x0⟩,
  ⟨0x22100, [(32, 16)], 0x0, 0x0, 0x0, 0x0, 0x0, 0xFFF03FF⟩,
  ⟨0x22104, [(32, 16)], 0x0, 0x0, 0x0, 0x0, 0x0, 0xFFFFFFF⟩,
  ⟨0x22108, [(32, 16)], 0x0, 0x0, 0x0, 0x0, 0x0, 0xFFFFFFFF⟩,
  ⟨0x2210C, [(32, 16)], 0x0, 0x0, 0x0, 0x0, 0x0, 0xFF9F⟩,
  ⟨0x22110, [(32, 16)], 0x0, 0x0, 0x0, 0x0, 0x0, 0xFFF0FFF⟩,
  ⟨0x22114, [(32, 16)], 0x0, 0x0, 0x0, 0x0, 0x0, 0xF7FF01FF⟩,
  ⟨0x22118, [(32, 16)], 0x0, 0x0, 0x0, 0x0, 0x0, 0xFF0FF1FF⟩,
  ⟨0x22400, [(32, 12)], 0x0, 0x0, 0x0, 0x0, 0x0, 0x0⟩,
  ⟨0x22404, [(32, 12)], 0x0, 0x0, 0x0, 0x0, 0x0, 0x0⟩,
  ⟨0x22408, [(32, 12)], 0x0, 0x0, 0x0, 0x0, 0x0, 0x0⟩,
  ⟨0x2240C, [(32, 12)], 0x0, 0x0, 0x0, 0x0, 0x0, 0x0⟩,
  ⟨0x22410, [(32, 12)], 0x0, 0x0, 0x0, 0x0, 0x0, 0x0⟩,
  ⟨0x22414, [(32, 12)], 0x0, 0x0, 0x0, 0x0, 0x0, 0x0⟩,
  ⟨0x22418, [(32, 12)], 0x0, 0x0, 0x0, 0x0, 0x0, 0x0⟩,
  ⟨0x2241C, [(32, 12)], 0x0, 0x0, 0x0, 0x0, 0x0, 0x0⟩,
  ⟨0x22600, [(32, 12), (4, 8)], 0x0, 0x0, 0x0, 0x0, 0x0, 0x0⟩]

/-- The register rows of BST. -/
def rowsBst : List RegRow := [
  ⟨0x23000, [], 0xFA0000, 0x0, 0x0, 0x0, 0x0, 0x1FF0001⟩,
  ⟨0x23004, [], 0xDC0104, 0x0, 0x0, 0x0, 0x0, 0x1FF01FF⟩,
  ⟨0x23008, [], 0x112000C8, 0x0, 0x0, 0x0, 0x0, 0xF1FF01FF⟩,
  ⟨0x2300C, [], 0x64, 0x0, 0x0, 0x0, 0x0, 0xFF⟩,
  ⟨0x23010, [], 0x4, 0x0, 0x300, 0x0, 0x0, 0x0⟩,
  ⟨0x23014, [], 0x0, 0x0, 0x0, 0x0, 0x0, 0x0⟩]

/-- The register rows of IGN. -/
def rowsIgn : List RegRow := [
  ⟨0x21000, [(16, 12)], 0x64000300, 0x0, 0x0, 0x0, 0x0, 0xFF070F01⟩,
  ⟨0x21004, [(16, 12)], 0x0, 0x0, 0x0, 0x0, 0x0, 0xFFFFFFFF⟩,
  ⟨0x21008, [(16, 12)], 0x0, 0x0, 0xE0, 0x0, 0x0, 0x0⟩,
  ⟨0x21100, [], 0x0, 0x0, 0x0, 0x0, 0x0, 0x0⟩]

/-- The register rows of GAO. -/
def rowsGao : List RegRow := [
  ⟨0x20000, [(4, 16)], 0x0, 0x0, 0x0, 0x0, 0x0, 0x131⟩,
  ⟨0x20040, [], 0x0, 0x0, 0x0, 0x0, 0x0, 0x0⟩]

/-- The register rows of TMB. -/
def rowsTmb : List RegRow := [
  ⟨0x30000, [], 0x0, 0x0, 0x0, 0x0, 0x0, 0x0⟩,
  ⟨0x30004, [], 0x0, 0x0, 0x0, 0x0, 0x0, 0x0⟩,
  ⟨0x30010, [], 0x0, 0x0, 0x0, 0xFFFFFFFF, 0x0, 0x0⟩,
  ⟨0x30014, [], 0x0, 0x0, 0x0, 0xFFFFFFFF, 0x0, 0x0⟩,
  ⟨0x30018, [], 0x0, 0x0, 0x0, 0x0, 0xFFFFFFFF, 0x0⟩,
  ⟨0x3001C, [], 0x0, 0x0, 0x0, 0x0, 0xFFFFFFFF, 0x0⟩,
  ⟨0x30020, [], 0x0, 0x0, 0x0, 0x0, 0x0, 0x0⟩,
  ⟨0x30100, [(32, 64)], 0x0, 0x1, 0x0, 0x0, 0x0, 0x3F01FE⟩,
  ⟨0x30104, [(32, 64)], 0x0, 0xFFFFFFFF, 0x0, 0x0, 0x0, 0x0⟩,
  ⟨0x30108, [(32, 64)], 0x0, 0xFFFFFFFF, 0x0, 0x0, 0x0, 0x0⟩,
  ⟨0x3010C, [(32, 64)], 0x0, 0x0, 0x0, 0x0, 0x0, 0x0⟩,
  ⟨0x30110, [(32, 64)], 0x0, 0x0, 0xE, 0x0, 0x0, 0x0⟩]

/-- The register rows of PWM. -/
def rowsPwm : List RegRow := [
  ⟨0x40000, [(32, 32)], 0x0, 0x1, 0x0, 0x0, 0x0, 0xFF32⟩,
  ⟨0x40004, [(32, 32)], 0x7FFFFFF, 0x7FFFFFF, 0x0, 0x0, 0x0, 0x0⟩,
  ⟨0x40008, [(32, 32)], 0xFFFFFFFF, 0xFFFFFFFF, 0x0, 0x0, 0x0, 0x0⟩,
  ⟨0x4000C, [(32, 32)], 0xFFFFFFFF, 0xFFFFFFFF, 0x0, 0x0, 0x0, 0x0⟩,
  ⟨0x40010, [(32, 32)], 0x0, 0x0, 0x0, 0x0, 0x0, 0x0⟩,
  ⟨0x40014, [(32, 32)], 0x0, 0x0, 0x70, 0x0, 0x0, 0x0⟩,
  ⟨0x40400, [(16, 16)], 0x0, 0x8, 0x0, 0x0, 0x0, 0x3F3⟩,
  ⟨0x40404, [(16, 16)], 0x0, 0x0, 0x0, 0x0, 0x0, 0xFFFFFFFF⟩,
  ⟨0x40408, [(16, 16)], 0x0, 0x0, 0x0, 0x0, 0x0, 0xFFFF⟩,
  ⟨0x40600, [], 0x0, 0x0, 0x0, 0x0, 0x0, 0xFFFFFFFF⟩,
  ⟨0x40604, [], 0x0, 0x0, 0x0, 0x0, 0x0, 0xF⟩,
  ⟨0x40608, [], 0x0, 0x0, 0x0, 0x0, 0x0, 0x0⟩,
  ⟨0x4060C, [], 0x0, 0x0, 0x0, 0x0, 0xFFFFFFFF, 0x0⟩,
  ⟨0x40610, [], 0x0, 0x0, 0xFFFF, 0x0, 0x0, 0x0⟩,
  ⟨0x40614, [], 0x0, 0x0, 0x0, 0x0, 0xFFFFFFFF, 0x0⟩,
  ⟨0x40618, [], 0x0, 0xFFFFFFFF, 0x0, 0x0, 0x0, 0x0⟩,
  ⟨0x4061C, [], 0x0, 0x0, 0x100, 0x0, 0x0, 0x0⟩]

/-- The register rows of ADC. -/
def rowsAdc : List RegRow := [
  ⟨0x24000, [(4, 2)], 0x100, 0x0, 0x0, 0x0, 0x0, 0x3F01⟩,
  ⟨0x24008, [], 0x2000, 0x0, 0x0, 0x0, 0x0, 0x1F1F3FFF⟩,
  ⟨0x2400C, [], 0x8, 0x0, 0x0, 0x0, 0x0, 0xFFF⟩,
  ⟨0x24010, [(4, 2)], 0x0, 0x0, 0x0, 0x0, 0x0, 0x71⟩,
  ⟨0x24020, [(4, 2)], 0x0, 0x0, 0x0, 0x0, 0x0, 0x0⟩,
  ⟨0x24028, [], 0x0, 0x0, 0x80000000, 0x0, 0x0, 0x0⟩,
  ⟨0x2402C, [], 0x0, 0x0, 0xFFFFFFFF, 0x0, 0x0, 0x0⟩,
  ⟨0x24030, [], 0x0, 0x0, 0xFFFF, 0x0, 0x0, 0x0⟩,
  ⟨0x24100, [(128, 2), (4, 32)], 0x0, 0x0, 0x0, 0x0, 0x0, 0xF3F⟩,
  ⟨0x24200, [(4, 16)], 0x0, 0x0, 0x0, 0x0, 0x0, 0x10F3F⟩]

/-- The register rows of ACC. -/
def rowsAcc : List RegRow := [
  ⟨0x25000, [(64, 64)], 0x0, 0x6, 0x0, 0x0, 0x0, 0x31FF1⟩,
  ⟨0x25004, [(64, 64)], 0x0, 0x0, 0x0, 0x0, 0x0, 0xFFFF0FFF⟩,
  ⟨0x25008, [(64, 64)], 0x0, 0x0, 0x0, 0x0, 0x0, 0xFFFFFFFF⟩,
  ⟨0x2500C, [(64, 64)], 0x0, 0x0, 0x0, 0x0, 0x0, 0xFFFF⟩,
  ⟨0x25010, [(64, 64)], 0x0, 0x0, 0x0, 0x0, 0x0, 0x0⟩,
  ⟨0x25014, [(64, 64)], 0x0, 0x0, 0x0, 0x0, 0x0, 0x0⟩,
  ⟨0x25018, [(64, 64)], 0x0, 0x0, 0xC, 0x0, 0x0, 0x0⟩,
  ⟨0x2501C, [(64, 64)], 0x0, 0x0, 0x0, 0x0, 0x0, 0x0⟩,
  ⟨0x25020, [(64, 64)], 0x0, 0x0, 0x0, 0x0, 0x0, 0x0⟩,
  ⟨0x25024, [(64, 64)], 0x0, 0x0, 0x0, 0x0, 0x0, 0x0⟩,
  ⟨0x25028, [(64, 64)], 0x0, 0x0, 0x0, 0x0, 0x0, 0x0⟩,
  ⟨0x2502C, [(64, 64)], 0x0, 0x0, 0x0, 0x0, 0x0, 0x0⟩,
  ⟨0x25030, [(64, 64)], 0x0, 0x0, 0x0, 0x0, 0x0, 0x0⟩,
  ⟨0x25034, [(64, 64)], 0x0, 0x0, 0x0, 0x0, 0x0, 0x0⟩,
  ⟨0x25038, [(64, 64)], 0x0, 0x0, 0x0, 0x0, 0x0, 0x0⟩,
  ⟨0x26000, [], 0x0, 0x0, 0x0, 0x0, 0x0, 0x0⟩,
  ⟨0x26004, [], 0x0, 0x0, 0x0, 0x0, 0x0, 0x0⟩]

/-- The register rows of SNT. -/
def rowsSnt : List RegRow := [
  ⟨0x60000, [(64, 6)], 0x0, 0x6000, 0x0, 0x0, 0x0, 0xFF3F93FF⟩,
  ⟨0x60004, [(64, 6)], 0x0, 0x0, 0x0, 0x0, 0x0, 0x7FF⟩,
  ⟨0x60008, [(64, 6)], 0x0, 0x0, 0x0, 0x0, 0x0, 0x0⟩,
  ⟨0x6000C, [(64, 6)], 0x0, 0x0, 0x0, 0x0, 0x0, 0x0⟩,
  ⟨0x60010, [(64, 6)], 0x0, 0x0, 0x0, 0x0, 0x0, 0x0⟩,
  ⟨0x60014, [(64, 6)], 0x0, 0x0, 0x7F2, 0x0, 0x0, 0x0⟩,
  ⟨0x60018, [(64, 6)], 0x0, 0x0, 0x0, 0x0, 0x0, 0x0⟩,
  ⟨0x6001C, [(64, 6)], 0x0, 0x0, 0x0, 0x0, 0x0, 0x0⟩,
  ⟨0x60020, [(64, 6)], 0x0, 0x0, 0x0, 0x0, 0x0, 0x0⟩]

/-- The register rows of COLT. -/
def rowsColt : List RegRow := [
  ⟨0x50000, [(64, 8)], 0x0, 0x0, 0x0, 0x0, 0x0, 0xFFFFFFFF⟩,
  ⟨0x50004, [(64, 8)], 0x0, 0x0, 0x0, 0x0, 0x0, 0x1FF⟩,
  ⟨0x50008, [(64, 8)], 0x0, 0x0, 0x0, 0x0, 0xFFFFFFFF, 0x0⟩,
  ⟨0x5000C, [(64, 8)], 0x0, 0x777, 0x0, 0x0, 0x0, 0x0⟩,
  ⟨0x50010, [(64, 8)], 0x0, 0xFFFFFFFF, 0x0, 0x0, 0x0, 0x0⟩,
  ⟨0x50014, [(64, 8)], 0x0, 0x0, 0x0, 0x0, 0x0, 0x0⟩,
  ⟨0x50018, [(64, 8)], 0x0, 0x0, 0x0, 0x0, 0x0, 0x0⟩,
  ⟨0x5001C, [(64, 8)], 0x0, 0x0, 0x0, 0x0, 0x0, 0x0⟩,
  ⟨0x50020, [(64, 8)], 0x0, 0x0, 0x0, 0x0, 0xFFFFFFFF, 0x0⟩,
  ⟨0x50024, [(64, 8)], 0x0, 0x0, 0x0, 0x0, 0x0, 0x0⟩,
  ⟨0x50028, [(64, 8)], 0x0, 0x0, 0x0, 0x0, 0x0, 0x0⟩,
  ⟨0x5002C, [(64, 8)], 0x0, 0x0, 0x3FF, 0x0, 0x0, 0x0⟩,
  ⟨0x50030, [(64, 8)], 0x0, 0x0, 0x0, 0x0, 0x0, 0x0⟩,
  ⟨0x50034, [(64, 8)], 0x0, 0x0, 0x0, 0x0, 0x0, 0x0⟩,
  ⟨0x50038, [(64, 8)], 0x0, 0xFFFFFFFF, 0x0, 0x0, 0x0, 0x0⟩,
  ⟨0x5003C, [(64, 8)], 0x0, 0x0, 0x0, 0x0, 0xFFFFFFFF, 0x0⟩,
  ⟨0x50200, [], 0x0, 0x0, 0x0, 0x0, 0x0, 0xFFFFFFFF⟩,
  ⟨0x50204, [], 0x0, 0x0, 0x0, 0x0, 0x0, 0xFFFFFFFF⟩,
  ⟨0x50208, [], 0x0, 0x0, 0x0, 0x0, 0x0, 0xFFFFFFFF⟩,
  ⟨0x5020C, [], 0xFFFF, 0x0, 0x0, 0x0, 0x0, 0x0⟩,
  ⟨0x50210, [], 0x0, 0x0, 0x0, 0x0, 0xFFFFFFFF, 0x0⟩,
  ⟨0x50214, [], 0x0, 0x0, 0x0, 0x0, 0x0, 0x0⟩,
  ⟨0x50218, [], 0x0, 0x0, 0x0, 0xFFFFF, 0x0, 0x0⟩,
  ⟨0x5021C, [], 0x0, 0x0, 0xFFFFF, 0x0, 0x0, 0x0⟩,
  ⟨0x50220, [], 0x0, 0x0, 0x0, 0x0, 0x0, 0x0⟩,
  ⟨0x51000, [(512, 8), (8, 64)], 0x0, 0xFFFFFFFF, 0x0, 0x0, 0x0, 0x0⟩,
  ⟨0x51004, [(512, 8), (8, 64)], 0x0, 0xFFFFFFFF, 0x0, 0x0, 0x0, 0x0⟩]

/-- The register rows of MULE. -/
def rowsMule : List RegRow := [
  ⟨0x20000, [(64, 16)], 0x0, 0x3, 0x0, 0x0, 0x0, 0x33F00⟩,
  ⟨0x20004, [(64, 16)], 0x0, 0x0, 0x0, 0x0, 0xFFFFFFFF, 0x0⟩,
  ⟨0x20008, [(64, 16)], 0x0, 0x0, 0x0, 0x0, 0x0, 0x0⟩,
  ⟨0x2000C, [(64, 16)], 0x0, 0x0, 0xF, 0x0, 0x0, 0x0⟩,
  ⟨0x20010, [(64, 16)], 0x0, 0x0, 0x0, 0x0, 0x0, 0x0⟩,
  ⟨0x20014, [(64, 16)], 0x0, 0x0, 0x0, 0x0, 0x0, 0x0⟩,
  ⟨0x20018, [(64, 16)], 0x0, 0x0, 0x0, 0x0, 0x0, 0x0⟩,
  ⟨0x2001C, [(64, 16)], 0x0, 0x0, 0x0, 0x0, 0x0, 0x0⟩,
  ⟨0x20020, [(64, 16)], 0x0, 0xFFFFFFFF, 0x0, 0x0, 0x0, 0x0⟩,
  ⟨0x20024, [(64, 16)], 0x0, 0xFFFFFFFF, 0x0, 0x0, 0x0, 0x0⟩,
  ⟨0x20028, [(64, 16)], 0x0, 0xFFFFF, 0x0, 0x0, 0x0, 0x0⟩,
  ⟨0x2002C, [(64, 16)], 0x0, 0x7FFFF, 0x0, 0x0, 0x0, 0x0⟩,
  ⟨0x20030, [(64, 16)], 0x0, 0x0, 0x0, 0x0, 0x0, 0x0⟩,
  ⟨0x20400, [], 0x0, 0x0, 0x0, 0x0, 0xFFFFFFFF, 0x0⟩,
  ⟨0x20404, [], 0x0, 0x0, 0x0, 0x0, 0x0, 0x1F1F1F1F⟩,
  ⟨0x20408, [], 0x0, 0x0, 0x0, 0x0, 0x0, 0x0⟩]

/-- The register rows of IRQ. -/
def rowsIrq : List RegRow := [
  ⟨0x10000, [(4, 8)], 0x0, 0x0, 0x0, 0xFFFFFFFF, 0x0, 0x0⟩,
  ⟨0x10020, [(4, 8)], 0x0, 0x0, 0xFFFFFFFF, 0x0, 0x0, 0x0⟩,
  ⟨0x10040, [(4, 8)], 0x0, 0x0, 0x0, 0xFFFFFFFF, 0x0, 0x0⟩,
  ⟨0x10060, [(4, 8)], 0x0, 0x0, 0xFFFFFFFF, 0x0, 0x0, 0x0⟩,
  ⟨0x10100, [(4, 6)], 0x0, 0x3, 0x0, 0x0, 0x0, 0x0⟩,
  ⟨0x10120, [(4, 6)], 0x0, 0x0, 0x8, 0x0, 0x0, 0x0⟩,
  ⟨0x10140, [(4, 2)], 0x0, 0x0, 0x0, 0x0, 0x0, 0x0⟩,
  ⟨0x10148, [(4, 2)], 0x0, 0x0, 0x0, 0x0, 0xFFFFFFFF, 0x0⟩,
  ⟨0x10400, [(4, 256)], 0x0, 0x0, 0x0, 0x0, 0x0, 0x1F⟩]

/-- The register rows of LNK. -/
def rowsLnk : List RegRow := [
  ⟨0x70000, [], 0xD, 0x0, 0x0, 0x0, 0x0, 0xFFF0D⟩,
  ⟨0x70004, [], 0x0, 0x0, 0x0, 0x0, 0x0, 0x0⟩,
  ⟨0x70008, [], 0x0, 0x0, 0xFFF, 0x0, 0x0, 0x0⟩,
  ⟨0x7000C, [], 0x0, 0x0, 0x0, 0x0, 0x0, 0x0⟩,
  ⟨0x70010, [], 0x27100032, 0x0, 0x0, 0x0, 0x0, 0xFFFFFFFF⟩,
  ⟨0x70014, [], 0x2520064, 0x0, 0x0, 0x0, 0x0, 0x35F03FF⟩,
  ⟨0x70018, [], 0x0, 0x0, 0x0, 0x0, 0x0, 0x0⟩,
  ⟨0x7001C, [], 0x0, 0x0, 0x0, 0x0, 0x0, 0x0⟩,
  ⟨0x70040, [(16, 4)], 0x0, 0x1, 0x0, 0x0, 0x0, 0xF1F3FEFE⟩,
  ⟨0x70044, [(16, 4)], 0x0, 0x0, 0x80000000, 0x0, 0x0, 0x0⟩,
  ⟨0x70048, [(16, 4)], 0x0, 0x0, 0x0, 0x0, 0xFFFFFFFF, 0x0⟩,
  ⟨0x70400, [], 0x1, 0x0, 0x0, 0x0, 0x0, 0x1⟩,
  ⟨0x70404, [], 0x0, 0x0, 0x0, 0x0, 0x0, 0x0⟩,
  ⟨0x70408, [], 0x0, 0x0, 0xF, 0x0, 0x0, 0x0⟩,
  ⟨0x70800, [], 0x0, 0x0, 0x0, 0x0, 0x0, 0x0⟩,
  ⟨0x70804, [], 0x0, 0xFFFF30FF, 0x0, 0x0, 0x100, 0x0⟩,
  ⟨0x70808, [], 0x0, 0xFFFFFFFF, 0x0, 0x0, 0x0, 0x0⟩,
  ⟨0x7080C, [], 0x0, 0x0, 0x6, 0x0, 0x0, 0x0⟩,
  ⟨0x70840, [(4, 14)], 0x0, 0xFFFFFFFF, 0x0, 0x0, 0x0, 0x0⟩]

/-- The register rows of SAF. -/
def rowsSaf : List RegRow := [
  ⟨0x100000, [], 0x0, 0x0, 0x0, 0x0, 0x0, 0x0⟩,
  ⟨0x100004, [], 0x0, 0x0, 0x1FFF, 0x0, 0x0, 0x0⟩,
  ⟨0x100008, [], 0x3F97DD5, 0x0, 0x0, 0x0, 0x0, 0x30FFFFF⟩,
  ⟨0x10000C, [], 0xAA0A0001, 0x0, 0x0, 0x0, 0x0, 0xFFFF0005⟩,
  ⟨0x100010, [], 0x0, 0x0, 0x0, 0x0, 0xFFFFFFFF, 0x0⟩,
  ⟨0x100014, [], 0x0, 0x0, 0x80000000, 0x0, 0x0, 0x0⟩,
  ⟨0x100018, [], 0x0, 0x0, 0x0, 0x0, 0x0, 0x0⟩,
  ⟨0x10001C, [], 0x0, 0x0, 0x0, 0x0, 0x0, 0x0⟩,
  ⟨0x100020, [], 0x0, 0x0, 0x0, 0x0, 0x0, 0x0⟩,
  ⟨0x100024, [], 0x0, 0x0, 0x0, 0x0, 0x0, 0x0⟩,
  ⟨0x100028, [], 0x0, 0x0, 0x0, 0x0, 0x0, 0x0⟩,
  ⟨0x100030, [], 0x0, 0x0, 0x0, 0x0, 0xFFFFFFFF, 0x0⟩,
  ⟨0x100034, [], 0x0, 0x0, 0x40000000, 0x0, 0x0, 0x0⟩]

/-- The register rows of GDR. -/
def rowsGdr : List RegRow := [
  ⟨0x30000, [], 0x5028030, 0x0, 0x0, 0x0, 0x0, 0xFF0FFFFF⟩,
  ⟨0x30004, [], 0x0, 0x0, 0x0, 0x0, 0x0, 0x0⟩,
  ⟨0x30008, [], 0x0, 0x0, 0x0, 0x0, 0x0, 0x0⟩,
  ⟨0x3000C, [], 0x0, 0x0, 0x0, 0x0, 0x0, 0x0⟩,
  ⟨0x30010, [], 0x0, 0x0, 0x7F, 0x0, 0x0, 0x0⟩,
  ⟨0x30014, [], 0x0, 0x0, 0x0, 0x0, 0x0, 0x0⟩,
  ⟨0x30018, [], 0x0, 0x0, 0x0, 0x0, 0x0, 0x0⟩]

/-- The register rows of XLK. -/
def rowsXlk : List RegRow := [
  ⟨0x31000, [], 0xC8, 0x0, 0x0, 0x0, 0x0, 0xFFFF⟩,
  ⟨0x31004, [], 0x0, 0x0, 0x0, 0x0, 0x0, 0x0⟩,
  ⟨0x31008, [], 0x0, 0x0, 0x3, 0x0, 0x0, 0x0⟩]

/-- One register window: its offset, its size, its rows (R379 for the device, R380 in a half). -/
structure Block where
  lo : Nat
  size : Nat
  rows : List RegRow
  deriving DecidableEq, Repr

/-- The device windows. -/
def devBlocks : List Block := [
  ⟨0x0, 0x1000, rowsSys⟩,
  ⟨0x2000, 0x1000, rowsImg⟩,
  ⟨0x1000, 0x1000, rowsTrim⟩,
  ⟨0x30000, 0x1000, rowsTmb⟩,
  ⟨0x40000, 0x1000, rowsPwm⟩,
  ⟨0x60000, 0x1000, rowsSnt⟩,
  ⟨0x50000, 0x2000, rowsColt⟩,
  ⟨0x20000, 0x1000, rowsMule⟩,
  ⟨0x10000, 0x1000, rowsIrq⟩,
  ⟨0x70000, 0x1000, rowsLnk⟩,
  ⟨0x100000, 0x1000, rowsSaf⟩]

/-- The per-half windows. -/
def halfBlocks : List Block := [
  ⟨0x0, 0x1000, rowsSns⟩,
  ⟨0x1000, 0x1000, rowsWhl⟩,
  ⟨0x2000, 0x1000, rowsAng⟩,
  ⟨0x10000, 0x4000, rowsEvc⟩,
  ⟨0x14000, 0x4000, rowsDmd⟩,
  ⟨0x22000, 0x1000, rowsDrv⟩,
  ⟨0x23000, 0x1000, rowsBst⟩,
  ⟨0x21000, 0x1000, rowsIgn⟩,
  ⟨0x20000, 0x1000, rowsGao⟩,
  ⟨0x24000, 0x1000, rowsAdc⟩,
  ⟨0x25000, 0x2000, rowsAcc⟩,
  ⟨0x30000, 0x1000, rowsGdr⟩,
  ⟨0x31000, 0x1000, rowsXlk⟩]

/-- Whether an offset is a word of a row. -/
def RegRow.holds (r : RegRow) (o : Nat) : Bool :=
  decide (r.off ≤ o) &&
  match r.dims with
  | [] => decide (o = r.off)
  | [(s, c)] => decide ((o - r.off) % s = 0 ∧ (o - r.off) / s < c)
  | (s, c) :: (s', c') :: _ =>
    decide ((o - r.off) / s < c ∧ (o - r.off) % s % s' = 0 ∧ (o - r.off) % s / s' < c')

/-- What stands at an offset of a list of windows: none, unmapped; `some none`, a reserved word (R381). -/
def findReg (bs : List Block) (o : Nat) : Option (Option RegRow) :=
  (bs.find? fun b => decide (b.lo ≤ o ∧ o < b.lo + b.size)).map fun b => b.rows.find? (RegRow.holds · o)

/-- The half whose window holds an address, with the offset in it (R379). -/
def halfOffset (a : Nat) : Option (Half × Nat) :=
  if 0x80000 ≤ a ∧ a < 0xC0000 then some (.a, a - 0x80000)
  else if 0xC0000 ≤ a ∧ a < 0x100000 then some (.b, a - 0xC0000)
  else none

/-- The register row at an address: none, unmapped; `some none`, a reserved word (R381) (corners DEDUCED, log 63). -/
def regAt (a : Nat) : Option (Option RegRow) :=
  match halfOffset a with
  | some (_, o) => findReg halfBlocks o
  | none => findReg devBlocks a

/-- The reset word of a register at a half's offset where it depends on the index or on the half: the
band defaults (ANG_BANDLn, ANG_BANDGn), the group of an event channel (EVC_CTRLn), the low-side number
(DMD_LSCFGn), XLK_CFG. -/
def indexedReset (h : Half) (o : Nat) : Option Nat :=
  if 0x2040 ≤ o ∧ o < 0x2080 then
    if o % 8 = 0 then [0x32, 0x78, 0x12C, 0x2BC, 0x5DC, 0xBB8, 0x1770, 0xFFFF][(o - 0x2040) / 8]?
    else [0x40100400, 0x40100400, 0x300C0400, 0x20080400, 0x20080400, 0x18060400, 0x10040400,
      0x10040400][(o - 0x2044) / 8]?
  else if 0x10000 ≤ o ∧ o < 0x12000 ∧ o % 32 = 0 then
    some (0x00FF0000 + (o - 0x10000) / 32 / 16 * 0x10000000)
  else if 0x16040 ≤ o ∧ o < 0x16070 then some ((o - 0x16040) / 4)
  else if o = 0x31000 then some (match h with | .a => 0 | .b => 0xC8)
  else none

/-- The word of a register after reset, as its heading gives it. -/
def regReset (a : Nat) : Word :=
  BitVec.ofNat 32 <|
    match halfOffset a with
    | some (h, o) =>
      (indexedReset h o).getD ((findReg halfBlocks o).elim 0 fun r => r.elim 0 RegRow.reset)
    | none => (findReg devBlocks a).elim 0 fun r => r.elim 0 RegRow.reset

end Sys2Proof.Machine
end

