-- ==== Sys2Proof/Machine/Operands.lean ====
section
/-! DEFINITION. The operand forms: fields of words, signed values, exact fractions and their rounding,
bytes of words. -/

namespace Sys2Proof.Machine

open Sys2Proof

/-- The value of a field of a word. -/
def getF (v : Word) (f : Fld) : Nat := v.toNat / 2 ^ f.lo % 2 ^ (f.hi + 1 - f.lo)

/-- Whether a one-bit field is set. -/
def getB (v : Word) (f : Fld) : Bool := v.getLsbD f.lo

/-- A word with a field replaced; the value is taken modulo the field's range. -/
def putF (v : Word) (f : Fld) (n : Nat) : Word :=
  let w := f.hi + 1 - f.lo
  (v &&& ~~~(BitVec.ofNat 32 ((2 ^ w - 1) * 2 ^ f.lo))) ||| BitVec.ofNat 32 (n % 2 ^ w * 2 ^ f.lo)

/-- A word with a one-bit field replaced. -/
def putB (v : Word) (f : Fld) (b : Bool) : Word := putF v f (if b then 1 else 0)

/-- The number of a truth value. -/
def bnat (b : Bool) : Nat := if b then 1 else 0

/-- The field value read as a two's complement number of the field's width. -/
def getS (v : Word) (f : Fld) : Int :=
  let n := getF v f
  if n < 2 ^ (f.hi - f.lo) then n else (n : Int) - 2 ^ (f.hi + 1 - f.lo)

/-- An integer as a word, two's complement. -/
def wordOfInt (i : Int) : Word := BitVec.ofInt 32 i

/-- Clamp an integer between bounds. -/
def clampI (lo hi x : Int) : Int := if x < lo then lo else if hi < x then hi else x

/-- Round to the nearest integer, ties away from zero (R127) (corners DEDUCED, log 31). -/
def roundAway (x : Rat) : Int :=
  if x < 0 then -((-x + 1 / 2).floor) else (x + 1 / 2).floor

/-- Round to the nearest integer, ties up. -/
def roundUp (x : Rat) : Int := (x + 1 / 2).floor

/-- The absolute value of a fraction. -/
def absQ (x : Rat) : Rat := if x < 0 then -x else x

/-- A fraction cut at 0. -/
def posQ (x : Rat) : Rat := if x < 0 then 0 else x

/-- The larger of two fractions. -/
def maxQ (x y : Rat) : Rat := if x < y then y else x

/-- `x` scaled by a power of two. -/
def scaleQ (x : Rat) (e : Int) : Rat :=
  if 0 ≤ e then x * (2 ^ e.toNat : Nat) else x / (2 ^ (-e).toNat : Nat)

/-- The integer e with 2^e ≤ |x| < 2^(e+1), for x not 0 (to within one, then corrected). -/
def expQ (x : Rat) : Int :=
  let e := (Nat.log2 x.num.natAbs : Int) - Nat.log2 x.den
  if absQ x < scaleQ 1 e then e - 1 else e

/-- Round to `b` significant bits, to nearest, ties away from zero (R127) (DESIGN CHOICE, log 6). -/
def roundSig (b : Nat) (x : Rat) : Rat :=
  if x = 0 then 0
  else
    let s : Int := (b : Int) - 1 - expQ x
    scaleQ (roundAway (scaleQ x s)) (-s)

/-- Two to a power, as a fraction. -/
def pow2Q (n : Nat) : Rat := ((2 ^ n : Nat) : Rat)

/-- Fraction of a natural and of an integer. -/
def ofN (n : Nat) : Rat := ((n : Int) : Rat)

/-- A non-negative fraction cut down to a natural. -/
def floorN (x : Rat) : Nat := x.floor.toNat

/-- Byte `i` of a word, little-endian (R5). -/
def byteOf (v : Word) (i : Nat) : Byte := BitVec.ofNat 8 (v.toNat / 2 ^ (8 * i))

/-- The word of four bytes, little-endian (R5). -/
def wordOf (b0 b1 b2 b3 : Byte) : Word :=
  BitVec.ofNat 32 (b0.toNat + b1.toNat * 0x100 + b2.toNat * 0x10000 + b3.toNat * 0x1000000)

/-- The word at a byte position of a list, missing bytes 0. -/
def wordAt (l : List Byte) (i : Nat) : Word :=
  wordOf (l.getD i 0) (l.getD (i + 1) 0) (l.getD (i + 2) 0) (l.getD (i + 3) 0)

/-- The bytes of a word, little-endian. -/
def wordBytes (v : Word) : List Byte := [byteOf v 0, byteOf v 1, byteOf v 2, byteOf v 3]

/-- The set bit numbers of a word below `n`, ascending. -/
def bitsOf (v : Word) (n : Nat) : List Nat := (List.range n).filter fun i => v.getLsbD i

/-- The word whose bits below `n` follow a test. -/
def maskOf (n : Nat) (p : Nat → Bool) : Word :=
  BitVec.ofNat 32 ((List.range n).foldl (fun acc i => if p i then acc + 2 ^ i else acc) 0)

/-- Add one to a count that saturates. -/
def satInc (top n : Nat) : Nat := if n < top then n + 1 else top

/-- A list in order, an item put in its place: before the first that it may precede. -/
def insertBy {α : Type} (le : α → α → Bool) (x : α) : List α → List α
  | [] => [x]
  | y :: l => if le x y then x :: y :: l else y :: insertBy le x l

end Sys2Proof.Machine
end

