-- ==== Sys2Proof/Machine/State.lean ====
section
/-! DEFINITION. The state of the block as plain data, its outcomes' reasons, and the state after
reset. Registers are one sparse word store keyed by byte address, RAM one sparse byte store; what no
register shows has a typed field here. -/

namespace Sys2Proof.Machine

open Sys2Proof

/-- Why the block stops: no rule of the spec ends a run, so no meaning raises one (NOTES.md, Stops) (DESIGN CHOICE,
log 65). -/
inductive Fault where
  /-- Kept for a form the spec forbids outright; raised by no meaning (safe). -/
  | stuck
  deriving DecidableEq, Repr

/-- Why a command has no meaning here (DESIGN CHOICE, log 65). -/
inductive Refusal where
  /-- A command not modelled yet; raised by its arm of `exec` only (safe). -/
  | notModelled (mnemonic : String)
  deriving DecidableEq, Repr

/-- The grade of the device (R1, R2) (DESIGN CHOICE, log 3). -/
inductive Grade where
  | tzn5120
  | tzn5110
  deriving DecidableEq, Repr

/-- The device modes (R25, R27). `unpowered` and `standby` have no readable code. -/
inductive Mode where
  | unpowered
  | standby
  | boot
  | load
  | operate
  | halt
  | service
  deriving DecidableEq, Repr

/-- The half modes (R26); `off`: not operating, read as 0x7 in SYS_MODE. -/
inductive HMode where
  | idle
  | seek
  | phase
  | run
  | limp
  | rundown
  | safe
  | off
  deriving DecidableEq, Repr

/-- One crank edge that capture holds (R84 to R89): its timestamp, the tick from which it may be handed over, its
direction, whether that is ambiguous, whether the edge is part of a two-line illegal transition. -/
structure CrankEdge where
  t : Nat
  due : Nat
  reverse : Bool
  ambiguous : Bool
  illegal : Bool
  deriving DecidableEq, Repr

/-- One cam edge that capture holds (R83, R84): its cam, its timestamp, the tick from which it may be handed over, the
level after it. -/
structure CamEdge where
  cam : Nat
  t : Nat
  due : Nat
  level : Bool
  deriving DecidableEq, Repr

/-- One front end (R81 to R83): its last timed edge, its last measured period, the peak before that edge (a crank's is
SNS_PEAK). -/
structure Front where
  lastT : Option Nat
  period : Option Nat
  peak : Option Nat
  deriving DecidableEq, Repr

/-- The qualified level of a cam input (R84): the new level from tick `due` on, the one before until then. -/
structure CamLine where
  level : Bool
  was : Bool
  due : Nat
  deriving DecidableEq, Repr

/-- The capture stage and front ends of a half (R81 to R92). -/
structure Sense where
  /-- the qualified crank edges that wait for their hand-over, oldest first -/
  edges : List CrankEdge
  /-- the timed edge whose pulse is still open (DIRSRC 1, R87) -/
  pulse : Option Nat
  /-- timestamp of the last handed-over crank edge -/
  lastT : Option Nat
  /-- direction of the last handed-over crank edge -/
  lastRev : Bool
  /-- tick of the last hand-over of a crank edge, or of an edge that stands for one (R122) -/
  handT : Option Nat
  /-- the last qualified CRKD edge -/
  crkdT : Option Nat
  /-- the cam edges that wait for their hand-over, oldest first -/
  cams : List CamEdge
  /-- the front ends of the half's own crank balls and of its cams -/
  front : Front
  camFront : List (Nat × Front)
  /-- the levels of its own crank comparator, of its own CRKD line once qualified, and of its cams -/
  crkLine : Bool
  crkdLine : Bool
  camLine : List (Nat × CamLine)
  deriving DecidableEq, Repr

/-- One crank sync candidate (R110, R129): the entry expected next, the edges passed, the period of its
last gap. -/
structure Cand where
  next : Nat
  n : Nat
  gapP : Nat
  deriving DecidableEq, Repr

/-- The wheel and sync unit of a half (R100 to R123). -/
structure Wheel where
  cands : List Cand
  /-- the previous period in SEEK -/
  p1 : Option Nat
  /-- CONF of the running confirmation (R123) -/
  conf : Nat
  /-- cycle edge index of the last accepted or counted crank edge -/
  k : Nat
  v0 : Nat
  v1 : Nat
  /-- consecutive errors and good edges of each cam (R115) -/
  camBad : List (Nat × Nat)
  camGood : List (Nat × Nat)
  /-- the watch for missing cam edges: per phase cam the unwrapped passage of the entry watched next; the passages that
  edges have matched (R115) -/
  camAt : List (Nat × Int)
  camSeen : List (Nat × Int)
  /-- phase-cam edges since the last accepted crank edge (R116) -/
  camSince : Nat
  /-- consecutive good crank edges in cam-based LIMP (R117) -/
  crkGood : Nat
  /-- net forward edges handed over since OPERATE (R120) -/
  net : Int
  /-- phase memory may still be used: no SEEK gap judged since OPERATE (R48) -/
  pmFirst : Bool
  /-- SEEK followed SAFE and no cycle-start mark came since (R89) -/
  afterSafe : Bool
  /-- an edge was rejected since the last accepted edge (R144) -/
  rejected : Bool
  /-- first LIMPCAM edge after entry still to come (R131) -/
  limpFirst : Bool
  /-- last LIMPCAM table entry taken (R117) -/
  limpEntry : Nat
  /-- cause of the running SAFE is a fault reaction (R361) -/
  byFault : Bool
  /-- cycle phase known when RUNDOWN was entered (R155) -/
  phk : Bool
  deriving DecidableEq, Repr

/-- The ripple tables derived from P (R133): per interval its start angle, P, V and U. -/
structure Ripple where
  a : Rat
  p : Rat
  v : Rat
  u : Rat
  deriving DecidableEq, Repr

/-- The angle tracker of a half (R124 to R142). Angles are unwrapped; `m`, `phi` and `clamp` carry 24
fraction bits of an AU (R124), `tExp` 16 fraction bits of a tick (R136). -/
structure Track where
  theta : Rat
  omega : Rat
  alpha : Rat
  tPrev : Nat
  band : Nat
  tExp : Nat
  omegaExp : Rat
  kt : Nat
  kw : Nat
  ka : Nat
  /-- tick at which `m` and `phi` were last written -/
  atT : Nat
  /-- tick at which the 16-cycle blocks of the increment start (R137) -/
  base : Nat
  /-- the increment held in the running block -/
  inc : Int
  m : Int
  phi : Int
  clamp : Int
  /-- unwrapped corrected angle of the last accepted edge, and the interval to the next -/
  ak : Rat
  dk : Rat
  /-- window factors computed for the pending edge (R105, R123) -/
  lo : Rat
  hi : Rat
  clamped : Bool
  catching : Bool
  cuStart : Nat
  /-- the residual of the edge whose tooth pass runs (R18) -/
  resid : Rat
  passing : Bool
  prepass : Bool
  /-- whether the switch that follows comes after a jump, and whether its edge was early (R171) -/
  jumped : Bool
  early : Bool
  ripple : List Ripple
  /-- derived tables that act from the next accepted edge (R133) -/
  next : Option (List Ripple)
  /-- unwrapped angle up to which missing teeth have been counted (R98) -/
  fill : Rat
  /-- GUARD in force since the last accepted edge (R138, R142) -/
  guard : Nat
  /-- φ before the jumps of a HALF cycle, with that cycle (R142) -/
  jumpOld : Option (Nat × Int)
  deriving DecidableEq, Repr

/-- Learning and segment bookkeeping of a half (R143 to R153). -/
structure Learn where
  weAll : Bool
  ripAll : Bool
  /-- timestamp of the last segment boundary, if the running segment is to be written -/
  segT : Option Nat
  segN : Nat
  segBad : Bool
  /-- NSEG and ANCHOR in use since the last cycle-start mark -/
  nseg : Nat
  anchor : Nat
  /-- the tooth log entry written last: its tick, its number, what it held before (R152) -/
  logOld : Option (Nat × (Nat × Word))
  deriving DecidableEq, Repr

/-- A request that one unit has sent to another and that is still on its way (R16): to the Mule (R305),
a converter (R260), an accumulator (R266), a timer (R237), a Colt engine (R295), the PWM channels
(R246), a stream buffer (R343);
`issue`: when an urgent request was issued (R262); where a timer sent it, that timer's number (R240). -/
inductive Send where
  | mule (src line : Nat)
  | urgent (h : Half) (e tick issue : Nat) (timer : Option Nat)
  | accOpen (h : Half) (a tick : Nat) (timer : Option Nat)
  | accClose (h : Half) (a tick : Nat) (timer : Option Nat)
  | timer (n : Nat) (src : ArmSource) (tick : Nat)
  | colt (e : Nat)
  | pwmSync (mask : Word)
  | stream (b n : Nat)
  deriving DecidableEq, Repr

/-- One crank repeat output (R97, R98): its position count, its level before INV, its last rise, its next fall, the tick
of a rise that waits for the forced fall. -/
structure Crko where
  pos : Nat
  high : Bool
  riseT : Option Nat
  fallT : Nat
  lateT : Option Nat
  deriving DecidableEq, Repr

/-- Where the occurrence of an event channel stands (R163 to R172). -/
inductive Occ where
  | none
  | pending
  | slot
  | deferred
  | launched
  deriving DecidableEq, Repr

/-- The values of an occurrence (R158, R162, R163). -/
structure Vals where
  action : Nat
  target : Nat
  anchor : Nat
  offset : Int
  endAngle : Bool
  endVal : Nat
  profile : Nat
  param : Nat
  off : Bool
  deriving DecidableEq, Repr

/-- One event channel (R156 to R178). Times are absolute with 16 fraction bits of a tick. -/
structure Chan where
  occ : Occ
  /-- unwrapped anchor passage of the pending occurrence, AU -/
  pass : Option Int
  /-- anchor passage of the earlier occurrence since armed (R161) -/
  prev : Option Int
  /-- predicted time of the angle-defined target -/
  pred : Option Nat
  /-- the time of the anchor passage, once it is fixed (R162) -/
  fixed : Option Nat
  /-- φ − CULIM at the instant from which the first occurrence counts (R161) -/
  org : Option Rat
  /-- coefficients of the next tooth pass (R414) -/
  coef : Option (Rat × Rat)
  /-- values frozen at the slot take, or at the issue of an ACC_WIN start (R163) -/
  vals : Option Vals
  slot : Option Nat
  /-- tick of the slot take (R179) -/
  slotT : Option Nat
  /-- holder channel into whose slot this occurrence is booked (R169) -/
  booked : Option Nat
  /-- the start at the ball, or the issue tick -/
  start : Nat
  /-- fine part of the edge launched last, in taps of 1/32 tick (R136, R247) -/
  fine : Nat
  /-- the voter passed the start edge (R24) -/
  passed : Bool
  /-- the GAO output was enabled as the start edge passed (R78) -/
  live : Bool
  /-- end edge launched, on its way to the voter -/
  ending : Bool
  /-- the end: fixed or predicted -/
  endT : Option Nat
  /-- unwrapped end target (KIND 1) -/
  endA : Option Int
  /-- held at the clamp since this tick (R172) -/
  waitT : Option Nat
  /-- late start to be issued when φ reaches this unwrapped angle (R171, CATCHUP) -/
  lateAt : Option Rat
  /-- predicted start of a deferred occurrence, in ticks (R209) -/
  deferT : Option Nat
  /-- of a deferred occurrence: the channel of the earlier shot, and E1 once it is fixed (R209) -/
  after : Option Nat
  e1 : Option Nat
  /-- first occurrence after RUN or LIMP entry, not tested yet (R171) -/
  first : Bool
  /-- what the action message carries: the degrade bit and the correction (R207) -/
  degrade : Bool
  corr : Int
  /-- restrikes in the action message of an IGN occurrence (R226) -/
  restrikes : Nat
  deriving DecidableEq, Repr

/-- One open or waiting permit of the Gander (R366, R367): its centre C, its half-width W and the speed
ω_G in AU per tick as they stood when the window opened. -/
structure Permit where
  chan : Nat
  openNow : Bool
  centre : Rat
  w : Rat
  omega : Rat
  /-- the window past C − W: 2 W + L, and DEFER_MAX × ω_G for a DRV start -/
  len : Rat
  deriving DecidableEq, Repr

/-- One Gander checker (R363 to R366). Its times are ticks of the model's one clock. -/
structure Gander where
  sync : Bool
  phk : Bool
  idx : Nat
  cands : List Cand
  p1 : Option Nat
  lastT : Option Nat
  lastRev : Bool
  /-- the last two accepted edges -/
  tPrev : Nat
  period : Nat
  v0 : Nat
  v1 : Nat
  rejRev : Nat
  /-- edges one path accepted while the other lacks sync (R365) -/
  lead : Nat
  leadPrim : Nat
  /-- an edge reported by one path only, with its tick: true if the primary reported it -/
  waiting : Option (Bool × Nat)
  lost : Bool
  permits : List Permit
  silent : Bool
  /-- source bookkeeping of its own (R363): consecutive errors and good edges of each cam, phase-cam edges
  since its last crank edge, cam-based LIMP with the last LIMPCAM entry -/
  camBad : List (Nat × Nat)
  camGood : List (Nat × Nat)
  camSince : Nat
  camLimp : Bool
  limpEntry : Option Nat
  /-- the watch for missing cam edges: the tick it runs from, and the entries matched ahead of their end (the cam,
  the entry) -/
  watchT : Option Nat
  seen : List (Nat × Nat)
  /-- its angle at the last accepted edge, AU within the cycle; the last interval in AU, and the next -/
  ang : Nat
  d : Nat
  dNext : Nat
  deriving DecidableEq, Repr

/-- One passed actuation of the output voter (R367): its channel, the tick of its start, M in DRIVE
cycles, and its end rule: the end angle with its half-width, or the bounds of the count. -/
structure Passed where
  chan : Nat
  start : Nat
  m : Nat
  endA : Option (Nat × Rat)
  lo : Nat
  hi : Nat
  /-- the end edge has passed: the count goes on to the last restrike (R226) -/
  ended : Bool
  deriving DecidableEq, Repr

/-- The phase of a shot (R202); `closing`: ended, the closing search runs or is awaited (R218). -/
inductive ShotPhase where
  | idle
  | boost
  | transFast
  | transSlow
  | peak
  | hold
  | decay
  deriving DecidableEq, Repr

/-- The shot that runs, or ran last, on a bank (R202 to R221), with the settings frozen at its start
edge (R206) and what its result record will hold. -/
structure Shot where
  chan : Nat
  ls : Nat
  prof : Nat
  pboost : Word
  ppeak : Word
  phold : Word
  pcfg : Word
  pdiag : Word
  pneedle : Word
  phyd : Word
  diag : Word
  /-- MINCHOP of the bank in ticks -/
  minChop : Nat
  pos : Nat
  corr : Int
  durDem : Int
  start : Nat
  endT : Nat
  degraded : Bool
  lateboost : Bool
  deferred : Bool
  bankOff : Bool
  cut : Bool
  refresh : Bool
  holdTmo : Bool
  openLoad : Bool
  ttpLong : Bool
  ttpShort : Bool
  oc : Bool
  vdsLs : Bool
  vdsHsv : Bool
  vdsHsb : Bool
  boosted : Bool
  ttp : Option Nat
  /-- start of the running phase, in ticks; start of the peak TIME, then of the hold TIME -/
  phaseT : Nat
  peakT : Nat
  nextHold : Bool
  knee : Option Nat
  closeKnee : Option Nat
  /-- the closing arm point (R218) -/
  armT : Option Nat
  /-- result record still to be written; the search has ended -/
  record : Bool
  searchDone : Bool
  deriving DecidableEq, Repr

/-- One gate of a bank (R198 to R201): its level from tick `since` on, the level before it; the tick from which BLANK
counts, that of the last turn-on; the tick from which the 5 ms of R198 count; the tick it went off last. -/
structure Gate where
  on : Bool
  was : Bool
  since : Nat
  onT : Nat
  fullT : Nat
  offT : Nat
  deriving DecidableEq, Repr

/-- One bank (R196 to R222): the gates, the phase, the shot. -/
structure Bank where
  phase : ShotPhase
  shot : Option Shot
  hsb : Gate
  hsv : Gate
  inj : Gate
  /-- monitors active (R216): HSB, HSV, LS -/
  monHsb : Bool
  monHsv : Bool
  monLs : Bool
  /-- end of the last shot (R209) -/
  lastEnd : Option Nat
  /-- fast decay of an ended shot still runs (R202) -/
  decaying : Bool
  deriving DecidableEq, Repr

/-- The boost converter of a half (R212 to R215). -/
structure Boost where
  gate : Bool
  softT : Option Nat
  uvT : Option Nat
  deriving DecidableEq, Repr

/-- One IGN output (R224 to R230). -/
structure Ign where
  high : Bool
  dwellT : Option Nat
  /-- configuration frozen at the start edge (R229) -/
  cfg : Word
  ms : Word
  /-- restrikes: number in the message, next step due, recharging -/
  nMsg : Nat
  left : Nat
  nextT : Option Nat
  recharging : Bool
  softoff : Bool
  /-- the running ramp: its begin and its length in ticks (R227, R229) -/
  rampT : Nat
  rampTk : Nat
  /-- tick of the last spark, and whether it was to be followed by restrikes (R230) -/
  sparkT : Option Nat
  /-- the end edge of the present occurrence switches nothing (R225, R230) -/
  ignoreEnd : Bool
  deriving DecidableEq, Repr

/-- A demand commit in CHECKING or PENDING, as one half holds it (R183 to R188). -/
structure Commit where
  /-- the committed, and so locked, groups of this half -/
  groups : Byte
  /-- the tick from which they are locked: a commit reaches the other half over the cross-link (R184) -/
  lockT : Nat
  cross : Bool
  lead : Bool
  apply : Nat
  /-- the TIME value taken at COMMIT -/
  tick : Nat
  /-- unwrapped angle of an ANGLE commit -/
  target : Int
  /-- ANG_SPEED of this half at the start of the checks (R190) -/
  speed : Word
  /-- waits under R79 -/
  waits : Bool
  /-- end of this half's checks, and their failure: code, channel, slot -/
  checkEnd : Option Nat
  fail : Option (Nat × Option Nat × Option Nat)
  /-- PENDING -/
  checked : Bool
  late : Bool
  reached : Bool
  /-- the tick at which the switch is due, once it is fixed in time -/
  fixedT : Option Nat
  /-- the COMMIT reached the block at or after the return of the heartbeat (R194) -/
  ends : Bool
  deriving DecidableEq, Repr

/-- The configuration transaction from its COMMIT on (R76 to R80). -/
structure Ctx where
  count : Nat
  apply : Nat
  tick : Nat
  target : Int
  /-- ANG_SPEED of both halves at COMMIT (R191) -/
  speedA : Word
  speedB : Word
  waits : Bool
  checkEnd : Option Nat
  late : Bool
  reached : Bool
  deriving DecidableEq, Repr

/-- Everything of one half that no register holds (R9). -/
structure HalfSt where
  mode : HMode
  prev : HMode
  enabled : Bool
  sense : Sense
  wheel : Wheel
  track : Track
  learn : Learn
  chans : List (Nat × Chan)
  /-- occurrences that hold an actuation slot: slot number and channel -/
  slots : List (Nat × Nat)
  lastInternal : Option Nat
  /-- output edge lanes that carry an edge: the tick at which each is free again, and the delay-line code of its edge
  (R14, R247) -/
  lanes : List (Nat × Nat)
  /-- angle-step compares (R93, R95): the pending firing's tick, the last firing's tick, the unwrapped angle of
  ASC_NEXT -/
  ascPend : List (Nat × Nat)
  ascLast : List (Nat × Nat)
  ascAt : List (Nat × Int)
  crko : List (Nat × Crko)
  gander : Gander
  passed : List (Nat × Passed)
  commit : Option Commit
  banks : List (Nat × Bank)
  boost : Boost
  ign : List (Nat × Ign)
  /-- tick of the last fault reaction that named the half or the device (R29) -/
  reactT : Option Nat
  deriving DecidableEq, Repr

/-- One waiting or running urgent request (R260 to R263). -/
structure Urg where
  entry : Nat
  tick : Nat
  /-- tick from which the 237.5 ns count: the source tick, or the issue of a late event (R262) -/
  base : Nat
  /-- the timer that asked, if one did (R240, R263) -/
  timer : Option Nat
  deriving DecidableEq, Repr

/-- One converter (R257 to R262): the entry it converts, the pass, urgent work. -/
structure Conv where
  entry : Nat
  pass : Nat
  start : Nat
  waiting : List Urg
  urgent : Option Urg
  urgStart : Nat
  /-- sequence settings in use in this pass (R258) -/
  len : Nat
  en : Bool
  seq : List Word
  /-- the code of a plausibility conversion that waits for the other of its pair (R259) -/
  pl : Option Nat
  deriving DecidableEq, Repr

/-- A closed window whose record is still to be written (R268). -/
structure AccRec where
  sum : Nat
  cnt : Nat
  min : Nat
  max : Nat
  openT : Nat
  closeT : Nat
  incomplete : Bool
  sat : Bool
  disturb : Bool
  deriving DecidableEq, Repr

/-- One accumulator's running window and filter (R265 to R272); `sample` is the pre-stage result on
its way: value v, hold tick, whether the filter clipped. -/
structure Acc where
  isOpen : Bool
  sum : Nat
  cnt : Nat
  min : Nat
  max : Nat
  openT : Nat
  sat : Bool
  disturb : Bool
  /-- closed windows whose records are not yet written, oldest first (R268) -/
  closing : List AccRec
  sample : Option (Nat × Nat × Bool)
  u1 : Int
  u2 : Int
  y1 : Int
  y2 : Int
  /-- latches of the high halves (R269): the record's and the running sum's, per port -/
  recLatch : List (Nat × Nat)
  runLatch : List (Nat × Nat)
  recSum : Nat
  /-- the record sum before the last record write, and the tick of that write (R269) -/
  oldSum : Nat
  recT : Option Nat
  deriving DecidableEq, Repr

/-- An armed timer (R237, R238): the tick at which it fires, whether that fire is LATE, its fire tick, the code of its
arm source, the tick of the arm. -/
structure TmrArm where
  due : Nat
  late : Bool
  fire : Nat
  src : Nat
  armed : Nat
  deriving DecidableEq, Repr

/-- The last fire of a timer (R241): its tick, the arm that fired, TMR_STAT before it. -/
structure TmrFire where
  at' : Nat
  arm : TmrArm
  stat : Word
  deriving DecidableEq, Repr

/-- A compare set and period that take effect within a period (R245). -/
structure PwmSet where
  from' : Nat
  rise : Word
  fall : Word
  per : Nat
  deriving DecidableEq, Repr

/-- One PWM channel (R242 to R249): the active set, the running period, and the output of its number. Instants of edges
are in taps of 78.125 ps. -/
structure Pwm where
  per : Nat
  rise : Word
  fall : Word
  psc : Nat
  imm : Bool
  reloadT : Nat
  /-- tick at which the period ends -/
  endT : Nat
  /-- level of the output where nothing forces it -/
  level : Bool
  /-- output held until the next reload after a trip clear or HALT -/
  held : Bool
  /-- channel 2p: the fields of its pair in force -/
  comp : Bool
  dtr : Nat
  dtf : Nat
  minp : Nat
  stretch : Bool
  /-- tick from which the set in force is in force -/
  setT : Nat
  /-- set that takes effect within the period -/
  next : Option PwmSet
  /-- ticks of the last write to RISE or FALL, and to PER -/
  pairT : Option Nat
  perT : Option Nat
  /-- instants of the last rise and the last fall of the output -/
  riseAt : Nat
  fallAt : Nat
  /-- edges of the output still to come from what ended before: a delayed or moved edge of an earlier set or period, the
  rise after the dead time at a reload -/
  riseDue : Option Nat
  fallDue : Option Nat
  /-- delay-line code in force (R247) -/
  dl : Nat
  deriving DecidableEq, Repr

/-- One SENT receiver (R274 to R281). Lengths are in SYS cycles. -/
structure Sent where
  lastEdge : Option Nat
  /-- none: a calibration pulse comes next; otherwise the intervals taken after it -/
  pos : Option Nat
  calStart : Nat
  cal : Nat
  prevCal : Option Nat
  nibbles : List Nat
  /-- serial bits (bit 3, bit 2) collected, oldest first -/
  serial : List (Bool × Bool)
  /-- what the data registers held before their last write, and the tick of that write (R279) -/
  oldData : Word
  dataT : Option Nat
  oldSer : Word
  serT : Option Nat
  deriving DecidableEq, Repr

/-- What a STOP abandoned: its SYS cycle, in which the engine may still make an engine cycle, the state code and the rest of
the state (R297). -/
structure ColtStop where
  cyc : Nat
  state : Nat
  atEntry : Bool
  shifting : Nat
  blocked : Bool
  waiting : Bool
  tests : Nat
  pace : Bool
  trigp : Bool
  deriving DecidableEq, Repr

/-- The changes of COLT_GFLAG in one SYS cycle (R296): the cycle, the flags at its start, and the changes in order, each with
its rank (0 the bus, then the engines) and the flags it sets, clears and toggles. -/
structure FlagCycle where
  cyc : Nat
  start : Word
  ops : List (Nat × (Word × (Word × Word)))
  deriving DecidableEq, Repr

/-- One Colt engine (R282 to R301). -/
structure Colt where
  pc : Nat
  ex : BitVec 64
  /-- next engine cycle enters a state (fetch) -/
  atEntry : Bool
  /-- shift bits still to go -/
  shifting : Nat
  /-- a blocking transfer still to be made -/
  blocked : Bool
  /-- the wait has begun; its failed tests, the edge seen, the pins at its last engine cycle -/
  waiting : Bool
  tests : Nat
  edgeSeen : Bool
  lastPins : BitVec 16
  ca : Nat
  cb : Nat
  tsr : Word
  rsr : Word
  outN : Nat
  inN : Nat
  tx : List Word
  rx : List Word
  /-- entries each FIFO held before the bus accesses of a SYS cycle, with that cycle (R293) -/
  txOld : Option (Nat × Nat)
  rxOld : Option (Nat × Nat)
  trigp : Bool
  /-- SYS cycle in which TRIGP was set (R295) -/
  trigT : Option Nat
  pace : Bool
  /-- the injection that is pending, with the SYS cycle of its upper write (R300) -/
  inj : Option (BitVec 64 × Nat)
  injExec : Bool
  /-- the staging register: entry and lower word (R299) -/
  stage : Option (Nat × Word)
  /-- the entries committed in a SYS cycle, and their words before (R299) -/
  commit : Option (Nat × List (Nat × BitVec 64))
  /-- SYS cycle of the next engine cycle (R283), and the SYS cycles to it that HALT holds (R298) -/
  nextC : Nat
  froze : Option Nat
  /-- SYS cycle of the last START, and of the last TRIG test that failed (R301) -/
  startC : Option Nat
  trigFail : Option Nat
  /-- what the last STOP abandoned (R297) -/
  stop : Option ColtStop
  deriving DecidableEq, Repr

/-- One Mule channel (R303 to R313): its unserved requests by SYS cycle of arrival, the set as it was loaded, the
burst: its size, the bytes read and how many of them are written. -/
structure Mule where
  reqs : List Nat
  /-- SYS cycle of the last request (R305) -/
  lastReq : Option Nat
  active : Bool
  src : Nat
  dst : Nat
  len : Nat
  inBurst : Bool
  size : Nat
  buf : List Byte
  done : Nat
  readback : Bool
  /-- SYS cycle of the last end of a set, and whether it loaded the shadow set (R315) -/
  bound : Option (Nat × Bool)
  deriving DecidableEq, Repr

/-- One queued IRQ message (R325). -/
structure IrqMsg where
  src : Nat
  prio : Nat
  tgt : Nat
  seq : Nat
  /-- SYS cycle in which it was queued -/
  cyc : Nat
  deriving DecidableEq, Repr

/-- The interrupt controller (R316 to R326); bit n of a mask is source n. -/
structure Irq where
  pend : BitVec 256
  en : BitVec 256
  /-- active sources per pin target: target, source, priority -/
  active : List (Nat × Nat × Nat)
  /-- sources already sent since their pending bit rose -/
  sent : BitVec 256
  queue : List IrqMsg
  /-- number of the next message of each message target -/
  seqs : List (Nat × Nat)
  /-- raisings on their way to the controller (R16) -/
  raised : List Nat
  /-- sources raised within a SYS cycle, with that cycle (R8, R320) -/
  fresh : Option (Nat × BitVec 256)
  deriving DecidableEq, Repr

/-- What the last bus access answered (R382): an error, or the word read. -/
structure Answer where
  err : Bool
  data : Word
  deriving DecidableEq, Repr

/-- AON phase memory of a half (R42 to R47): the index handed over with its direction, the signature and the
length of the table it counts on; the signed count; the direction source with its settings as STANDBY began (DIRSRC,
FWD_LVL, SNS_DIRCFG) and that tick; `settled`: edges may wake; `recent`: the edges of the last second, each with its
tick, true where forward. -/
structure PhaseMem where
  index : Option Nat
  rev : Bool
  sig : Word
  len : Nat
  count : Int
  ovf : Bool
  dirErr : Bool
  src : Nat
  fwdLvl : Bool
  dirCfg : Word
  entryT : Nat
  settled : Bool
  recent : List (Nat × Bool)
  deriving DecidableEq, Repr

/-- One device frame (R336): its class (0: the STATUS that begins after UP, with RESTART), TYPE and payload, the
SEQ it has once sent, the failures it had (R334). -/
structure OutFrame where
  prio : Nat
  type : Byte
  payload : List Byte
  seq : Option Byte
  tries : Nat
  /-- tick at which its K29.7 has been sent -/
  endT : Nat
  deriving DecidableEq, Repr

/-- One stream buffer (R343): the bytes added since it was enabled, those not yet sent, whether FLUSH asks for a
frame. -/
structure Stream where
  added : Nat
  unsent : Nat
  due : Bool
  /-- the additions that hold unsent bytes, oldest first: the count after each, and its tick -/
  adds : List (Nat × Nat)
  deriving DecidableEq, Repr

/-- One response of the SPI host port (R350). -/
structure SpiResp where
  cmd : BitVec 4
  status : Nat
  fcnt : Nat
  fault : Bool
  hl : Bool
  msg : Bool
  data : Word
  deriving DecidableEq, Repr

/-- The times of the link (R329, R334, R340, R342, R354): the last K28.5 received, the entry to DOWN, when the transmitter
may begin a frame, the last periodic STATUS, the last NAK FULL, the acceptance of the heartbeats that wait; characters since
the K27.7 of the frame being received, characters left of an answer inserted into it; the end of the flash command that
runs and the bytes that it shifts out. -/
structure LinkTime where
  commaT : Nat
  downT : Nat
  lineT : Nat
  statT : Nat
  nakT : Nat
  hbAt : List Nat
  frameC : Option Nat
  skip : Nat
  nvlEnd : Nat
  flashOut : List Byte
  deriving DecidableEq, Repr

/-- The Afavo link, the SPI host port, the heartbeat (R327 to R351). -/
structure Link where
  /-- ALIGN, UP, the steady zero after DOWN (R329) -/
  align : Bool
  up : Bool
  hold : Bool
  commas : Nat
  /-- characters received since UP, and the numbers of those that were errors -/
  chars : Nat
  errs : List Nat
  /-- the expected SEQ, and the accepted frames that wait; false: their REG_RSP is discarded (R333, R335) -/
  rxExp : Byte
  rx : List (Bool × Frame)
  txSeq : Byte
  /-- frames that wait, and frames sent but not acknowledged, oldest first; `resend`: how many of the newest of
  these are to be sent again (R334) -/
  txq : List OutFrame
  unacked : List OutFrame
  resend : Nat
  /-- answers that wait: SEQ and CODE -/
  answers : List (Byte × Byte)
  nakFull : Option Byte
  /-- the bytes of the last frame or answer sent: header and payload, or the answer's four characters -/
  sent : List Byte
  streams : List (Nat × Stream)
  /-- the last heartbeat, or the opening of the first window; the bounds of the running window in ticks
  (R345, R348) -/
  lastHb : Option Nat
  hbFirst : Option Nat
  hbMin : Nat
  hbMax : Nat
  /-- the start of a host loss; the marks of each half in its running grace (R346); the end of the last loss
  (R194) -/
  lossT : Option Nat
  graceA : Option Nat
  graceB : Option Nat
  hbValidT : Option Nat
  /-- the response to the last frame, and what the last frame shifted out (R350) -/
  spiResp : SpiResp
  spiOut : SpiResp
  /-- the SEQ of the NVM_PASS that waits for the flash; false: its REG_RSP is discarded (R335, R354) -/
  nvmFor : Option (Bool × Byte)
  time : LinkTime
  deriving DecidableEq, Repr

/-- What stood at the start of the present cycles, where a change of the same cycle must not be seen yet (R8, R11,
R92, R142, R182, R195): the registers at the start of the HALF cycle (one tick) and of the SYS cycle (two ticks),
in both with the software writes of the cycle; the W1C flags that hardware set once more while they stood, per
register with the tick; the halves at the start of the HALF cycle. -/
structure Snap where
  regs : List (Nat × Word)
  sys : List (Nat × Word)
  again : List (Nat × (Nat × Word))
  a : HalfSt
  b : HalfSt
  deriving DecidableEq, Repr

/-- Everything of the block but the RAM and the queue of commands. -/
structure Dev where
  regs : List (Nat × Word)
  grade : Grade
  mode : Mode
  timeRun : Bool
  timeBase : Tick
  freeCtr : Nat
  a : HalfSt
  b : HalfSt
  answer : Answer
  /-- power-up: stopped by a code, the bus runs (step 3 ended), RESET_N holds step 1 and with it the sequence
  that has begun (R41), a debug request is held -/
  stopped : Bool
  busRun : Bool
  waitReset : Bool
  heldUp : Option (Nat × PowerUp)
  /-- outputs that were on at a reset, until the sentinel ends them (R40): the half, the unit (a bank, or 16 more
  than an IGN output), whether its ending runs -/
  driven : List (Half × Nat × Bool)
  /-- the present power-up follows a wake, so that it reads the phase memory (R39) -/
  fromWake : Bool
  debugReq : Bool
  svcKey : Option (Master × Nat)
  /-- AON (R42 to R47) -/
  pmA : PhaseMem
  pmB : PhaseMem
  wakeOut : Bool
  wakeReq : Bool
  /-- key slot, staged key, trim page cells, wear counter (R68, R73) -/
  keySlot : Option (List Byte)
  keyUndef : Bool
  keyStage : List Byte
  keyBusy : Bool
  trimCells : List Byte
  wear : Nat
  /-- image in use: sections (type, scope, offset, length, CRC) and ball functions (R57, R60) -/
  sections : List (Nat × Nat × Nat × Nat × Word)
  pins : List (Nat × Nat)
  ctx : Option Ctx
  ctxOwner : Option Master
  /-- TMB_HI latches and ANG_ANGTIME latches per port (R236, R142) -/
  tmbLatch : List (Nat × Word)
  angLatch : List (Nat × Word)
  /-- armed timers: the tick at which each fires, and whether that is late (R238, R241) -/
  fireT : List (Nat × TmrArm)
  /-- the last fire of each timer (R241) -/
  firedT : List (Nat × TmrFire)
  pwm : List (Nat × Pwm)
  pwmForce : Bool
  pwmHalt : Bool
  dlBad : Bool
  convs : List (Nat × Conv)
  accs : List (Nat × Acc)
  sent : List (Nat × Sent)
  colt : List (Nat × Colt)
  /-- what one SYS cycle makes of COLT_GFLAG (R296) -/
  gflagOld : Option FlagCycle
  mule : List (Nat × Mule)
  irq : Irq
  sends : List Send
  link : Link
  /-- reactions (R355 to R362): DEVICE level in force, last detection, recovery permit, sentinel -/
  devSafe : Bool
  lastFault : Option Nat
  recover : Bool
  /-- SYS cycle of the last counted HALF reactions, and how many it counted (R357) -/
  halfReact : Option (Nat × Nat)
  sentinel : Bool
  hbRun : Bool
  hbSince : Nat
  laneFault : Bool
  safeReq : Bool
  pllStop : Bool
  /-- the built-in tests that run (R376) -/
  tests : BitVec 5
  /-- cross-link valid on each half's receive side (R373) -/
  xlkA : Bool
  xlkB : Bool
  /-- the start of the present cycles, once the time base has moved (log 13) -/
  snap : Option Snap
  deriving DecidableEq, Repr

/-- The state of the block. -/
structure State where
  dev : Dev
  /-- the RAM regions (R384), unlisted bytes 0 -/
  ram : List Host.Cell
  /-- the commands that wait, first in first out -/
  pending : List Instr
  deriving DecidableEq, Repr

/-- The answer of every command. -/
abbrev Out := Host.Outcome State Fault Refusal

namespace Init

def front : Front := ⟨none, none, none⟩
def sense : Sense := ⟨[], none, none, false, none, none, [], front, [], false, false, []⟩
def wheel : Wheel :=
  ⟨[], none, 0, 0, 0, 0, [], [], [], [], 0, 0, 0, true, false, false, false, 0, false, false⟩
def track : Track :=
  ⟨0, 0, 0, 0, 0, 0, 0, 0, 0, 0, 0, 0, 0, 0, 0, 0, 0, 0, 0, 0, false, false, 0, 0, false, false, false,
    false, [], none, 0, 0, none⟩
def crko : Crko := ⟨0, false, none, 0, none⟩
def learn : Learn := ⟨false, false, none, 0, false, 0, 0, none⟩
def chan : Chan :=
  { occ := .none, pass := none, prev := none, pred := none, fixed := none, org := none, coef := none, vals := none
    slot := none, slotT := none, booked := none, start := 0, fine := 0, passed := false, live := false, ending := false, endT := none
    endA := none, waitT := none, lateAt := none, deferT := none, after := none, e1 := none, first := false
    degrade := false, corr := 0, restrikes := 0 }
def gander : Gander :=
  ⟨false, false, 0, [], none, none, false, 0, 0, 0, 0, 0, 0, 0, none, false, [], false, [], [], 0,
    false, none, none, [], 0, 0, 0⟩
def gate : Gate := ⟨false, false, 0, 0, 0, 0⟩
def bank : Bank := ⟨.idle, none, gate, gate, gate, false, false, false, none, false⟩
def boost : Boost := ⟨false, none, none⟩
def ign : Ign := ⟨false, none, 0, 0, 0, 0, none, false, false, 0, 0, none, false⟩
def half : HalfSt :=
  ⟨.off, .off, false, sense, wheel, track, learn, [], [], none, [], [], [], [], [], gander, [], none,
    [], boost, [], none⟩
def conv : Conv := ⟨0, 0, 0, [], none, 0, 1, false, [], none⟩
def acc : Acc :=
  ⟨false, 0, 0, 0xFFFFFFFF, 0, 0, false, false, [], none, 0, 0, 0, 0, [], [], 0, 0, none⟩
def pwm : Pwm :=
  ⟨0x7FFFFFF, 0xFFFFFFFF, 0xFFFFFFFF, 0, false, 0, 0, false, false, false, 0, 0, 0, false, 0, none, none, none, 0, 0,
    none, none, 0⟩
def sent : Sent := ⟨none, none, 0, 0, none, [], [], 0, none, 0, none⟩
def colt : Colt :=
  ⟨0, 0, true, 0, false, false, 0, false, 0, 0, 0, 0, 0, 0, 0, [], [], none, none, false, none, false, none,
    false, none, none, 0, none, none, none, none⟩
def mule : Mule := ⟨[], none, false, 0, 0, 0, false, 0, [], 0, false, none⟩
def irq : Irq := ⟨0, 0, [], 0, [], [], [], none⟩
def phaseMem : PhaseMem := ⟨none, false, 0, 0, 0, false, false, 0, false, 0, 0, false, []⟩
def spiResp : SpiResp := ⟨0, 0, 0, false, false, false, 0⟩
def linkTime : LinkTime := ⟨0, 0, 0, 0, 0, [], none, 0, 0, []⟩
def link : Link :=
  ⟨false, false, false, 0, 0, [], 0, [], 0, [], [], 0, [], none, [], [], none, none, 0, 0, none, none, none,
    none, spiResp, spiResp, none, linkTime⟩
def stream : Stream := ⟨0, 0, false, []⟩

end Init

/-- The block right after a power-on reset: BOOT before step 1 (R25, R39), every register at the reset
value of its heading, the halves not operating, AON state lost. -/
def State.reset : State :=
  { dev :=
      { regs := []
        grade := .tzn5120
        mode := .boot
        timeRun := false
        timeBase := 0
        freeCtr := 0
        a := Init.half
        b := Init.half
        answer := ⟨false, 0⟩
        stopped := false
        busRun := false
        waitReset := false
        heldUp := none
        driven := []
        fromWake := false
        debugReq := false
        svcKey := none
        pmA := Init.phaseMem
        pmB := Init.phaseMem
        wakeOut := false
        wakeReq := false
        keySlot := none
        keyUndef := false
        keyStage := []
        keyBusy := false
        trimCells := []
        wear := 0
        sections := []
        pins := []
        ctx := none
        ctxOwner := none
        tmbLatch := []
        angLatch := []
        fireT := []
        firedT := []
        pwm := []
        pwmForce := false
        pwmHalt := false
        dlBad := false
        convs := []
        accs := []
        sent := []
        colt := []
        gflagOld := none
        mule := []
        irq := Init.irq
        sends := []
        link := Init.link
        devSafe := false
        lastFault := none
        recover := false
        halfReact := none
        sentinel := false
        hbRun := false
        hbSince := 0
        laneFault := false
        safeReq := false
        pllStop := false
        tests := 0
        xlkA := true
        xlkB := true
        snap := none }
    ram := []
    pending := [] }

end Sys2Proof.Machine
end

