-- ==== Sys2Proof/Machine/Ops.lean ====
section
/-! DEFINITION. The named operations over registers, memory, hidden tables, time and free values. -/

namespace Sys2Proof.Machine

open Sys2Proof

/-! ### Sparse tables: key and value pairs, keys rising, no entry equal to its default -/

/-- The value at a key, if listed. -/
def sparseFind {α : Type} : List (Nat × α) → Nat → Option α
  | [], _ => none
  | (k', v) :: m, k => if k = k' then some v else sparseFind m k

/-- The value at a key, the default where unlisted. -/
def sparseGet {α : Type} (d : α) (m : List (Nat × α)) (k : Nat) : α := (sparseFind m k).getD d

/-- The table without a key. -/
def sparseErase {α : Type} : List (Nat × α) → Nat → List (Nat × α)
  | [], _ => []
  | (k', v) :: m, k => if k = k' then sparseErase m k else (k', v) :: sparseErase m k

/-- The table with a key set, in order of keys. -/
def sparseInsert {α : Type} : List (Nat × α) → Nat → α → List (Nat × α)
  | [], k, v => [(k, v)]
  | (k', v') :: m, k, v =>
    if k < k' then (k, v) :: (k', v') :: m
    else if k = k' then (k, v) :: m
    else (k', v') :: sparseInsert m k v

/-- The table with a key set; the default value removes the entry. -/
def sparseSet {α : Type} [DecidableEq α] (d : α) (m : List (Nat × α)) (k : Nat) (v : α) :
    List (Nat × α) :=
  if v = d then sparseErase m k else sparseInsert m k v

/-- Keys strictly rising. -/
def sparseSorted {α : Type} : List (Nat × α) → Bool
  | [] => true
  | [_] => true
  | (k, _) :: (k', v') :: m => decide (k < k') && sparseSorted ((k', v') :: m)

/-! ### Memory (R384): bytes, little-endian words -/

/-- What a byte that nothing has written reads as (log 5). -/
def ramDefault : Byte := 0

/-- The canonical form of the memory: addresses strictly rising, no byte equal to the default. -/
def Memory.wf (m : List Host.Cell) : Bool :=
  sparseSorted m && m.all fun c => decide (c.2 ≠ ramDefault)

/-- One byte of the memory (DESIGN CHOICE, log 5). -/
def Memory.byte (m : List Host.Cell) (a : Nat) : Byte := sparseGet ramDefault m a

/-- The memory with one byte written. -/
def Memory.setByte (m : List Host.Cell) (a : Nat) (b : Byte) : List Host.Cell :=
  sparseSet ramDefault m a b

/-- The word at an address. -/
def Memory.word (m : List Host.Cell) (a : Nat) : Word :=
  wordOf (Memory.byte m a) (Memory.byte m (a + 1)) (Memory.byte m (a + 2)) (Memory.byte m (a + 3))

/-- The memory with bytes written from an address on. -/
def Memory.setBytes (m : List Host.Cell) (a : Nat) : List Byte → List Host.Cell
  | [] => m
  | b :: bs => Memory.setBytes (Memory.setByte m a b) (a + 1) bs

/-- The memory with a word written. -/
def Memory.setWord (m : List Host.Cell) (a : Nat) (v : Word) : List Host.Cell :=
  Memory.setBytes m a (wordBytes v)

/-- `n` bytes from an address on. -/
def Memory.bytes (m : List Host.Cell) (a n : Nat) : List Byte :=
  (List.range n).map fun i => Memory.byte m (a + i)

/-- The memory with every byte of a range back at its default. -/
def Memory.clear (m : List Host.Cell) (a n : Nat) : List Host.Cell :=
  m.filter fun c => !decide (a ≤ c.1 ∧ c.1 < a + n)

/-- The memory with bytes written from an address on, all below `a + bs.length` first cleared: the
load of a long block, in one pass. -/
def Memory.load (m : List Host.Cell) (a : Nat) (bs : List Byte) : List Host.Cell :=
  let new : List Host.Cell :=
    (bs.zipIdx.map fun p => (a + p.2, p.1)).filter fun c => decide (c.2 ≠ ramDefault)
  (m.filter fun c => decide (c.1 < a)) ++ new ++ m.filter fun c => decide (a + bs.length ≤ c.1)

/-! ### Registers (R5 to R7) -/

namespace Dev

/-- The stored word of a register. -/
def rd (d : Dev) (a : Nat) : Word := sparseGet (regReset a) d.regs a

/-- A register with its stored word set. -/
def wr (d : Dev) (a : Nat) (v : Word) : Dev :=
  { d with regs := sparseSet (regReset a) d.regs a v }

/-- A field of a register. -/
def f (d : Dev) (a : Nat) (x : Fld) : Nat := getF (d.rd a) x

/-- A one-bit field of a register. -/
def bit (d : Dev) (a : Nat) (x : Fld) : Bool := getB (d.rd a) x

/-- A field of a register replaced. -/
def setF (d : Dev) (a : Nat) (x : Fld) (n : Nat) : Dev := d.wr a (putF (d.rd a) x n)

/-- A one-bit field of a register replaced. -/
def setB (d : Dev) (a : Nat) (x : Fld) (b : Bool) : Dev := d.wr a (putB (d.rd a) x b)

/-- A count field raised by one, wrapping. -/
def incF (d : Dev) (a : Nat) (x : Fld) : Dev := d.setF a x (d.f a x + 1)

/-- A count field raised by one, saturating at its top. -/
def satF (d : Dev) (a : Nat) (x : Fld) : Dev :=
  d.setF a x (satInc (2 ^ (x.hi + 1 - x.lo) - 1) (d.f a x))

/-! ### Time (R235) -/

/-- The start of the cycles in which a tick lies: as it was while the tick does not move (log 13). -/
def snapAt (d : Dev) (t : Tick) : Option Snap :=
  if t = d.timeBase then d.snap
  else
    let sys := match d.snap with
      | some s => if t.toNat / 2 = d.timeBase.toNat / 2 then s.sys else d.regs
      | none => d.regs
    let again := match d.snap with
      | some s => if t.toNat / 2 = d.timeBase.toNat / 2 then s.again else []
      | none => []
    some ⟨d.regs, sys, again, d.a, d.b⟩

/-- The time base stands at a tick. -/
def moveTo (d : Dev) (t : Tick) : Dev := { d with timeBase := t, snap := d.snapAt t }

/-- A command occurs at its tick: the time base stands there, if it runs and had not passed it (DESIGN CHOICE, log
1). -/
def advance (d : Dev) (t : Tick) : Dev :=
  if d.timeRun && decide (d.timeBase.toNat ≤ t.toNat) then d.moveTo t else d

/-- One tick of the time base, where it runs (R124) (DESIGN CHOICE, log 1). -/
def tick (d : Dev) : Dev := if d.timeRun then d.moveTo (d.timeBase + 1) else d

/-- The present tick. -/
def now (d : Dev) : Nat := d.timeBase.toNat

/-- Bits 31:0 of a tick, as registers hold them (R124). -/
def lo32 (t : Nat) : Word := BitVec.ofNat 32 t

/-- Bits 63:32 of a tick. -/
def hi32 (t : Nat) : Word := BitVec.ofNat 32 (t / 2 ^ 32)

/-! ### The present cycle (R8, R11) -/

/-- Whether a register's island has cycles of one tick: HALF and TIME; the others count in SYS cycles here (DESIGN CHOICE, log 13). -/
def tickCycle (a : Nat) : Bool :=
  decide (0x30000 ≤ a ∧ a < 0x50000) || decide (0x80000 ≤ a ∧ a < 0x100000 ∧ a % 0x40000 < 0x30000)

/-- The word of a register before what hardware did to it in the present cycle. -/
def oldRd (d : Dev) (a : Nat) : Word :=
  match d.snap with
  | some s => sparseGet (regReset a) (if tickCycle a then s.regs else s.sys) a
  | none => d.rd a

/-- The hidden state of a half at the start of the present HALF cycle. -/
def oldHalf (d : Dev) (h : Half) : HalfSt :=
  match d.snap, h with
  | some s, .a => s.a
  | some s, .b => s.b
  | none, .a => d.a
  | none, .b => d.b

/-- The W1C flags that hardware set once more in the present cycle. -/
def againNow (d : Dev) (a : Nat) : Word :=
  match d.snap with
  | some s =>
    match sparseFind s.again a with
    | some (t, w) => if t = d.now ∨ (tickCycle a = false ∧ t / 2 = d.now / 2) then w else 0
    | none => 0
  | none => 0

/-- The bits of a register that hardware set in the present cycle: a software clear leaves them (R8). -/
def hwSet (d : Dev) (a : Nat) : Word := (d.rd a &&& ~~~(d.oldRd a)) ||| d.againNow a

/-- What hardware added to a count field in the present cycle: it stays where software clears the count (R11). -/
def since (d : Dev) (a : Nat) (x : Fld) : Nat := d.f a x - getF (d.oldRd a) x

/-- A register written by software: the start of the cycle shows the written word. -/
def rebase (d : Dev) (a : Nat) (v : Word) : Dev :=
  { d with snap := d.snap.map fun s => { s with
      regs := sparseSet (regReset a) s.regs a v, sys := sparseSet (regReset a) s.sys a v } }

/-! ### Free values -/

/-- Take a fresh draw: its number and the state past it (log 2). -/
def draw (d : Dev) : Nat × Dev := (d.freeCtr, { d with freeCtr := d.freeCtr + 1 })

/-! ### Halves -/

/-- The hidden state of a half (DESIGN CHOICE, log 64). -/
def half (d : Dev) : Half → HalfSt
  | .a => d.a
  | .b => d.b

/-- The device with the hidden state of a half replaced. -/
def setHalf (d : Dev) (h : Half) (s : HalfSt) : Dev :=
  match h with
  | .a => { d with a := s }
  | .b => { d with b := s }

/-- The hidden state of a half changed by a function. -/
def onHalf (d : Dev) (h : Half) (g : HalfSt → HalfSt) : Dev := d.setHalf h (g (d.half h))

/-- An event channel of a half. -/
def chan (d : Dev) (h : Half) (c : Nat) : Chan := sparseGet Init.chan (d.half h).chans c

/-- An event channel replaced. -/
def setChan (d : Dev) (h : Half) (c : Nat) (x : Chan) : Dev :=
  d.onHalf h fun s => { s with chans := sparseSet Init.chan s.chans c x }

/-- A bank of a half. -/
def bank (d : Dev) (h : Half) (b : Nat) : Bank := sparseGet Init.bank (d.half h).banks b

/-- A bank replaced. -/
def setBank (d : Dev) (h : Half) (b : Nat) (x : Bank) : Dev :=
  d.onHalf h fun s => { s with banks := sparseSet Init.bank s.banks b x }

/-- An IGN output of a half. -/
def ign (d : Dev) (h : Half) (k : Nat) : Ign := sparseGet Init.ign (d.half h).ign k

/-- An IGN output replaced. -/
def setIgn (d : Dev) (h : Half) (k : Nat) (x : Ign) : Dev :=
  d.onHalf h fun s => { s with ign := sparseSet Init.ign s.ign k x }

/-- An accumulator; Half B's are numbered from 64 (DESIGN CHOICE, log 64). -/
def acc (d : Dev) (h : Half) (a : Nat) : Acc :=
  sparseGet Init.acc d.accs (match h with | .a => a | .b => 64 + a)

/-- An accumulator replaced. -/
def setAcc (d : Dev) (h : Half) (a : Nat) (x : Acc) : Dev :=
  { d with accs := sparseSet Init.acc d.accs (match h with | .a => a | .b => 64 + a) x }

/-- A converter; Half B's are numbered from 2 (DESIGN CHOICE, log 64). -/
def conv (d : Dev) (h : Half) (k : Nat) : Conv :=
  sparseGet Init.conv d.convs (match h with | .a => k | .b => 2 + k)

/-- A converter replaced. -/
def setConv (d : Dev) (h : Half) (k : Nat) (x : Conv) : Dev :=
  { d with convs := sparseSet Init.conv d.convs (match h with | .a => k | .b => 2 + k) x }

/-- The half named by bit 0 (0 A, 1 B). -/
def halfNo : Half → Nat
  | .a => 0
  | .b => 1

/-- Whether a half operates: OPERATE or HALT, and enabled by the image. -/
def operating (d : Dev) : Bool := decide (d.mode = .operate ∨ d.mode = .halt)

/-- The half mode. -/
def hmode (d : Dev) (h : Half) : HMode := (d.half h).mode

/-- Whether a half holds full sync: RUN or LIMP (R173). -/
def issuing (d : Dev) (h : Half) : Bool := decide (d.hmode h = .run ∨ d.hmode h = .limp)

/-- Whether a half tracks between teeth: PHASE, RUN or LIMP (R137). -/
def tracking (d : Dev) (h : Half) : Bool :=
  decide (d.hmode h = .phase ∨ d.hmode h = .run ∨ d.hmode h = .limp)

/-- Whether a half is in IDLE or SAFE (R74). -/
def idleOrSafe (d : Dev) (h : Half) : Bool := decide (d.hmode h = .idle ∨ d.hmode h = .safe)

/-- A half is absent: not enabled by the image, or Half B on a TZN-5110 (R2). -/
def absent (d : Dev) (h : Half) : Bool := !(d.half h).enabled

end Dev

/-- A meaning that changes no RAM: the command's effect on the device at its tick (DESIGN CHOICE, log 1). -/
def State.onDev (s : State) (t : Tick) (g : Dev → Dev) : Out :=
  .next { s with dev := g (s.dev.advance t) }

/-- A meaning that may change RAM as well. -/
def State.onBoth (s : State) (t : Tick) (g : Dev → List Host.Cell → Dev × List Host.Cell) : Out :=
  let r := g (s.dev.advance t) s.ram
  .next { s with dev := r.1, ram := r.2 }

end Sys2Proof.Machine
end

