-- ==== Sys2Proof/Machine/Flags.lean ====
section
/-! DEFINITION. Status flags and the interrupt sources that rise with them. -/

namespace Sys2Proof.Machine

open Sys2Proof

namespace Dev

/-- A source raised: the raising is on its way to the controller (R16, R316). -/
def raise (d : Dev) (n : Nat) : Dev := { d with irq := { d.irq with raised := d.irq.raised ++ [n] } }

/-- The number of a half's source: Half B sources are the Half A sources plus 0x60 (R317). -/
def srcOf (h : Half) (n : Nat) : Nat := match h with | .a => n | .b => n + 0x60

/-- A half's source raised. -/
def raiseH (d : Dev) (h : Half) (n : Nat) : Dev := d.raise (srcOf h n)

/-- A W1C flag that stands is set once more: recorded with the tick, for a clear of this cycle (R8). -/
def again (d : Dev) (a : Nat) (x : Fld) : Dev :=
  { d with snap := d.snap.map fun s => { s with
      again := sparseInsert s.again a (d.now, putB (d.againNow a) x true) } }

/-- A W1C flag set by hardware. -/
def mark (d : Dev) (a : Nat) (x : Fld) : Dev := if d.bit a x then d.again a x else d.setB a x true

/-- A flag set; a flag that rises raises a source. -/
def flag (d : Dev) (a : Nat) (x : Fld) (n : Nat) : Dev :=
  if d.bit a x then d.again a x else (d.setB a x true).raise n

/-- A flag cleared by software: one that hardware set in this cycle stays (R8). -/
def clrFlag (d : Dev) (a : Nat) (x : Fld) : Dev :=
  (d.setB a x (getB (d.hwSet a) x)).rebase a (putB (d.oldRd a) x false)

/-- A count cleared by software: what hardware added in this cycle stays (R11). -/
def clrCount (d : Dev) (a : Nat) (x : Fld) : Dev := (d.setF a x (d.since a x)).rebase a (putF (d.oldRd a) x 0)

/-- A flag set; a flag that rises raises a source of the half. -/
def flagH (d : Dev) (h : Half) (a : Nat) (x : Fld) (n : Nat) : Dev := d.flag a x (srcOf h n)

/-- A bit of a W1C mask with one bit per unit set. -/
def setBitN (d : Dev) (a i : Nat) : Dev := d.mark a ⟨i, i⟩

/-- The code of a half mode in ANG_MODE; `off` reads IDLE there and 0x7 in SYS_MODE (R26, R51). -/
def modeCode : HMode → Nat
  | .idle => 0
  | .seek => 1
  | .phase => 2
  | .run => 3
  | .limp => 4
  | .rundown => 5
  | .safe => 6
  | .off => 7

/-- The half modes in force under the start-up regime (R89). -/
def serviceRegime (m : HMode) (afterSafe : Bool) : Bool :=
  match m with
  | .run => !afterSafe
  | .limp => true
  | _ => false

/-- A new frame queued for the link, while it is UP (R335, R336): class, TYPE and payload (corners DEDUCED, log 49). -/
def queueFrame (d : Dev) (prio : Nat) (type : Byte) (payload : List Byte) : Dev :=
  if d.link.up then
    { d with link := { d.link with txq := d.link.txq ++ [⟨prio, type, payload, none, 0, 0⟩] } }
  else d

/-- A STATUS frame queued for a reason; one that waits takes the newest reason (R342). Its values are
taken when it is sent (corners DEDUCED, log 52). -/
def queueStatus (d : Dev) (reason : Byte) : Dev :=
  if d.link.txq.any fun x => decide (x.type = 0x31) then
    { d with link := { d.link with txq := d.link.txq.map fun x =>
        if x.type = 0x31 then { x with payload := [reason] } else x } }
  else d.queueFrame 4 0x31 [reason]

/-- A half mode entered: the mode before it is kept (ANG_MODE.PREV), the regime of R89 follows, and a
STATUS is due (R342). -/
def setMode (d : Dev) (h : Half) (m : HMode) : Dev :=
  let d1 := (d.onHalf h fun s => { s with prev := s.mode, mode := m }).queueStatus 2
  d1.setB (Reg.SNS_STAT h) F.SNS_STAT_REGIME (serviceRegime m (d1.half h).wheel.afterSafe)

end Dev

end Sys2Proof.Machine
end

