-- ==== Sys2Proof/Machine/Angle.lean ====
section
/-! DEFINITION. The angle model of a half: wheel and cam tables, corrected edge angles, ripple,
prediction, observer, interpolation (R100 to R106, R124 to R140, R143). Angles are unwrapped, so a
cycle angle is the remainder by the cycle length. -/

namespace Sys2Proof.Machine

open Sys2Proof

/-! ### Tables -/

/-- One revolution in AU (R100). -/
def rev : Nat := 5898240

namespace Dev

/-- NENT (R100). -/
def nent (d : Dev) (h : Half) : Nat := d.f (Reg.WHL_WCFG h) F.WHL_WCFG_NENT

/-- A 720° cycle (R100). -/
def cyc720 (d : Dev) (h : Half) : Bool := d.bit (Reg.WHL_WCFG h) F.WHL_WCFG_CYC720

/-- The cycle length in AU (R100). -/
def cycLen (d : Dev) (h : Half) : Nat := if d.cyc720 h then 2 * rev else rev

/-- L, the crank edges per cycle (R100). -/
def edges (d : Dev) (h : Half) : Nat := if d.cyc720 h then 2 * d.nent h else d.nent h

/-- Wheel table entry i, the index taken modulo NENT. -/
def wtab (d : Dev) (h : Half) (i : Nat) : Word := d.rd (Reg.WHL_WTAB h (i % max 1 (d.nent h)))

/-- Revolution angle of entry i. -/
def wAng (d : Dev) (h : Half) (i : Nat) : Nat := getF (d.wtab h i) F.WHL_WTAB_ANGLE

/-- GAP of entry i. -/
def wGap (d : Dev) (h : Half) (i : Nat) : Bool := getB (d.wtab h i) F.WHL_WTAB_GAP

/-- The table interval d(i, i + 1), indices modulo NENT (R101). -/
def dTab (d : Dev) (h : Half) (i : Nat) : Nat :=
  let x := d.wAng h (i + 1)
  let y := d.wAng h i
  if y < x then x - y else x + rev - y

/-- The entry before i. -/
def predEnt (d : Dev) (h : Half) (i : Nat) : Nat := (i + d.nent h - 1) % max 1 (d.nent h)

/-- The lower factor of a window class (R105). -/
def winLo (d : Dev) (h : Half) (c : Nat) : Rat :=
  ofN (getF (d.rd (Reg.WHL_WWIN h)) ⟨8 * c + 2, 8 * c⟩ + 2) / 8

/-- The upper factor of a window class (R105). -/
def winHi (d : Dev) (h : Half) (c : Nat) : Rat :=
  1 + ofN (getF (d.rd (Reg.WHL_WWIN h)) ⟨8 * c + 7, 8 * c + 3⟩ + 1) / 8

/-- RCLASS of entry i. -/
def wClass (d : Dev) (h : Half) (i : Nat) : Nat := getF (d.wtab h i) F.WHL_WTAB_RCLASS

/-- The length of the gap after entry g in pitches: m, of which m − 1 teeth are missing (R103). -/
def gapM (d : Dev) (h : Half) (g : Nat) : Nat :=
  (roundUp (ofN (d.dTab h g) / ofN (max 1 (d.dTab h (d.predEnt h g))))).toNat

/-- The reference tooth: the first entry with REF (R102). -/
def refEnt (d : Dev) (h : Half) : Option Nat :=
  (List.range (d.nent h)).find? fun i => getB (d.wtab h i) F.WHL_WTAB_REF

/-- The number of entries of a cam's table (R104). -/
def camN (d : Dev) (h : Half) (c : Nat) : Nat := getF (d.rd (Reg.WHL_CAMN h)) ⟨8 * c + 5, 8 * c⟩

/-- Whether the input times edges to a level of a cam (SNS_CFG.CAM_EDGE). -/
def camTimes (d : Dev) (h : Half) (c : Nat) (level : Bool) : Bool :=
  match getF (d.rd (Reg.SNS_CFG h)) ⟨2 * c + 17, 2 * c + 16⟩ with
  | 0 => level
  | 1 => !level
  | _ => true

/-- The timed entries of a cam: table index, angle, level (R104). -/
def camEntries (d : Dev) (h : Half) (c : Nat) : List (Nat × Nat × Bool) :=
  ((List.range (min 32 (d.camN h c))).map fun j =>
    let w := d.rd (Reg.WHL_CAMTAB h c j)
    (j, getF w F.WHL_CAMTAB_ANGLE, getB w F.WHL_CAMTAB_LEVEL)).filter fun e => d.camTimes h c e.2.2

/-- The signature of the tables (R121) (corners DEDUCED, log 57). -/
def signature (d : Dev) (h : Half) : Word :=
  let ws := [d.rd (Reg.WHL_WCFG h)] ++
    (List.range (d.nent h)).map (fun i => d.rd (Reg.WHL_WTAB h i)) ++ [d.rd (Reg.WHL_CAMN h)] ++
    (List.range 4).flatMap fun c =>
      (List.range (min 32 (d.camN h c))).map fun j => d.rd (Reg.WHL_CAMTAB h c j)
  crc32 (ws.flatMap wordBytes)

end Dev

/-- The base address of a half's learned tables (R143). -/
def learnBase : Half → Nat
  | .a => 0x310000
  | .b => 0x310C00

/-- The base address of a half's tooth log (R150). -/
def logBase : Half → Nat
  | .a => 0x300000
  | .b => 0x308000

/-- W[k], signed, units of 1/256 AU (R143). -/
def wErr (m : List Host.Cell) (h : Half) (k : Nat) : Int :=
  let a := learnBase h + 2 * k
  ((Memory.byte m (a + 1)) ++ (Memory.byte m a)).toInt

/-- P[j], signed, scale 2⁻⁴⁴ AU/tk² (R143). -/
def pRip (m : List Host.Cell) (h : Half) (j : Nat) : Int :=
  (Memory.word m (learnBase h + 0x400 + 4 * j)).toInt

/-- W[k] written. -/
def setW (m : List Host.Cell) (h : Half) (k : Nat) (v : Int) : List Host.Cell :=
  let w := BitVec.ofInt 16 v
  Memory.setBytes m (learnBase h + 2 * k) [w.extractLsb' 0 8, w.extractLsb' 8 8]

/-- P[j] written. -/
def setP (m : List Host.Cell) (h : Half) (j : Nat) (v : Int) : List Host.Cell :=
  Memory.setWord m (learnBase h + 0x400 + 4 * j) (wordOfInt v)

namespace Dev

/-- The corrected angle of cycle edge k within the cycle (R132). -/
def edgeAng (d : Dev) (m : List Host.Cell) (h : Half) (k : Nat) : Rat :=
  let n := max 1 (d.nent h)
  ofN (d.wAng h (k % n) + rev * (k / n)) + (wErr m h k : Rat) / 256

/-- The corrected interval from cycle edge k to the next (R132, R133). -/
def dEdge (d : Dev) (m : List Host.Cell) (h : Half) (k : Nat) : Rat :=
  let k' := (k + 1) % max 1 (d.edges h)
  let x := d.edgeAng m h k' - d.edgeAng m h k
  if x ≤ 0 then x + ofN (d.cycLen h) else x

end Dev

/-! ### The ripple tables (R133) -/

/-- The entry of an angle and the cycles passed before it: entries start at the first edge's angle. -/
def ripFind (cyc : Rat) (l : List Ripple) (x : Rat) : Option (Ripple × Rat × Int) :=
  match l with
  | [] => none
  | r0 :: _ =>
    let n := ((x - r0.a) / cyc).floor
    let y := x - (n : Rat) * cyc
    let r := l.foldl (fun acc r => if r.a ≤ y then r else acc) r0
    some (r, y - r.a, n)

/-- V at an angle. -/
def ripV (cyc : Rat) (l : List Ripple) (x : Rat) : Rat :=
  match ripFind cyc l x with
  | none => 0
  | some (r, u, _) => r.v + r.p * u

/-- P at an angle. -/
def ripP (cyc : Rat) (l : List Ripple) (x : Rat) : Rat :=
  match ripFind cyc l x with
  | none => 0
  | some (r, _, _) => r.p

/-- U over one whole cycle. -/
def ripUL (cyc : Rat) (l : List Ripple) : Rat :=
  match l, l.getLast? with
  | r0 :: _, some r => let u := r0.a + cyc - r.a; r.u + r.v * u + r.p * u * u / 2
  | _, _ => 0

/-- U at an angle, with U_L added for each cycle passed. -/
def ripU (cyc : Rat) (l : List Ripple) (x : Rat) : Rat :=
  match ripFind cyc l x with
  | none => 0
  | some (r, u, n) => r.u + r.v * u + r.p * u * u / 2 + (n : Rat) * ripUL cyc l

/-- V and U derived from P over the cycle (R133). -/
def deriveRipple (d : Dev) (m : List Host.Cell) (h : Half) : List Ripple :=
  let ps := (List.range (d.edges h)).map fun j => pRip m h j
  if ps.all (· == 0) then []
  else
    ((ps.zipIdx).foldl
      (fun (acc : List Ripple × Rat × Rat) pj =>
        let p : Rat := (pj.1 : Rat) / pow2Q 44
        let x := d.dEdge m h pj.2
        (acc.1 ++ [⟨d.edgeAng m h pj.2, p, acc.2.1, acc.2.2⟩], acc.2.1 + p * x,
          acc.2.2 + acc.2.1 * x + p * x * x / 2))
      ([], 0, 0)).1

/-! ### The prediction model (R134, R135) -/

/-- The observer's rounding (R127) (DESIGN CHOICE, log 6). -/
def obs (x : Rat) : Rat := roundSig Config.obsBits x

/-- A state of the model: θ, ω, α; times count from its reference time. -/
structure Model where
  theta : Rat
  omega : Rat
  alpha : Rat
  cyc : Rat
  rip : List Ripple

/-- ρ of a target (R134). -/
def Model.rho (x : Model) (tgt : Rat) : Rat :=
  if x.rip.isEmpty || decide (x.omega = 0) then 0
  else
    (ripU x.cyc x.rip tgt - ripU x.cyc x.rip x.theta -
      (tgt - x.theta) * ripV x.cyc x.rip x.theta) / (x.omega * x.omega)

/-- One Newton step from τ (R135): none where fdot ≤ ω / 8. -/
def Model.newton (x : Model) (delta rho tau : Rat) : Option Rat :=
  let fd := x.omega + x.alpha * tau
  if fd ≤ x.omega / 8 then none
  else some (obs (tau - (x.omega * tau + x.alpha * tau * tau / 2 + rho - delta) / fd))

/-- The model speed at τ and at an angle (R134, R137). -/
def Model.speed (x : Model) (tau phi : Rat) : Rat :=
  x.omega + x.alpha * tau +
    (if x.rip.isEmpty || decide (x.omega = 0) then 0
     else (ripV x.cyc x.rip phi - ripV x.cyc x.rip x.theta) / x.omega)

/-- The two Newton steps to a target from a seed: the times after the first and the second; none where the model would
not reach the target (R135). -/
def Model.steps (x : Model) (tgt : Rat) (seed : Option Rat) : Option (Rat × Rat) :=
  let delta := tgt - x.theta
  let rho := x.rho tgt
  if decide (x.omega ≤ 0) || decide (x.omega * x.omega + 2 * x.alpha * (delta - rho) < 0) then none
  else
    match x.newton delta rho (seed.getD (delta / x.omega)) with
    | none => none
    | some t1 => (x.newton delta rho t1).map fun t2 => (t1, t2)

/-- The linear estimate of R135; at a speed of 0, which reaches no target, the largest time of R136 (corners DEDUCED, log
31). -/
def Model.linear (x : Model) (tgt : Rat) : Rat :=
  if x.omega ≤ 0 then pow2Q 40 else (tgt - x.theta - x.rho tgt) / x.omega

/-- The time of a target: two Newton steps from a seed, or the linear estimate and true (LINFB, R135). -/
def Model.predict (x : Model) (tgt : Rat) (seed : Option Rat) : Rat × Bool :=
  match x.steps tgt seed with
  | some t => (t.2, false)
  | none => (x.linear tgt, true)

/-- The coefficients of the next tooth pass (R414): the residual-free second step, and the response to the residual with
both derivatives at the result of the first step, for times counted from t_exp; `kb` is the change of θ, ω, α and t_prev
per tick. After a LINFB fallback the response is 0 (DESIGN CHOICE, log 73). -/
def Model.coefs (x : Model) (tgt seed : Rat) (kb : Rat × Rat × Rat × Rat) : (Rat × Rat) × Bool :=
  let delta := tgt - x.theta
  let rho := x.rho tgt
  match x.steps tgt (some seed) with
  | none => ((x.linear tgt, 0), true)
  | some (t1, t2) =>
    let fd := x.omega + x.alpha * t1
    let dth := 1 - delta * ripP x.cyc x.rip x.theta / (x.omega * x.omega)
    let dom := t1 - 2 * rho / x.omega
    let s := dth * kb.1 + dom * kb.2.1 + t1 * t1 / 2 * kb.2.2.1 - fd * kb.2.2.2
    ((t2, obs (-s / fd)), false)

/-! ### The observer (R126 to R130) -/

namespace Dev

/-- The tracker of a half. -/
def track (d : Dev) (h : Half) : Track := (d.half h).track

/-- The tracker of a half replaced. -/
def setTrack (d : Dev) (h : Half) (x : Track) : Dev := d.onHalf h fun s => { s with track := x }

/-- The wheel unit of a half replaced. -/
def setWheel (d : Dev) (h : Half) (x : Wheel) : Dev := d.onHalf h fun s => { s with wheel := x }

/-- The present state as a model. -/
def model (d : Dev) (h : Half) : Model :=
  let x := d.track h
  ⟨x.theta, x.omega, x.alpha, ofN (d.cycLen h), x.ripple⟩

/-- A speed in rpm as AU per tick (R125). -/
def rpmSpeed (n : Rat) : Rat := n * 24576 / 100000000

/-- A speed in AU per tick as rpm (R125). -/
def speedRpm (w : Rat) : Rat := w * 100000000 / 24576

/-- The gain band for a speed, coming from a band (R128). -/
def selectBand (d : Dev) (h : Half) (cur : Nat) (w : Rat) : Nat :=
  let up := fun n => rpmSpeed (ofN (d.f (Reg.ANG_BANDL h n) F.ANG_BANDL_UPPER))
  let lowest := ((List.range 7).find? fun n => decide (w < up n)).getD 7
  if lowest < cur ∧ up (cur - 1) * 31 / 32 ≤ w then cur else lowest

/-- The gains of the band in force (R128, R130); in cam-based LIMP KA is taken as 0 (R131). -/
def loadGains (d : Dev) (h : Half) (x : Track) : Track :=
  let g := Reg.ANG_BANDG h x.band
  let cam := d.bit (Reg.ANG_STAT h) F.ANG_STAT_LIMP_SRC
  { x with kt := d.f g F.ANG_BANDG_KT, kw := d.f g F.ANG_BANDG_KW, ka := if cam then 0 else d.f g F.ANG_BANDG_KA }

/-- A predicted offset as an absolute time with 16 fraction bits, saturating at 2⁴⁰ − 1 (R136). A result before the last
accepted edge is held as the time it names, its offset negative (DESIGN CHOICE, log 74). -/
def absTime (tPrev : Nat) (tau : Rat) : Nat :=
  let s := roundAway (tau * 65536)
  let top : Int := (2 ^ 40 - 1) * 65536
  ((tPrev : Int) * 65536 + (if top < s then top else s)).toNat

/-- GUARD taken into use, at an accepted edge (R142). -/
def loadGuard (d : Dev) (h : Half) (x : Track) : Track := { x with guard := d.f (Reg.ANG_CFG h) F.ANG_CFG_GUARD }

/-- The tracker with the expected arrival of the next edge, the model speed there and the clamp (R126, R136, R138); a
fallback sets LINFB (R135). -/
def expectNext (d : Dev) (h : Half) (tblD : Nat) (x : Track) : Dev :=
  let md : Model := ⟨x.theta, x.omega, x.alpha, ofN (d.cycLen h), x.ripple⟩
  let r := md.predict (x.ak + x.dk) none
  let d1 := d.setTrack h { x with
    tExp := absTime x.tPrev r.1
    omegaExp := obs (md.speed r.1 (x.ak + x.dk))
    clamp := roundAway ((x.ak + x.dk - ofN x.guard * ofN tblD / 256) * pow2Q 24) }
  if r.2 then d1.mark (Reg.ANG_STAT h) F.ANG_STAT_LINFB else d1

/-- ω at its limits (R127). -/
def satSpeed (w : Rat) : Rat :=
  let top : Rat := (2 ^ 32 - 1 : Nat) / pow2Q 24
  if w < 0 then 0 else if top < w then top else w

/-- The observer's update for an accepted edge at `t` whose corrected unwrapped angle is `ak` (R126,
R127). `useKa`, `useW` are false in cam-based LIMP where R131 says so. -/
def observe (x : Track) (ak : Rat) (t : Nat) (useKa useW : Bool) : Track :=
  let r : Rat := ofN t - ofN x.tExp / 65536
  let e : Rat := ofN x.tExp / 65536 - ofN x.tPrev
  let eps := obs (x.omegaExp * r)
  let th := obs (ak + eps - ofN x.kt / 1024 * eps)
  let om := obs (x.omegaExp - ofN x.kw / 1024 * eps / (if e = 0 then 1 else e))
  let al := obs (x.alpha - 2 * ofN x.ka / 4096 * eps / (if e = 0 then 1 else e * e))
  let alTop : Rat := (2 ^ 31 - 1 : Nat) / pow2Q 44
  { x with
    theta := th
    omega := if useW then satSpeed om else x.omega
    alpha := if useKa then (if al < -alTop then -alTop else if alTop < al then alTop else al) else x.alpha
    tPrev := t
    ak := ak
    resid := r }

/-- ANG_SPEED, ANG_ACCEL, ANG_RPM, ANG_RESID and ANG_TOOTH take the new values (R127) (DESIGN CHOICE, log 4;
DEDUCED, log 30). -/
def publish (d : Dev) (h : Half) : Dev :=
  let x := d.track h
  let sp := (roundAway (x.omega * pow2Q 24)).toNat
  let rpm := (roundAway (16 * ofN sp * 100000000 / (3 * pow2Q 37))).toNat
  ((((d.wr (Reg.ANG_SPEED h) (BitVec.ofNat 32 sp)).wr (Reg.ANG_ACCEL h)
    (wordOfInt (roundAway (x.alpha * pow2Q 44)))).wr (Reg.ANG_RPM h)
    (BitVec.ofNat 32 (min rpm 0xFFFFF))).wr (Reg.ANG_RESID h)
    (wordOfInt (clampI (-(2 ^ 31)) (2 ^ 31 - 1) (roundAway x.resid)))).wr (Reg.ANG_TOOTH h)
    (lo32 x.tPrev) |>.setF (Reg.ANG_STAT h) F.ANG_STAT_BAND x.band

/-! ### Interpolation (R137 to R139) -/

/-- One block of at most 16 HALF cycles, up to tick `t`; a catch-up ends where φ meets m or the clamp (R139). -/
def interpBlock (md : Model) (t : Nat) (x : Track) : Track :=
  if t ≤ x.atT then x
  else
    let off := (x.atT - x.base) % 16
    let inc :=
      if off = 0 then
        roundAway (posQ (md.speed (ofN x.atT - ofN x.tPrev) ((x.phi : Rat) / pow2Q 24)) * pow2Q 24)
      else x.inc
    let n := min (t - x.atT) (16 - off)
    let m := x.m + inc * n
    let p := if x.catching then min (x.phi + 4 * inc * n) m else max x.phi m
    let f := max x.phi (min p x.clamp)
    { x with
      inc := inc, m := m, phi := f, atT := x.atT + n
      catching := x.catching && decide (f < m ∧ f < x.clamp) }

/-- The interpolator advanced to tick `t` (corners DEDUCED, log 32). -/
def interpTo (md : Model) (t : Nat) (x : Track) : Track :=
  Nat.repeat (interpBlock md t) ((t - x.atT) / 16 + 2) x

/-- The interpolator of a half advanced to the present tick, where it runs (R137). -/
def interp (d : Dev) (h : Half) : Dev :=
  if d.tracking h then d.setTrack h (interpTo (d.model h) d.now (d.track h)) else d

/-- φ of a half at the present tick, unwrapped, AU. -/
def phi (d : Dev) (h : Half) : Rat := (((d.interp h).track h).phi : Rat) / pow2Q 24

/-- PHCAM of a cam (R113). -/
def phaseCam (d : Dev) (h : Half) (c : Nat) : Bool := getB (d.rd (Reg.WHL_CAMCFG h)) ⟨c, c⟩

/-- TOL in AU. -/
def tol (d : Dev) (h : Half) : Nat := 256 * d.f (Reg.WHL_CAMCFG h) F.WHL_CAMCFG_TOL

/-- A cycle angle in AU of an unwrapped angle. -/
def wrapA (cyc : Nat) (x : Rat) : Nat := (x.floor % (max 1 cyc : Nat)).toNat

/-- The angle among those a cycle apart that lies nearest another. -/
def nearest (cyc : Nat) (a x : Rat) : Rat :=
  a + (roundAway ((x - a) / ofN (max 1 cyc)) : Rat) * ofN (max 1 cyc)

/-- The next passage, at or after an unwrapped angle, of a cycle angle. -/
def nextPassage (cyc : Nat) (ang : Nat) (x : Rat) : Int :=
  let n := ((x - ofN ang) / ofN (max 1 cyc)).ceil
  (ang : Int) + n * (max 1 cyc : Nat)

end Dev

end Sys2Proof.Machine
end

