-- ==== Sys2Proof/Machine/Chan.lean ====
section
/-! DEFINITION. What every part of the event scheduler does with a channel: its values, the pending
occurrence, its times, slots, completion, drops and cuts (R156 to R177). -/

namespace Sys2Proof.Machine

open Sys2Proof

/-- The kinds of output an actuation can have (R157). -/
inductive Output where
  | gao (k : Nat)
  | ign (k : Nat)
  | ls (n : Nat)
  deriving DecidableEq, Repr

/-- The output of an action: GAO_SET to GAO_PULSE, IGN, DRV (R157). -/
def outputOf (action target : Nat) : Option Output :=
  if action = 5 then some (.ign target)
  else if action = 6 then some (.ls target)
  else if 1 ≤ action ∧ action ≤ 4 then some (.gao target)
  else none

/-- Whether an action is an actuation (R157). -/
def isActuation (action : Nat) : Bool := decide (1 ≤ action ∧ action ≤ 6)

/-- Whether an action has an end (R157). -/
def hasEnd (action : Nat) : Bool := decide (action = 4 ∨ action = 5 ∨ action = 6 ∨ action = 0xA)

/-- A number that names an output in `passed`: low-sides from 0, IGN from 0x100, GAO from 0x200. -/
def Output.key : Output → Nat
  | .ls n => n
  | .ign k => 0x100 + k
  | .gao k => 0x200 + k

/-- The unit that holds slots: the bank, the IGN output or the GAO output (R169). -/
def Output.unit : Output → Nat
  | .ls n => n / 2
  | .ign k => 0x100 + k
  | .gao k => 0x200 + k

/-- The demand slot that a control word names, if any (R158). -/
def slotOf (w : Word) : Option Nat :=
  let n := getF w F.EVC_CTRL_DSLOT
  if n < 128 then some n else none

/-- The values of a channel under a configuration `rd` and the demand words `dm` of its slot and word
number (R158, R181). -/
def valsOf (rd : Nat → Word) (dm : Nat → Nat → Word) (h : Half) (c : Nat) : Vals :=
  let w := rd (Reg.EVC_CTRL h c)
  let aux := rd (Reg.EVC_AUX h c)
  let q : Word × Word × Word × Nat × Bool :=
    match slotOf w with
    | some n =>
      (dm n 0, dm n 1, dm n 2, getF (dm n 3) F.DMD_FLAG_PROFILE, getB (dm n 3) F.DMD_FLAG_OFF)
    | none =>
      (rd (Reg.EVC_ANGLE h c), rd (Reg.EVC_OFFSET h c), rd (Reg.EVC_END h c),
        getF aux F.EVC_AUX_PROFILE, false)
  { action := getF w F.EVC_CTRL_ACTION
    target := getF w F.EVC_CTRL_TARGET
    anchor := getF q.1 F.EVC_ANGLE_ANGLE
    offset := q.2.1.toInt
    endAngle := getB q.2.2.1 F.EVC_END_KIND
    endVal := getF q.2.2.1 F.EVC_END_VAL
    profile := q.2.2.2.1
    param := getF aux F.EVC_AUX_PARAM
    off := q.2.2.2.2 }

namespace Dev

/-- The control word of a channel. -/
def ctrl (d : Dev) (h : Half) (c : Nat) : Word := d.rd (Reg.EVC_CTRL h c)

/-- EN of a channel. -/
def chEn (d : Dev) (h : Half) (c : Nat) : Bool := getB (d.ctrl h c) F.EVC_CTRL_EN

/-- ARMED of a channel. -/
def armed (d : Dev) (h : Half) (c : Nat) : Bool := d.bit (Reg.EVC_STAT h c) F.EVC_STAT_ARMED

/-- ACTION of a channel. -/
def chAction (d : Dev) (h : Half) (c : Nat) : Nat := getF (d.ctrl h c) F.EVC_CTRL_ACTION

/-- The demand slot a channel names, if any (R158). -/
def dslot (d : Dev) (h : Half) (c : Nat) : Option Nat := slotOf (d.ctrl h c)

/-- The values of a channel: from the active copy of its demand slot or its own words (R158, R181). -/
def vals (d : Dev) (h : Half) (c : Nat) : Vals :=
  valsOf d.rd (fun n w => d.rd (Reg.DMD_ANGLE_ACT h n + 4 * w)) h c

/-- The values an occurrence runs on: frozen at its slot take, else the present ones (R163). -/
def valsNow (d : Dev) (h : Half) (c : Nat) : Vals := (d.chan h c).vals.getD (d.vals h c)

/-- CULIM of a channel in AU (R161, R171). -/
def culim (d : Dev) (h : Half) (c : Nat) : Nat :=
  256 * d.f (Reg.EVC_LIMIT h c) F.EVC_LIMIT_CULIM

/-- Whether a channel is withheld in LIMP (R174). -/
def limpHeld (d : Dev) (h : Half) (c : Nat) : Bool :=
  decide (d.hmode h = .limp) &&
    (match getF (d.ctrl h c) F.EVC_CTRL_LIMP with
     | 0 => false
     | 1 => d.bit (Reg.ANG_STAT h) F.ANG_STAT_LIMP_SRC
     | _ => true)

/-- Whether a channel's events are issued: RUN or LIMP, not withheld (R173, R174). -/
def chIssues (d : Dev) (h : Half) (c : Nat) : Bool := d.issuing h && !d.limpHeld h c

/-- The anchor passage that R161 gives a channel: the first after the earlier one by more than half a cycle, or, as the
first, at or after φ − CULIM as it stood then. -/
def passageOf (d : Dev) (h : Half) (c : Nat) (org : Rat) : Int :=
  let cyc := d.cycLen h
  match (d.chan h c).prev with
  | some p => nextPassage cyc (d.vals h c).anchor ((p : Rat) + ofN (cyc / 2) + 1)
  | none => nextPassage cyc (d.vals h c).anchor org

/-- The pending occurrence chosen by R161. An active prediction stays until an evaluation ends (R414); what is fixed in
time, or prepared for the next pass, stays where the passage does (corners DEDUCED, log 34). -/
def choose (d : Dev) (h : Half) (c : Nat) : Dev :=
  let x := d.chan h c
  let org := x.org.getD (d.phi h - ofN (d.culim h c))
  let pass := d.passageOf h c org
  let same := decide (x.pass = some pass)
  (d.setChan h c { x with
    occ := .pending, pass := some pass, org := some org, pred := if x.occ = .pending then x.pred else none
    fixed := if same then x.fixed else none, coef := if same then x.coef else none, waitT := none
    lateAt := none }).setB (Reg.EVC_STAT h c) F.EVC_STAT_WAITING false

/-- A channel without a pending occurrence: EVC_PRED, FAR and WAITING read 0 (R165, R173). -/
def withhold (d : Dev) (h : Half) (c : Nat) : Dev :=
  let st := Reg.EVC_STAT h c
  (((d.setChan h c { d.chan h c with
    occ := .none, pass := none, pred := none, fixed := none, org := none, coef := none, waitT := none
    lateAt := none }).wr (Reg.EVC_PRED h c) 0).setB st F.EVC_STAT_FAR false).setB st F.EVC_STAT_WAITING false

/-- An occurrence that has neither a slot nor an issued start is chosen again or withheld (R161,
R173). -/
def rechoose (d : Dev) (h : Half) (c : Nat) : Dev :=
  match (d.chan h c).occ with
  | .slot | .deferred | .launched => d
  | _ => if d.armed h c && d.chEn h c && d.chIssues h c then d.choose h c else d.withhold h c

/-- The predicted start with 16 fraction bits, if it is known: the anchor passage and the offset (R162) (corners DEDUCED,
log 34). -/
def startTime (d : Dev) (h : Half) (c : Nat) : Option Int :=
  let x := d.chan h c
  (x.fixed.or x.pred).map fun p => (p : Int) + (d.valsNow h c).offset * 65536

/-- Whether the channel has an angle-defined target, and its unwrapped angle (R164). -/
def angleTarget (d : Dev) (h : Half) (c : Nat) : Option Int :=
  let x := d.chan h c
  match x.occ with
  | .none => none
  | .launched => if x.ending then none else x.endA
  | _ => if x.fixed.isSome then none else x.pass

/-- EVC_PRED and FAR follow the predicted start or end (R165) (corners DEDUCED, log 34). -/
def report (d : Dev) (h : Half) (c : Nat) : Dev :=
  let x := d.chan h c
  let tk : Option Nat :=
    match x.occ with
    | .none => none
    | .launched => x.endT.map (· / 65536)
    | _ => (d.startTime h c).map fun p => (p / 65536).toNat
  match tk with
  | none => d
  | some n =>
    (d.wr (Reg.EVC_PRED h c) (lo32 n)).setB (Reg.EVC_STAT h c) F.EVC_STAT_FAR
      (decide (x.occ ≠ .launched ∧ d.now + 2 ^ 32 ≤ n))

/-- A new prediction for the channel's target becomes active; a corrected angle end leaves at least 1 µs (R221). -/
def setPred (d : Dev) (h : Half) (c : Nat) (p : Nat) : Dev :=
  let x := d.chan h c
  let x' := match x.occ with
    | .launched =>
      let e := ((p : Int) + 4 * x.corr * 65536).toNat
      { x with pred := some p, endT := some (if x.corr = 0 then e else max e ((x.start + 400) * 65536)) }
    | _ => { x with pred := some p }
  (d.setChan h c x').report h c

/-- Both Newton steps on the present state for a channel, from a seed (R20, R135). -/
def evaluate (d : Dev) (h : Half) (c : Nat) (fresh : Bool) : Dev :=
  match d.angleTarget h c with
  | none => d
  | some a =>
    let x := d.chan h c
    let tp := (d.track h).tPrev
    let seed : Option Rat :=
      if fresh then none else x.pred.map fun p => ofN p / 65536 - ofN tp
    let r := (d.model h).predict (a : Rat) seed
    let d1 := d.setPred h c (absTime tp r.1)
    if r.2 then d1.mark (Reg.ANG_STAT h) F.ANG_STAT_LINFB else d1

/-! ### Slots (R169, R170) -/

/-- The number of slots in use, the peak (EVC_SUM). -/
def countSlots (d : Dev) (h : Half) : Dev :=
  let n := (d.half h).slots.length
  let d1 := d.setF (Reg.EVC_SUM h) F.EVC_SUM_INUSE n
  d1.setF (Reg.EVC_SUM h) F.EVC_SUM_PEAK (max n (d1.f (Reg.EVC_SUM h) F.EVC_SUM_PEAK))

/-- A slot given to a channel. -/
def giveSlot (d : Dev) (h : Half) (n c : Nat) : Dev :=
  (d.onHalf h fun s => { s with slots := sparseInsert s.slots n c }).countSlots h

/-- The slot of a channel freed. -/
def freeSlot (d : Dev) (h : Half) (c : Nat) : Dev :=
  match (d.chan h c).slot with
  | none => d
  | some n =>
    ((d.onHalf h fun s => { s with slots := sparseErase s.slots n }).setChan h c
      { d.chan h c with slot := none }).countSlots h

/-- The channel that is booked into a holder's slot (R169). -/
def bookedInto (d : Dev) (h : Half) (c : Nat) : Option Nat :=
  ((d.half h).chans.find? fun e => decide (e.2.booked = some c)).map (·.1)

/-- The slot of a channel passes to the occurrence booked into it, or is freed (R169). -/
def releaseSlot (d : Dev) (h : Half) (c : Nat) : Dev :=
  match (d.chan h c).slot, d.bookedInto h c with
  | some n, some j =>
    let d1 := d.setChan h c { d.chan h c with slot := none }
    let d2 := d1.setChan h j { d1.chan h j with slot := some n, booked := none }
    (d2.onHalf h fun s => { s with slots := sparseInsert s.slots n j }).countSlots h
  | _, _ => d.freeSlot h c

/-- The lowest free slot of the 48. -/
def findSlot (d : Dev) (h : Half) : Option Nat :=
  (List.range 48).find? fun n => (sparseFind (d.half h).slots n).isNone

/-- The channels that hold a slot on the unit of an output. -/
def holders (d : Dev) (h : Half) (u : Nat) : List Nat :=
  ((d.half h).slots.map (·.2)).filter fun c =>
    match outputOf (d.valsNow h c).action (d.valsNow h c).target with
    | some o => decide (o.unit = u)
    | none => false

/-! ### The end of an occurrence -/

/-- E1 of the starts that are deferred behind a channel's shot is fixed (R209). -/
def fixE1 (d : Dev) (h : Half) (c : Nat) (e : Nat → Nat) : Dev :=
  (d.half h).chans.foldl
    (fun d j =>
      if j.2.after = some c ∧ j.2.e1 = none then
        d.setChan h j.1 { d.chan h j.1 with e1 := some (e ((d.valsNow h j.1).target / 2)) }
      else d) d

/-- An earlier shot whose end is not launched any more: the bank counts from its last shot (R209). -/
def endOfEarlier (d : Dev) (h : Half) (c : Nat) : Dev := d.fixE1 h c fun b => (d.bank h b).lastEnd.getD 0

/-- An occurrence is over: its slot freed, its anchor passage kept as the earlier one, a single channel
disarmed, the next occurrence chosen (R160, R161). -/
def closeOcc (d : Dev) (h : Half) (c : Nat) : Dev :=
  let d0 := if (d.chan h c).occ = .deferred then
      d.setB (Reg.DRV_BANKSTAT h ((d.valsNow h c).target / 2)) F.DRV_BANKSTAT_DEFER_PEND false
    else d
  let d1 := d0.releaseSlot h c
  let x := d1.chan h c
  let d2 := (d1.setChan h c { Init.chan with prev := x.pass.or x.prev }).endOfEarlier h c
  let st := Reg.EVC_STAT h c
  let d3 := (d2.setB st F.EVC_STAT_INFLIGHT false).setB st F.EVC_STAT_WAITING false
  let d4 := if getB (d3.ctrl h c) F.EVC_CTRL_CYC then d3 else d3.setB st F.EVC_STAT_ARMED false
  d4.rechoose h c

/-- Bit EVT or DRP of EVC_GSTAT of a channel. -/
def evtBit (d : Dev) (h : Half) (c : Nat) : Bool :=
  d.bit (Reg.EVC_STAT h c) F.EVC_STAT_DONE &&
    (decide (d.chAction h c = 0) || getB (d.ctrl h c) F.EVC_CTRL_IE)

/-- DROP or CUT of a channel is set (EVC_GSTAT.DRP). -/
def drpBit (d : Dev) (h : Half) (c : Nat) : Bool :=
  d.bit (Reg.EVC_STAT h c) F.EVC_STAT_DROP || d.bit (Reg.EVC_STAT h c) F.EVC_STAT_CUT

/-- DONE set; the group's EVT source with its rising bit (R156, R167). -/
def markDone (d : Dev) (h : Half) (c : Nat) : Dev :=
  let was := d.evtBit h c
  let d1 := d.mark (Reg.EVC_STAT h c) F.EVC_STAT_DONE
  if d1.evtBit h c && !was then d1.raiseH h (c / 16) else d1

/-- An occurrence completes: DONE, and EVC_PRED takes the tick of its last edge (R165). -/
def complete (d : Dev) (h : Half) (c : Nat) (last : Nat) : Dev :=
  ((d.markDone h c).closeOcc h c).wr (Reg.EVC_PRED h c) (lo32 last)

/-- A drop or a cut with its reason (R176): the flags, the counts, the group's DROP source. -/
def markDrop (d : Dev) (h : Half) (c : Nat) (reason : Nat) (cut : Bool) : Dev :=
  let st := Reg.EVC_STAT h c
  let was := d.drpBit h c
  let d1 := (d.setF st F.EVC_STAT_REASON reason).mark st (if cut then F.EVC_STAT_CUT else F.EVC_STAT_DROP)
  let d2 := (d1.satF st F.EVC_STAT_DROPS).satF (Reg.EVC_SUM h) F.EVC_SUM_DROPTOT
  if was then d2 else d2.raiseH h (0x10 + c / 16)

/-- An occurrence dropped or cut and closed (R175, R176). -/
def dropOcc (d : Dev) (h : Half) (c : Nat) (reason : Nat) (cut : Bool) : Dev :=
  (d.markDrop h c reason cut).closeOcc h c

/-- The reasons of R176. -/
def rNOSLOT : Nat := 1
def rSKIPPED : Nat := 2
def rPASSED : Nat := 3
def rHELD : Nat := 4
def rBUSY : Nat := 5
def rSYNC : Nat := 6
def rRUNDOWN : Nat := 7
def rFAULT : Nat := 8
def rSAFEREQ : Nat := 9
def rHALT : Nat := 0xA
def rHOSTLOSS : Nat := 0xB
def rVOTE : Nat := 0xC
def rOVLP : Nat := 0xD
def rLOWBOOST : Nat := 0xE
def rLIMP : Nat := 0xF

/-- A channel starts over: its next occurrence is the first one, counted from now (R161). -/
def startOver (d : Dev) (h : Half) (c : Nat) (entry : Bool) : Dev :=
  let x := d.chan h c
  match x.occ with
  | .slot | .deferred | .launched => d
  | _ => (d.setChan h c { x with prev := none, org := none, first := entry }).rechoose h c

/-- A channel armed, if enabled: its first occurrence is chosen anew (R160, R161). -/
def arm (d : Dev) (h : Half) (c : Nat) : Dev :=
  if d.chEn h c && !d.armed h c then
    (d.setB (Reg.EVC_STAT h c) F.EVC_STAT_ARMED true).startOver h c false
  else d

end Dev

end Sys2Proof.Machine
end

