-- ==== Sys2Proof/Machine/Outputs.lean ====
section
/-! DEFINITION. The output stages and what a safe ending does to each of them (R199, R208, R216, R227,
R232, R240, R252, R263, R268, R270, R297, R298, R355). -/

namespace Sys2Proof.Machine

open Sys2Proof

/-- Ticks of a number of microseconds. -/
def usTk (n : Nat) : Nat := 400 * n

namespace Dev

/-! ### Banks -/

/-- The level of a gate at a tick. -/
def gateOn (g : Gate) (now : Nat) : Bool := if now < g.since then g.was else g.on

/-- A gate takes a level from a tick on; an off interval of at least 1 µs starts the 5 ms of R198 anew. -/
def setGate (g : Gate) (t : Nat) (on : Bool) : Gate :=
  let was := gateOn g t
  if on = g.on ∧ g.since ≤ t then g
  else if on then
    { on := true, was := was, since := t, onT := if was then g.onT else t
      fullT := if was then g.fullT else if g.offT + usTk 1 ≤ t then t else g.fullT, offT := g.offT }
  else { g with on := false, was := was, since := t, offT := if was then t else g.offT }

/-- All gates of a bank off now (R199). -/
def Bank.gatesOff (b : Bank) (now : Nat) : Bank :=
  { b with
    hsb := setGate b.hsb now false, hsv := setGate b.hsv now false, inj := setGate b.inj now false
    monHsb := false, monHsv := false, monLs := false }

/-- ACTIVE and ACT_LS of a bank follow its shot. -/
def bankStat (d : Dev) (h : Half) (b : Nat) : Dev :=
  let x := d.bank h b
  let act := decide (x.phase ≠ .idle ∧ x.phase ≠ .decay)
  let ls := match x.shot with | some s => s.ls % 2 | none => 0
  (d.setB (Reg.DRV_BANKSTAT h b) F.DRV_BANKSTAT_ACTIVE act).setF (Reg.DRV_BANKSTAT h b)
    F.DRV_BANKSTAT_ACT_LS (if act then ls else 0)

/-- The shot of a bank ends by fast decay at a tick (R202, R208); a shot that switched no gate just
ends. -/
def endShot (d : Dev) (h : Half) (b t : Nat) (g : Shot → Shot) : Dev :=
  let x := d.bank h b
  match x.shot with
  | none => d
  | some s =>
    if x.phase = .idle ∨ x.phase = .decay then d
    else
      let needle := getB s.pcfg F.DRV_PCFG_NEEDLE_EN && !s.bankOff
      let s' := g { s with endT := t, record := true, searchDone := !needle, armT := none }
      (d.setBank h b { Bank.gatesOff x t with
        phase := .decay, shot := some s', decaying := !s.bankOff, lastEnd := some t }).bankStat h b

/-- A safe ending of a bank: a running closing search stops, a running shot is cut (R208, R218). -/
def cutBank (d : Dev) (h : Half) (b : Nat) : Dev :=
  let x := d.bank h b
  match x.shot with
  | none => d
  | some s =>
    if x.phase = .decay ∨ x.phase = .idle then
      if s.record && !s.searchDone then
        d.setBank h b { x with shot := some { s with searchDone := true } }
      else d
    else d.endShot h b d.now fun s => { s with cut := true }

/-! ### IGN -/

/-- The summary source of the ignition outputs: a W1C flag of an output set (R225, IGN_SUM). -/
def ignFlag (d : Dev) (h : Half) (k : Nat) (x : Fld) : Dev :=
  let a := Reg.IGN_STAT h k
  let was := decide (getF (d.rd a) ⟨7, 5⟩ ≠ 0)
  let d1 := d.mark a x
  if was then d1 else d1.raiseH h 0x47

/-- IGN_STAT follows the output: DWELLING, SOFTOFF, RSLEFT. -/
def ignStat (d : Dev) (h : Half) (k : Nat) : Dev :=
  let x := d.ign h k
  let a := Reg.IGN_STAT h k
  ((d.setB a F.IGN_STAT_DWELLING (x.high && !x.softoff)).setB a F.IGN_STAT_SOFTOFF x.softoff).setF a
    F.IGN_STAT_RSLEFT x.left

/-- DWELL written: whole 10 µs steps, truncated, saturating (R224). -/
def ignDwell (d : Dev) (h : Half) (k ticks : Nat) : Dev :=
  d.setF (Reg.IGN_STAT h k) F.IGN_STAT_DWELL (min (ticks / 4000) 0xFFFF)

/-- A soft-off begins (R227, R229): a high output ramps down over (SOFT + 1) × 0.25 ms, a low one stays low, restrikes
end. A spark of the same DRIVE cycle is not made: the output ramps down instead (R230) (corners DEDUCED, log 38). -/
def softOff (d : Dev) (h : Half) (k : Nat) : Dev :=
  let x := d.ign h k
  if x.softoff then d
  else
    let d1 := match x.dwellT with
      | some t => d.ignDwell h k (d.now - t)
      | none => d
    let high := x.high || x.sparkT.any fun t => decide (t / 4 = d.now / 4)
    (d1.setIgn h k { x with
      high := high, softoff := high, rampT := d.now, rampTk := 100000 * (getF x.cfg F.IGN_CFG_SOFT + 1)
      dwellT := none, left := 0, nextT := none, recharging := false, sparkT := none
      ignoreEnd := x.dwellT.isSome }).ignStat h k

/-! ### GAO -/

/-- A GAO output driven to a level (R231); it leaves high impedance. -/
def gaoDrive (d : Dev) (h : Half) (k : Nat) (lvl : Bool) : Dev :=
  let a := Reg.GAO_LVL h
  (d.setB a ⟨16 + k, 16 + k⟩ false).setB a ⟨k, k⟩ lvl

/-- An enabled GAO output takes its safe level (R232). -/
def gaoSafe (d : Dev) (h : Half) (k : Nat) : Dev :=
  let w := d.rd (Reg.GAO_CFG h k)
  if getB w F.GAO_CFG_EN then
    let a := Reg.GAO_LVL h
    match getF w F.GAO_CFG_SAFE with
    | 0 => d.gaoDrive h k false
    | 1 => d.gaoDrive h k true
    | _ => (d.setB a ⟨16 + k, 16 + k⟩ true).setB a ⟨k, k⟩ false
  else d

/-! ### Accumulator windows -/

/-- The Mule source number of a half's line: Half B's are six above (R305). -/
def muleSrc (h : Half) (n : Nat) : Nat := match h with | .a => n | .b => n + 6

/-- A request set on its way (DESIGN CHOICE, log 66). -/
def send (d : Dev) (x : Send) : Dev := { d with sends := d.sends ++ [x] }

/-- A request taken off its way, if it was on it (DESIGN CHOICE, log 66). -/
def unsend (d : Dev) (x : Send) : Dev := { d with sends := d.sends.erase x }

/-- The result record of the first closed window written (R268). -/
def accWrite (d : Dev) (h : Half) (a : Nat) : Dev :=
  let x := d.acc h a
  match x.closing with
  | [] => d
  | r :: rest =>
    let st := Reg.ACC_STAT h a
    let d1 := (((d.wr (Reg.ACC_RSUMLO h a) (lo32 r.sum)).wr (Reg.ACC_RMIN h a) (lo32 r.min)).wr
      (Reg.ACC_RMAX h a) (lo32 r.max)).wr (Reg.ACC_RCNT h a) (BitVec.ofNat 32
        (r.cnt + bnat r.incomplete * 2 ^ 31 + bnat r.sat * 2 ^ 30 + bnat r.disturb * 2 ^ 29))
    let d2 := ((d1.wr (Reg.ACC_ROPEN h a) (lo32 r.openT)).wr (Reg.ACC_RCLOSE h a) (lo32 r.closeT)).wr
      (Reg.ACC_RSEQ h a) (d1.rd (Reg.ACC_RSEQ h a) + 1)
    let d3 := if d2.bit st F.ACC_STAT_NEW then d2.mark st F.ACC_STAT_OVR
      else d2.setB st F.ACC_STAT_NEW true
    let cfg := d.rd (Reg.ACC_CFG h a)
    let d4 := if getB cfg F.ACC_CFG_IE then d3.raiseH h (0x4C + a / 16) else d3
    let d5 := if getB cfg F.ACC_CFG_MREQ then
      d4.send (.mule (muleSrc h (2 + a / 16)) 0) else d4
    d5.setAcc h a { d5.acc h a with
      closing := rest, recSum := r.sum, oldSum := x.recSum, recT := some d.now }

/-- An open window closed at a tick (R267, R268): its record waits for the samples under way. -/
def accClose (d : Dev) (h : Half) (a tick : Nat) (incomplete : Bool) : Dev :=
  let x := d.acc h a
  if x.isOpen then
    (d.setAcc h a { x with
      isOpen := false, sum := 0, cnt := 0, min := 0xFFFFFFFF, max := 0, sat := false, disturb := false,
      closing := x.closing ++ [⟨x.sum, x.cnt, x.min, x.max, x.openT, tick, incomplete, x.sat, x.disturb⟩] }).setF
        (Reg.ACC_STAT h a) F.ACC_STAT_CNT 0 |>.setB (Reg.ACC_STAT h a) F.ACC_STAT_OPEN false
  else d

/-- A window opened at a tick (R266, R272): a running one closes normally at that tick first. -/
def accOpen (d : Dev) (h : Half) (a tick : Nat) : Dev :=
  let d := d.accClose h a tick false
  (d.setAcc h a { d.acc h a with isOpen := true, openT := tick }).setB (Reg.ACC_STAT h a)
    F.ACC_STAT_OPEN true

/-- A window that closed at this very tick is closed by the safe ending: its record shows INCOMPLETE (R272). -/
def accCut (d : Dev) (h : Half) (a : Nat) : Dev :=
  d.setAcc h a { d.acc h a with closing := (d.acc h a).closing.map fun r =>
    if r.closeT = d.now then { r with incomplete := true } else r }

/-- The windows a safe ending of the half closes: EXT and EXT_N (R270, R272). -/
def accSafe (d : Dev) (h : Half) : Dev :=
  (List.range 64).foldl
    (fun d a =>
      if d.f (Reg.ACC_CFG h a) F.ACC_CFG_WMODE ≤ 1 then
        if (d.acc h a).isOpen then d.accClose h a d.now true else d.accCut h a
      else d) d

/-! ### Urgent requests -/

/-- The half and entry of an urgent request that is on its way. -/
def urgentOf : Send → Option (Half × Nat)
  | .urgent h e _ _ _ => some (h, e)
  | _ => none

/-- The timer that sent a request to a half (R240). -/
def timerOf : Send → Option Nat
  | .urgent _ _ _ _ n => n
  | .accOpen _ _ _ n => n
  | .accClose _ _ _ n => n
  | _ => none

/-- Whether a request comes from a timer with LINK 0, which HALT leaves alone (R240, R263). -/
def unlinked (d : Dev) (n : Option Nat) : Bool :=
  n.any fun k => decide (d.f (Reg.TMR_CTRL k) F.TMR_CTRL_LINK = 0)

/-- The urgent requests of a half whose sample phase has not begun are cancelled; at HALT entry those of unlinked timers
stay (R240, R263). -/
def urgentCancel (d : Dev) (h : Half) (halt : Bool) : Dev :=
  let stays := fun (n : Option Nat) => halt && d.unlinked n
  let d1 := (List.range 2).foldl
    (fun d k =>
      let x := d.conv h k
      ((x.waiting.filter fun u => !stays u.timer).foldl (fun d u => d.setBitN (Reg.ADC_URGCNCL h) u.entry) d).setConv h k
        { x with waiting := x.waiting.filter fun u => stays u.timer }) d
  let mine : Send → Option Nat := fun x =>
    match urgentOf x with
    | some (k, e) => if k = h ∧ stays (timerOf x) = false then some e else none
    | none => none
  let d2 := (d1.sends.filterMap mine).foldl (fun d e => d.setBitN (Reg.ADC_URGCNCL h) e) d1
  { d2 with sends := d2.sends.filter fun x => (mine x).isNone }

/-! ### Timers, PWM pairs, Colt engines linked to a half -/

/-- Whether a LINK field names a half. -/
def linked (n : Nat) (h : Half) : Bool :=
  match h with
  | .a => decide (n = 1)
  | .b => decide (n = 2)

/-- The trigger of a timer, with its fire tick (R239, R260) (corners DEDUCED, log 40). -/
def timerTrigger (d : Dev) (n fire : Nat) : Option Send :=
  let w := d.rd (Reg.TMR_CTRL n)
  let tgt := getF w F.TMR_CTRL_TGT
  let h : Half := if getB w F.TMR_CTRL_THALF then .b else .a
  match getF w F.TMR_CTRL_TRIG with
  | 1 => some (.urgent h (tgt % 16) fire d.now (some n))
  | 2 => some (.accOpen h tgt fire (some n))
  | 3 => some (.accClose h tgt fire (some n))
  | 4 => some (.mule 40 (tgt % 16))
  | 5 => some (.colt (tgt % 8))
  | 6 => some (.pwmSync (d.rd Reg.PWM_SYNCSEL))
  | 7 => some (.timer tgt .timer fire)
  | _ => none

/-- The fire that a timer made in the present cycle. -/
def firedNow (d : Dev) (n : Nat) : Option TmrFire := (sparseFind d.firedT n).filter fun x => decide (x.at' = d.now)

/-- The fire of the present cycle undone: armed as before it, no trigger, no count, no interrupt (R241) (corners DEDUCED,
log 40). -/
def unfire (d : Dev) (n : Nat) : Dev :=
  match d.firedNow n with
  | none => d
  | some x =>
    let d1 := match d.timerTrigger n x.arm.fire with | some m => d.unsend m | none => d
    let d2 := { d1.wr (Reg.TMR_STAT n) x.stat with
      fireT := sparseInsert d1.fireT n x.arm, firedT := sparseErase d1.firedT n }
    if d2.bit (Reg.TMR_CTRL n) F.TMR_CTRL_IE then
      { d2 with irq := { d2.irq with raised := d2.irq.raised.erase (0xC4 + n / 8) } }
    else d2

/-- A timer disarmed with CANCEL (R240): one that fired in this cycle did not fire (R241) (corners DEDUCED, log 40). -/
def timerCancel (d : Dev) (n : Nat) : Dev :=
  let a := Reg.TMR_STAT n
  let d0 := d.unfire n
  if d0.bit a F.TMR_STAT_ARMED then
    { (d0.setB a F.TMR_STAT_ARMED false).mark a F.TMR_STAT_CANCEL with
      fireT := sparseErase d0.fireT n }
  else d0

/-- Linked timers cancelled, with their triggers that have not reached a half (R240). -/
def timersCancel (d : Dev) (p : Nat → Bool) : Dev :=
  let sel := fun n => p (d.f (Reg.TMR_CTRL n) F.TMR_CTRL_LINK)
  let d1 := (List.range 64).foldl (fun d n => if sel n then d.timerCancel n else d) d
  { d1 with sends := d1.sends.filter fun x =>
      match timerOf x with | some n => !sel n | none => true }

/-- The timers linked to a half disarmed (R240). -/
def timersSafe (d : Dev) (h : Half) : Dev := d.timersCancel fun n => linked n h

/-- A pair tripped (R250): its outputs go to their safe levels, the trip source rises. Where software cleared the trip in
this very cycle the clear is refused instead (R251). -/
def tripPair (d : Dev) (p : Nat) : Dev :=
  if d.bit Reg.PWM_TRIPSTAT ⟨p, p⟩ then d
  else if getB (d.oldRd Reg.PWM_TRIPSTAT) ⟨p, p⟩ then
    (d.setB Reg.PWM_TRIPSTAT ⟨p, p⟩ true).flag Reg.PWM_TRIPFLAG ⟨p, p⟩ 0xCC
  else (d.setB Reg.PWM_TRIPSTAT ⟨p, p⟩ true).raise 0xCC

/-- Whether a pair is linked to a half (R252). -/
def pairLinked (d : Dev) (p : Nat) (h : Half) : Bool :=
  linked (d.f (Reg.PWM_PAIRCFG p) F.PWM_PAIRCFG_LINK) h

/-- The pairs linked to a half tripped (R252). -/
def pwmSafe (d : Dev) (h : Half) : Dev :=
  ((List.range 16).filter fun p => d.pairLinked p h).foldl tripPair d

/-- An engine's entry of the hidden table. -/
def coltE (d : Dev) (e : Nat) : Colt := sparseGet Init.colt d.colt e

/-- An engine's entry replaced. -/
def setColt (d : Dev) (e : Nat) (x : Colt) : Dev :=
  { d with colt := sparseSet Init.colt d.colt e x }

/-- The pins an engine owns (R284). -/
def coltPins (d : Dev) (e : Nat) : List Nat :=
  (List.range 16).filter fun k =>
    let w := d.rd (Reg.COLT_PINOWN (k / 8))
    getB w ⟨4 * (k % 8) + 3, 4 * (k % 8) + 3⟩ &&
      decide (getF w ⟨4 * (k % 8) + 2, 4 * (k % 8)⟩ = e)

/-- A Colt pin driven to a level, or released to high impedance. -/
def pinSet (d : Dev) (k : Nat) (lvl : Option Bool) : Dev :=
  match lvl with
  | none => d.setB Reg.COLT_PINLVL ⟨k, k⟩ true
  | some b => (d.setB Reg.COLT_PINLVL ⟨k, k⟩ false).setB Reg.COLT_PINLVL ⟨16 + k, 16 + k⟩ b

/-- A Colt pin at its safe level (R286). -/
def pinSafe (d : Dev) (k : Nat) : Dev :=
  match getF (d.rd Reg.COLT_PINSAFE) ⟨2 * k + 1, 2 * k⟩ with
  | 0 => d.pinSet k (some false)
  | 1 => d.pinSet k (some true)
  | _ => d.pinSet k none

/-- STOPPED, the state code of an engine. -/
def coltStopped (d : Dev) (e : Nat) : Bool := decide (d.f (Reg.COLT_STAT e) F.COLT_STAT_STATE = 0)

/-- An engine stops (R297, R298): state and injection abandoned, owned pins safe; the cause in STOPC. -/
def coltHalt (d : Dev) (e : Nat) (stopc : Nat) : Dev :=
  let x := d.coltE e
  let d1 := d.setColt e { x with
    atEntry := true, shifting := 0, blocked := false, waiting := false, tests := 0, trigp := false
    pace := false, inj := none, injExec := false }
  let d2 := (d1.setF (Reg.COLT_STAT e) F.COLT_STAT_STATE 0).setF (Reg.COLT_FLAG e) F.COLT_FLAG_STOPC stopc
  (d2.coltPins e).foldl pinSafe d2

/-! ### What follows when endings complete -/

/-- The safe endings of a half are complete (R28, R360): no soft-off ramp, no fast decay. -/
def endingsDone (d : Dev) (h : Half) : Bool :=
  ((d.half h).ign.all fun x => !(x.2.softoff && x.2.high)) &&
    ((d.half h).banks.all fun x => !x.2.decaying)

/-- An output that a reset left on has come to rest (R40) (corners DEDUCED, log 18). -/
def undriven (d : Dev) (h : Half) (u : Nat) : Dev :=
  { d with driven := d.driven.filter fun x => !(decide (x = (h, u, true))) }

/-- After a LANE fault the logic die restarts the heartbeat once device-wide SAFE has begun and its safe endings
are complete (R369) (corners DEDUCED, log 18; DEDUCED, log 60). -/
def hbRestart (d : Dev) : Dev :=
  if d.laneFault && d.devSafe && d.endingsDone .a && d.endingsDone .b then
    { d with laneFault := false, hbRun := true, hbSince := d.now }
  else d

end Dev

end Sys2Proof.Machine
end

