-- ==== Sys2Proof/Machine/Results.lean ====
section
/-! DEFINITION. How a demand commit and a configuration transaction end: their results, the waits of R79,
and the angle that a half no longer reaches (R76, R79, R80, R185, R192, R193, R341). -/

namespace Sys2Proof.Machine

open Sys2Proof

namespace Dev

/-- The commit of a half replaced; DMD_STAT follows it. -/
def setCommit (d : Dev) (h : Half) (c : Option Commit) : Dev :=
  let st := Reg.DMD_STAT h
  let d1 := d.onHalf h fun s => { s with commit := c }
  let q : Nat × Bool × Bool × Nat := match c with
    | none => (0, false, false, 0)
    | some c => (c.groups.toNat, c.cross && c.lead, c.cross, if c.checked then 2 else 1)
  (((d1.setF st F.DMD_STAT_LOCKED q.1).setB st F.DMD_STAT_LEAD q.2.1).setB st F.DMD_STAT_XH q.2.2.1).setF st
    F.DMD_STAT_STATE q.2.2.2

/-- The commit of a half changed. -/
def onCommit (d : Dev) (h : Half) (g : Commit → Commit) : Dev :=
  match (d.half h).commit with
  | some c => d.setCommit h (some (g c))
  | none => d

/-- The halves that the commit of a lead half involves, the lead half first (R183). -/
def commitHalves (d : Dev) (h : Half) : List Half :=
  match (d.half h).commit with
  | some c => if c.cross then [h, h.other] else [h]
  | none => []

/-- The lead half of the commit that a half takes part in. -/
def leadOf (d : Dev) (h : Half) : Option Half :=
  match (d.half h).commit with
  | some c => some (if c.lead then h else h.other)
  | none => none

/-- Entry i of the transaction buffer: its address and its value. -/
def ctxEntry (d : Dev) (i : Nat) : Nat × Word :=
  ((d.rd (Reg.CTX_BUF (2 * i))).toNat, d.rd (Reg.CTX_BUF (2 * i + 1)))

/-- The entries of a transaction. -/
def ctxEntries (d : Dev) (n : Nat) : List (Nat × Word) := (List.range n).map d.ctxEntry

/-- The half whose window holds an address. -/
def halfAt (a : Nat) : Option Half := (halfOffset a).map (·.1)

/-- The committed transaction writes to a half (R79). -/
def ctxWrites (d : Dev) (h : Half) : Bool :=
  match d.ctx with
  | some x => (d.ctxEntries x.count).any fun e => decide (halfAt e.1 = some h)
  | none => false

/-- The first passage of a cycle angle after the present φ (corners DEDUCED, log 37). -/
def passageAfter (d : Dev) (h : Half) (ang : Nat) : Int :=
  let p := d.phi h
  let u := nextPassage (d.cycLen h) ang p
  if (u : Rat) ≤ p then u + d.cycLen h else u

/-- The next passage, after the present φ, of the cycle angle of an unwrapped target (R76, R185). -/
def nextTarget (d : Dev) (h : Half) (u : Int) : Int := d.passageAfter h (u % (max 1 (d.cycLen h) : Nat)).toNat

/-- The half that an ANGLE apply point of a transaction names (R76). -/
def ctxAngleHalf (apply : Nat) : Option Half :=
  if apply = 2 then some .a else if apply = 3 then some .b else none

/-- A commit that waited for a transaction starts its checks, on the present speed and with the target ahead (R79,
R185, R189). -/
def resumeCommit (d : Dev) (h : Half) : Dev :=
  match (d.half h).commit with
  | some c =>
    if c.lead && c.waits then
      let u := if c.apply = 2 then d.nextTarget h c.target else c.target
      (d.commitHalves h).foldl
        (fun d k => d.onCommit k fun c => { c with
          waits := false, speed := d.rd (Reg.ANG_SPEED k), target := u }) d
    else d
  | none => d

/-- A transaction that waited for a commit starts its checks, with its target ahead, once no half it writes to has one
that does not itself wait for the transaction (R76, R79). -/
def resumeCtx (d : Dev) : Dev :=
  match d.ctx with
  | some x =>
    let busy := [Half.a, Half.b].any fun h => d.ctxWrites h && match (d.half h).commit with
      | some c => !c.waits
      | none => false
    if x.waits && !busy then
      { d with ctx := some { x with
          waits := false
          target := match ctxAngleHalf x.apply with
            | some h => d.nextTarget h x.target
            | none => x.target } }
    else d
  | none => d

/-- The result of a commit written in one half (R193): registers, flags, source, message (corners DEDUCED, log 37). -/
def writeResult (d : Dev) (h : Half) (code : Nat) (chan slot : Option Nat) (failB cross : Bool) : Dev :=
  let res := BitVec.ofNat 32 (code * 2 ^ 24 + chan.getD 0 * 2 ^ 16 + slot.getD 0xFF * 2 ^ 8 +
    bnat chan.isSome * 2 ^ 7 + bnat failB * 2 ^ 6 + bnat cross * 2 ^ 5)
  let d1 := (d.wr (Reg.DMD_RES h) res).mark (Reg.DMD_FLAGS h) F.DMD_FLAGS_DONE
  let d2 := if 0x10 ≤ code then d1.mark (Reg.DMD_FLAGS h) F.DMD_FLAGS_REJ
    else if code = 1 then d1.mark (Reg.DMD_FLAGS h) F.DMD_FLAGS_LATE else d1
  let d3 := if code ≤ 1 then
      ((d2.wr (Reg.DMD_SEQ h) (d2.rd (Reg.DMD_SEQ h) + 1)).wr (Reg.DMD_APPLIED_LO h) (lo32 d.now)).wr
        (Reg.DMD_APPLIED_HI h) (hi32 d.now)
    else d2
  let d4 := d3.raiseH h 0x40
  if (d4.rd Reg.LNK_CFG).getLsbD (2 + halfNo h) then
    d4.queueFrame 2 0x12 ([BitVec.ofNat 8 (halfNo h), 0, 0, 0] ++ wordBytes res ++
      wordBytes (d4.rd (Reg.DMD_SEQ h)) ++ wordBytes (d4.rd (Reg.DMD_APPLIED_LO h)) ++
      wordBytes (d4.rd (Reg.DMD_APPLIED_HI h)))
  else d4

/-- A commit ends with a code (R193); `h` is its lead half, `at'` the half whose check failed (corners DEDUCED, log 37). -/
def endCommit (d : Dev) (h : Half) (code : Nat) (chan slot : Option Nat) (at' : Half) : Dev :=
  let hs := d.commitHalves h
  let cross := decide (1 < hs.length)
  let d1 := hs.foldl
    (fun d k => (d.setCommit k none).writeResult k code chan slot (decide (at' = .b)) cross) d
  d1.resumeCtx

/-- A transaction ends with a code (R80): the buffer is released; commits that waited start their
checks. -/
def endCtx (d : Dev) (code check : Nat) (entry : Option Nat) : Dev :=
  let w := BitVec.ofNat 32 (check * 2 ^ 24 + code * 2 ^ 16 + entry.getD 0 * 2 ^ 10 + bnat entry.isSome * 2 ^ 9)
  let d1 := { (d.wr Reg.CTX_STAT w) with ctx := none, ctxOwner := none }
  let d2 := if code ≤ 1 then
      ((d1.wr Reg.CTX_SEQ (d1.rd Reg.CTX_SEQ + 1)).wr Reg.CTX_APPLIED_LO (lo32 d.now)).wr
        Reg.CTX_APPLIED_HI (hi32 d.now)
    else d1
  ((d2.raise 0xC2).resumeCommit .a).resumeCommit .b

/-- A half leaves RUN and LIMP: an ANGLE commit it leads, or an ANGLE transaction that names it, ends
unless φ has reached the angle after the checks (R76, R185, R195). -/
def leaveAngle (d : Dev) (h : Half) (m : HMode) : Dev :=
  if d.issuing h && decide (m ≠ .run ∧ m ≠ .limp) then
    let phi := d.phi h
    let d1 := match (d.half h).commit with
      | some c =>
        if c.lead && decide (c.apply = 2) && c.fixedT.isNone && !c.reached then
          if c.checked && !c.cross && decide ((c.target : Rat) ≤ phi) then
            d.onCommit h fun c => { c with reached := true }
          else d.endCommit h 0x16 none none .a
        else d
      | none => d
    match d1.ctx with
    | some x =>
      if ctxAngleHalf x.apply = some h ∧ x.reached = false then
        if x.checkEnd.isSome && decide ((x.target : Rat) ≤ phi) then
          { d1 with ctx := some { x with reached := true } }
        else d1.endCtx 0x1B 0 none
      else d1
    | none => d1
  else d

end Dev

end Sys2Proof.Machine
end

