-- ==== Sys2Proof/Machine/Modes.lean ====
section
/-! DEFINITION. The half modes with everything that follows them, safe endings, faults and their
reactions (R26, R28, R174 to R177, R355 to R362). -/

namespace Sys2Proof.Machine

open Sys2Proof

namespace Dev

/-! ### Mode entry -/

/-- Whether the cycle phase is known (WHL_STAT.PH_DEC). -/
def phaseKnown (d : Dev) (h : Half) (m : HMode) : Bool :=
  match m with
  | .run | .limp => true
  | .phase => !d.cyc720 h
  | _ => false

/-- Every permit of a half closed, the passed actuations kept (R366). -/
def permitsClosed (d : Dev) (h : Half) : Dev :=
  d.onHalf h fun s => { s with gander := { s.gander with permits := [] } }

/-- The Gander follows a half mode: its sync and cycle phase are cleared in IDLE, SEEK, RUNDOWN and
SAFE, and SEEK starts its own gap search (R363); RUN and LIMP start its watch for missing cam edges (R115). A sync loss that only one path has recorded stays under
comparison in SAFE (R365). -/
def ganderMode (d : Dev) (h : Half) (m : HMode) : Dev :=
  match m with
  | .phase => d
  | .run | .limp => d.onHalf h fun s =>
    let g := s.gander
    { s with gander := { g with watchT := some (g.watchT.getD d.now) } }
  | _ =>
    d.onHalf h fun s =>
      let g := s.gander
      let keep := decide (m = .safe) && g.lost
      { s with gander := { g with
          sync := false, phk := false, cands := [], permits := [], lead := 0, leadPrim := 0, v0 := 0,
          v1 := 0, rejRev := 0, camBad := [], camGood := [], camSince := 0, camLimp := false,
          limpEntry := none, watchT := none, seen := []
          waiting := if keep then g.waiting else none, lost := keep } }

/-- A half mode entered with all that mirrors it: the regime (R89), the flags of ANG_STAT and WHL_STAT,
the speed that reads 0 in IDLE, SEEK and SAFE, the compares and repeat outputs outside PHASE, RUN and LIMP (R94, R98)
(corners DEDUCED, log 33), the Gander. The angle is brought to the present first. With its first
SEEK a half leaves the use of the phase memory behind (R48). -/
def enterMode (d : Dev) (h : Half) (m : HMode) : Dev :=
  let first := decide (d.hmode h ≠ .seek ∨ m = .seek)
  let d0 := (((d.interp h).leaveAngle h m).setMode h m).onHalf h fun s =>
    { s with wheel := { s.wheel with pmFirst := s.wheel.pmFirst && first } }
  let st := Reg.ANG_STAT h
  let tr := decide (m = .phase ∨ m = .run ∨ m = .limp)
  let d1 := d0.setB st F.ANG_STAT_TRACKING (tr || decide (m = .rundown))
  let d2 :=
    if tr then d1
    else
      (([0, 1].foldl (fun d o => d.setB (Reg.CRKO_STAT h o) F.CRKO_STAT_LOCKED false) d1).setB st
        F.ANG_STAT_CLAMPED false).setB st F.ANG_STAT_CATCHING false |>.onHalf h fun s =>
          { s with ascPend := [], track := { s.track with clamped := false, catching := false } }
  let d3 :=
    if m = .limp then d2
    else ((d2.setB st F.ANG_STAT_CRK_RET false).setB st F.ANG_STAT_CAM_RET false).setB st
      F.ANG_STAT_LIMP_SRC false
  let w := Reg.WHL_STAT h
  let d4 := (d3.setB w F.WHL_STAT_SYNC tr).setB w F.WHL_STAT_PH_DEC (d3.phaseKnown h m)
  let d5 :=
    if m = .seek then d4
    else ((d4.setF w F.WHL_STAT_NCAND 0).setB w F.WHL_STAT_CONFIRMING false).onHalf h fun s =>
      { s with wheel := { s.wheel with cands := [] } }
  let d6 :=
    if m = .idle ∨ m = .seek ∨ m = .safe then (d5.wr (Reg.ANG_SPEED h) 0).wr (Reg.ANG_RPM h) 0 else d5
  d6.ganderMode h m

/-! ### Safe endings -/

/-- A slot taken in the very cycle of a sync loss is not taken: the occurrence stays withheld (R179). -/
def untake (d : Dev) (h : Half) (c : Nat) : Dev :=
  let d1 := (d.freeSlot h c).setB (Reg.EVC_STAT h c) F.EVC_STAT_INFLIGHT false
  let x := d1.chan h c
  let d2 := if x.occ = .deferred then
      d1.setB (Reg.DRV_BANKSTAT h ((d.valsNow h c).target / 2)) F.DRV_BANKSTAT_DEFER_PEND false
    else d1
  (d2.setChan h c { Init.chan with prev := x.prev, org := x.org }).rechoose h c

/-- What a safe ending makes of one channel's occurrence (R175): an actuation whose start has been launched and whose
end has not is cut, an ACC_WIN in flight closes its window incomplete and is cut, a start that holds a slot, waits at
the clamp or is deferred is dropped. -/
def endOcc (d : Dev) (h : Half) (reason c : Nat) : Dev :=
  let x := d.chan h c
  match x.occ with
  | .launched =>
    let v := d.valsNow h c
    if x.ending then d
    else (if v.action = 0xA then d.accClose h v.target d.now true else d).dropOcc h c reason true
  | .slot | .deferred =>
    if reason = rSYNC ∧ x.slotT = some d.now then d.untake h c else d.dropOcc h c reason false
  | .pending => if x.waitT.isSome then d.dropOcc h c reason false else d.rechoose h c
  | .none => d.rechoose h c

/-- The occurrences of every channel of a half ended (R175). -/
def endOccs (d : Dev) (h : Half) (reason : Nat) : Dev :=
  ((d.half h).chans.map (·.1)).foldl (fun d c => d.endOcc h reason c) d

/-- The Colt engines linked to a half stopped (R298). -/
def coltSafe (d : Dev) (h : Half) : Dev :=
  (List.range 8).foldl
    (fun d e => if linked (d.f (Reg.COLT_CFG e) F.COLT_CFG_LINK) h && !d.coltStopped e then d.coltHalt e 2
      else d) d

/-- An actuation of a unit whose end edge is launched already: it is on its way to the voter and is no longer ended
safely (R175, R177), unless it arrives in this very DRIVE cycle (R230, R234). -/
def endingOn (d : Dev) (h : Half) (u : Nat) : Bool :=
  (d.half h).chans.any fun e =>
    e.2.ending && (e.2.endT.all fun t => decide (d.now / 4 < t / 65536 / 4)) &&
      match outputOf (d.valsNow h e.1).action (d.valsNow h e.1).target with
      | some o => decide (o.unit = u)
      | none => false

/-- The counts of the passed actuations whose end edges are not launched dropped (R367). -/
def dropPassed (d : Dev) (h : Half) (p : Nat → Bool) : Dev :=
  d.onHalf h fun s => { s with
    passed := s.passed.filter fun e => !p e.1 || (sparseGet Init.chan s.chans e.2.chan).ending }

/-- The actuation outputs of a half ended safely (R355): banks, IGN, GAO; accumulator windows closed,
urgent requests cancelled, permits and counts dropped; `halt`: at HALT entry (R240). -/
def endOutputs (d : Dev) (h : Half) (halt : Bool) : Dev :=
  let d1 := (List.range 6).foldl (fun d b => if d.endingOn h b then d else d.cutBank h b) d
  let d2 := (List.range 12).foldl (fun d k => if d.endingOn h (0x100 + k) then d else d.softOff h k) d1
  let d3 := (List.range 16).foldl (fun d k => if d.endingOn h (0x200 + k) then d else d.gaoSafe h k) d2
  (((d3.accSafe h).urgentCancel h halt).permitsClosed h).dropPassed h fun _ => true

/-- The units linked to a half follow its safe ending (R240, R252, R298). -/
def endLinked (d : Dev) (h : Half) : Dev := ((d.timersSafe h).pwmSafe h).coltSafe h

/-- A half enters SAFE or RUNDOWN (R175): the mode, the occurrences, the outputs, the linked units. -/
def endHalf (d : Dev) (h : Half) (m : HMode) (reason : Nat) : Dev :=
  (((d.enterMode h m).endOccs h reason).endOutputs h false).endLinked h

/-- A half enters SAFE (R28); a half in SAFE already, or one that does not operate, stays. -/
def enterSafe (d : Dev) (h : Half) (reason : Nat) (byFault : Bool) : Dev :=
  match d.hmode h with
  | .safe | .off => d
  | _ =>
    (d.endHalf h .safe reason).onHalf h fun s => { s with wheel := { s.wheel with byFault := byFault } }

/-! ### Faults (R356 to R362) -/

/-- The code of a class (R356). -/
def classCode : FaultClass → Nat
  | .vote => 0
  | .gander => 1
  | .slot => 2
  | .ecc => 3
  | .parity => 4
  | .clock => 5
  | .voltage => 6
  | .adc => 7
  | .drive => 8
  | .trim => 9
  | .lane => 10
  | .sentinel => 11
  | .temp => 12

/-- The code of a scope (SAF_STAT.LASTS). -/
def scopeCode : Scope → Nat
  | .half .a => 0
  | .half .b => 1
  | .device => 2

/-- The configured reaction of a class (R357). -/
def reactOf (d : Dev) (k : Nat) : Nat := getF (d.rd Reg.SAF_REACT) ⟨2 * k + 1, 2 * k⟩

/-- A fault recorded (R357, R416): SAF_FLAG, SAF_FIRST, SAF_STAT, the source of its scope (corners DEDUCED, log 19). -/
def recordFault (d : Dev) (cls : FaultClass) (sc : Scope) : Dev :=
  let k := classCode cls
  let d1 := (d.mark Reg.SAF_FLAG ⟨k, k⟩).setF Reg.SAF_STAT F.SAF_STAT_LASTC k |>.setF Reg.SAF_STAT
    F.SAF_STAT_LASTS (scopeCode sc)
  let d2 :=
    if d1.bit Reg.SAF_FIRST F.SAF_FIRST_VALID then d1
    else (((d1.setF Reg.SAF_FIRST F.SAF_FIRST_CLASS k).setF Reg.SAF_FIRST F.SAF_FIRST_SCOPE
      (scopeCode sc)).setB Reg.SAF_FIRST F.SAF_FIRST_VALID true).wr Reg.SAF_FIRSTTIME (lo32 d.now)
  let d3 := { d2 with lastFault := some d.now }
  match sc with
  | .half h => d3.raiseH h 0x50
  | .device => d3.raise 0xCE

/-- Whether a half takes part in a reaction: enabled, operating, not in SAFE (corners DEDUCED, log 19). -/
def canReact (d : Dev) (h : Half) : Bool :=
  (d.half h).enabled && decide (d.hmode h ≠ .safe ∧ d.hmode h ≠ .off)

/-- Device-wide SAFE begins (R357): the recovery permit is asked anew (R360) (corners DEDUCED, log 55). -/
def startDevSafe (d : Dev) : Dev := { d with devSafe := true, recover := false }

/-- The reaction to a recorded fault (R357): HALF, BOTH or DEVICE. At or below the level already in
force it changes no output. A raise to DEVICE in the SYS cycle of lower reactions takes their place in
SAF_CNT (corners DEDUCED, log 55). -/
def react (d : Dev) (cls : FaultClass) (sc : Scope) : Dev :=
  let level := match cls with
    | .lane | .sentinel => 3
    | _ => d.reactOf (classCode cls)
  let hs : List Half := match sc with
    | .half h => if level = 1 then [h] else [.a, .b]
    | .device => [.a, .b]
  let go := hs.filter d.canReact
  let both := decide (level ≥ 2) || decide (sc = .device)
  let acts := !go.isEmpty || (decide (level = 3) && !d.devSafe)
  let d1 := if both && acts then
      match sc with
      | .half .a => d.raiseH .b 0x50
      | .half .b => d.raiseH .a 0x50
      | .device => (d.raiseH .a 0x50).raiseH .b 0x50
    else d
  let c := d.now / 2
  let n := match d.halfReact with
    | some (k, n) => if k = c then n else 0
    | none => 0
  let d2 := if level = 3 && !d.devSafe then
      { ((d1.incF Reg.SAF_CNT F.SAF_CNT_DEV).setF Reg.SAF_CNT F.SAF_CNT_HALF
          (d1.f Reg.SAF_CNT F.SAF_CNT_HALF + (0x10000 - n))).startDevSafe with halfReact := none }
    else if level ≠ 3 && !go.isEmpty then
      { d1.incF Reg.SAF_CNT F.SAF_CNT_HALF with halfReact := some (c, n + 1) }
    else d1
  let d3 := hs.foldl (fun d h => d.onHalf h fun s => { s with reactT := some d.now }) d2
  go.foldl (fun d h => d.enterSafe h rFAULT true) d3

/-- A detected fault (R356, R357, R359, R416): recorded always; it reacts in OPERATE and HALT only. A LANE
fault stops the sentinel heartbeat (R369, R374) (corners DEDUCED, log 19). -/
def fault (d : Dev) (cls : FaultClass) (sc : Scope) : Dev :=
  let d1 := d.recordFault cls sc
  if d.operating then
    let d2 := d1.react cls sc
    if cls = .lane then { d2 with hbRun := false, laneFault := true }.hbRestart else d2
  else d1

/-- FAULT_N driven low (R37, R361). -/
def faultLow (d : Dev) : Bool :=
  d.pllStop ||
  match d.mode with
  | .unpowered | .standby => true
  | .boot | .load => d.stopped || !d.busRun
  | .operate | .halt =>
    d.devSafe || (d.bit Reg.SAF_CFG F.SAF_CFG_FNHALF &&
      ((decide (d.hmode .a = .safe) && d.a.wheel.byFault) ||
        (decide (d.hmode .b = .safe) && d.b.wheel.byFault)))
  | .service => false

/-- READY driven high (R32, R37). -/
def readyHigh (d : Dev) : Bool :=
  decide (d.mode = .operate ∨ d.mode = .halt) && d.bit Reg.SYS_READY F.SYS_READY_RDY

/-! ### HALT, host loss -/

/-- The DRV occurrences of a half cut or dropped by the fuel cut (R177). -/
def endInjection (d : Dev) (h : Half) : Dev :=
  let d1 := ((d.half h).chans.map (·.1)).foldl
    (fun d c => if (d.valsNow h c).action = 6 then
        (match (d.chan h c).occ with
         | .none => d
         | .pending => if (d.chan h c).waitT.isSome then d.dropOcc h c rHOSTLOSS false else d
         | .launched => if (d.chan h c).ending then d else d.dropOcc h c rHOSTLOSS true
         | _ => d.dropOcc h c rHOSTLOSS false)
      else d) d
  let d2 := (List.range 6).foldl (fun d b => if d.endingOn h b then d else d.cutBank h b) d1
  d2.dropPassed h fun u => decide (u < 12)

/-- HALT entry for one channel (R50, R178, R222): what runs is cut, a deferred start is dropped; any other start that has
not been launched stays until it comes due (corners DEDUCED, log 17). -/
def haltOcc (d : Dev) (h : Half) (c : Nat) : Dev :=
  match (d.chan h c).occ with
  | .launched | .deferred => d.endOcc h rHALT c
  | _ => d

/-- HALT entry for a half (R50, R176): the occurrences that run end with reason HALT, the outputs end safely;
the mode stays, so every-cycle channels have their next occurrence (corners DEDUCED, log 17). -/
def haltHalf (d : Dev) (h : Half) : Dev :=
  if d.hmode h = .off then d
  else (((d.half h).chans.map (·.1)).foldl (fun d c => d.haltOcc h c) d).endOutputs h true

end Dev

end Sys2Proof.Machine
end

