-- ==== Sys2Proof/Machine/Log.lean ====
section
/-! DEFINITION. The tooth-period log and the segment ring (R150 to R153), and the mode entries that the
log marks. -/

namespace Sys2Proof.Machine

open Sys2Proof

/-- The device with the RAM regions: what a core that writes RAM works on. -/
abbrev DevMem := Dev × List Host.Cell

/-- The device part changed. -/
def DevMem.dev (x : DevMem) (g : Dev → Dev) : DevMem := (g x.1, x.2)

namespace Dev

/-- One word written to the tooth log (R150, R151); the block request of R152. -/
def logPut (x : DevMem) (h : Half) (w : Word) : DevMem :=
  let d := x.1
  let pos := d.f (Reg.ANG_LOGPOS h) F.ANG_LOGPOS_POS
  let n := (pos + 1) % 8192
  let d1 := d.setF (Reg.ANG_LOGPOS h) F.ANG_LOGPOS_POS n
  let d2 := if n = 0 then d1.incF (Reg.ANG_LOGPOS h) F.ANG_LOGPOS_WRAPS else d1
  let cfg := d.rd (Reg.ANG_LOGCFG h)
  let blk := min 9 (getF cfg F.ANG_LOGCFG_BLK)
  let d3 := if n % 2 ^ blk = 0 then
      let d3 := d2.raiseH h 0x3D
      if getB cfg F.ANG_LOGCFG_LOG_REQ then d3.send (.mule (muleSrc h 0) 0) else d3
    else d2
  let a := logBase h + 4 * pos
  (d3.onHalf h fun s => { s with learn := { s.learn with logOld := some (d.now, (pos, Memory.word x.2 a)) } },
    Memory.setWord x.2 a w)

/-- A word of the tooth logs as a bus read in the present HALF cycle sees it (R152): the entry being written shows its
older content. -/
def logSeen (x : DevMem) (a : Nat) : Word :=
  let old := [Half.a, Half.b].findSome? fun h => match (x.1.half h).learn.logOld with
    | some (t, (pos, w)) => if t = x.1.now ∧ a = logBase h + 4 * pos then some w else none
    | none => none
  old.getD (Memory.word x.2 a)

/-- A marker in the tooth log (R150). -/
def logMark (x : DevMem) (h : Half) (code data : Nat) : DevMem :=
  logPut x h (BitVec.ofNat 32 (0xC0000000 + code % 64 * 0x1000000 + data % 0x1000000))

/-- A period in the tooth log (R150). -/
def logPeriod (x : DevMem) (h : Half) (kind p : Nat) : DevMem :=
  logPut x h (BitVec.ofNat 32 (kind * 0x40000000 + min p 0x3FFFFFFF))

/-- SEEK entered (R119, R151, R155): an empty candidate set, the counts of R119 cleared, the park report
no longer valid, the marker. -/
def enterSeek (x : DevMem) (h : Half) : DevMem :=
  let d := x.1
  let safe := decide (d.hmode h = .safe)
  let d1 := d.enterMode h .seek
  let d2 := d1.onHalf h fun s => { s with wheel := { s.wheel with
    cands := [], conf := 0, v0 := 0, v1 := 0, camBad := [], camGood := [],
    camSince := 0, crkGood := 0, rejected := false, afterSafe := safe } }
  let w := Reg.WHL_STAT h
  let d3 := ((((d2.setF w F.WHL_STAT_CAMLOST 0).setB w F.WHL_STAT_CRKLOST false).setF (Reg.WHL_CNT h)
    F.WHL_CNT_REJREV 0).setB (Reg.ANG_PARKIDX h) F.ANG_PARKIDX_VALID false).setF (Reg.WHL_POS h)
    F.WHL_POS_CONF 0
  logMark (d3, x.2) h 0x01 0

/-- RUNDOWN entered (R154, R175): safe endings with reason RUNDOWN, learning stopped, the marker (corners DEDUCED, log 32). -/
def enterRundown (x : DevMem) (h : Half) : DevMem :=
  let ph := x.1.phaseKnown h (x.1.hmode h)
  let d1 := x.1.endHalf h .rundown rRUNDOWN
  let d2 := d1.onHalf h fun s => { s with
    wheel := { s.wheel with phk := ph }
    track := { s.track with passing := false, prepass := false } }
  let d3 := (d2.wr (Reg.ANG_ACCEL h) 0).onHalf h fun s => { s with track := { s.track with alpha := 0 } }
  logMark (d3, x.2) h 0x07 0

/-- A sync loss (R118): the record, the marker, SAFE with reason SYNC; the tooth pass is discarded. -/
def loseSync (x : DevMem) (h : Half) (reason idx cam tick : Nat) : DevMem :=
  let d := x.1
  let d1 := ((d.wr (Reg.WHL_LOSS h) (BitVec.ofNat 32 (reason + 16 * cam + 0x10000 * idx))).wr
    (Reg.WHL_LOSSTIME h) (lo32 tick)).satF (Reg.WHL_CNT h) F.WHL_CNT_LOSSES
  let d2 := d1.flagH h (Reg.WHL_STAT h) F.WHL_STAT_LOSS 0x32
  let y := logMark (d2, x.2) h 0x05 reason
  y.dev fun d => (d.enterSafe h rSYNC false).onHalf h fun s =>
    { s with track := { s.track with passing := false, prepass := false } }

/-! ### Segments (R153) -/

/-- The segment that begins at the edge at `k`: of the boundaries whose first edge, at or after their angle, it is, the one
nearest before it; `none` if edge k is no boundary (R153). -/
def segBoundary (d : Dev) (m : List Host.Cell) (h : Half) (nseg anchor k : Nat) : Option Nat :=
  let cyc := ofN (d.cycLen h)
  let md := fun (x : Rat) => x - cyc * ((x / cyc).floor : Rat)
  let ak := d.edgeAng m h k
  let span := md (ak - d.edgeAng m h ((k + d.edges h - 1) % max 1 (d.edges h)))
  ((List.range nseg).foldl
    (fun (best : Option (Nat × Rat)) s =>
      let back := md (ak - (ofN anchor + ofN s * cyc / ofN nseg))
      let here := decide (back < span) || decide (span = 0)
      match best with
      | some (_, b) => if here && decide (back < b) then some (s, back) else best
      | none => if here then some (s, back) else none) none).map (·.1)

/-- A boundary edge accepted in RUN or crank-based LIMP (R153): the segment that ends here is written if
its start is known, and the next one starts. -/
def segEdge (d : Dev) (m : List Host.Cell) (h : Half) (k tick : Nat) : Dev :=
  let l := (d.half h).learn
  if l.nseg = 0 then d
  else
    match d.segBoundary m h l.nseg l.anchor k with
    | none => d
    | some s =>
      let restart : Dev → Dev := fun d => d.onHalf h fun st =>
        { st with learn := { st.learn with segT := some tick, segN := s, segBad := false } }
      match l.segT with
      | none => restart d
      | some t0 =>
        let pos := d.f (Reg.ANG_SEGPOS h) F.ANG_SEGPOS_POS
        let info := (l.segN + bnat l.segBad * 0x200) +
          (d.rd (Reg.ANG_CYCLE h)).toNat % 0x10000 * 0x10000
        let d1 := (d.wr (Reg.ANG_SEG_TIME h pos) (BitVec.ofNat 32 (min (tick - t0) 0xFFFFFFFF))).wr
          (Reg.ANG_SEG_INFO h pos) (BitVec.ofNat 32 info)
        let n := (pos + 1) % 64
        let d2 := d1.setF (Reg.ANG_SEGPOS h) F.ANG_SEGPOS_POS n
        let d3 := if n = 0 then d2.incF (Reg.ANG_SEGPOS h) F.ANG_SEGPOS_WRAPS else d2
        let d4 := if d.bit (Reg.ANG_LOGCFG h) F.ANG_LOGCFG_SEG_REQ then
          d3.send (.mule (muleSrc h 1) 0) else d3
        restart d4

/-- A change of NSEG or ANCHOR takes effect at the cycle-start mark; the running segment is then not
written (R153). -/
def segCycle (d : Dev) (h : Half) : Dev :=
  let w := d.rd (Reg.ANG_SEGCFG h)
  let n := getF w F.ANG_SEGCFG_NSEG
  let a := getF w F.ANG_SEGCFG_ANCHOR
  d.onHalf h fun s =>
    if s.learn.nseg = n ∧ s.learn.anchor = a then s
    else { s with learn := { s.learn with nseg := n, anchor := a, segT := none } }

/-- NSEG and ANCHOR of the image in use from the start (R153) (corners DEDUCED, log 32). -/
def segLoad (d : Dev) (h : Half) : Dev :=
  let w := d.rd (Reg.ANG_SEGCFG h)
  d.onHalf h fun s => { s with learn := { s.learn with
    nseg := getF w F.ANG_SEGCFG_NSEG, anchor := getF w F.ANG_SEGCFG_ANCHOR } }

/-- No segment runs (after crank sync and LIMP entry, R153). -/
def segStop (d : Dev) (h : Half) : Dev :=
  d.onHalf h fun s => { s with learn := { s.learn with segT := none, segBad := false } }

end Dev

end Sys2Proof.Machine
end

