-- ==== Sys2Proof/Machine/Access.lean ====
section
/-! DEFINITION. Which accesses the device answers, and how a bus access answers (R25, R381 to R385,
R413). -/

namespace Sys2Proof.Machine

open Sys2Proof

namespace Dev

/-- SYS_ID by grade (R1, R2). -/
def idView (d : Dev) : Word := if d.grade = .tzn5110 then 0x5110214C else 0x5120214C

/-- The window of an address range. -/
def inRange (a lo size : Nat) : Bool := decide (lo ≤ a ∧ a < lo + size)

/-- The ranges that a TZN-5110 answers as unmapped (R2, R385). -/
def halfBOnly (a : Nat) : Bool :=
  inRange a 0xC0000 0x40000 || inRange a 0x308000 0x8000 || inRange a 0x310C00 0xC00

/-- Whether the present device mode opens the block of an address (R25, R413). In BOOT and LOAD, IMG and
CTX share a window: IMG below offset 0x100, CTX above. -/
def modeOpens (d : Dev) (a : Nat) (write : Bool) : Bool :=
  let boot := inRange a 0 0x1000 || (!write && (inRange a 0x1000 0x1000 || inRange a 0x2000 0x100))
  match d.mode with
  | .unpowered | .standby => false
  | .boot => d.busRun && boot
  | .load => d.busRun && (boot || (!write && inRange a 0x2100 0xF00))
  | .operate | .halt | .service => true

/-- Whether an access reaches its block: the mode and the grade allow it. -/
def reach (d : Dev) (a : Nat) (write : Bool) : Bool :=
  d.modeOpens a write && !(decide (d.grade = .tzn5110) && halfBOnly a)

/-- The answer of an access that succeeded. -/
def okay (d : Dev) (v : Word) : Dev := { d with answer := ⟨false, v⟩ }

/-- A bus error: no effect at the target, a read returns 0 (R382). -/
def busErr (d : Dev) : Dev := { d with answer := ⟨true, 0⟩ }

/-- A write access to an address: the effect, or a bus error. -/
def onWrite (d : Dev) (a : Nat) (g : Dev → Dev) : Dev :=
  if d.reach a true then g (d.okay 0) else d.busErr

/-- A read access to an address: its value and its side effect, or a bus error. -/
def onRead (d : Dev) (a : Nat) (v : Word) (g : Dev → Dev) : Dev :=
  if d.reach a false then g (d.okay v) else d.busErr

/-- A number that names a bus master in the latches (R142, R236): link 0, SPI 1, JTAG 2, Mule 16 on (corners DEDUCED, log
47). -/
def portNo : Master → Nat
  | .link => 0
  | .spi => 1
  | .jtag => 2
  | .mule c => 16 + c.val

end Dev

end Sys2Proof.Machine
end

