-- ==== Sys2Proof/Machine/Adc.lean ====
section
/-! DEFINITION. The converters, the urgent conversions and the accumulators (R254 to R272). -/

namespace Sys2Proof.Machine

open Sys2Proof

/-- What the pre-stage makes of a code (R265): v, whether the filter clipped, the filter state after. -/
structure PreOut where
  v : Nat
  sat : Bool
  u1 : Int
  u2 : Int
  y1 : Int
  y2 : Int

/-- The pre-stage of one accumulator (R265) (corners DEDUCED, log 44). -/
def preStage (cfg param bpf0 bpf1 : Word) (x : Acc) (code : Nat) : PreOut :=
  let u : Int := (code : Int) - getF param F.ACC_PARAM_OFS
  match getF cfg F.ACC_CFG_PRE with
  | 0 => ⟨code, false, x.u1, x.u2, x.y1, x.y2⟩
  | 1 => ⟨u.natAbs, false, x.u1, x.u2, x.y1, x.y2⟩
  | 2 => ⟨(u * u).toNat, false, x.u1, x.u2, x.y1, x.y2⟩
  | _ =>
    let b0 := getS bpf0 F.ACC_BPF0_B0
    let a1 := getS bpf0 F.ACC_BPF0_A1
    let a2 := getS bpf1 F.ACC_BPF1_A2
    let y0 := roundAway (((b0 * (u - x.u2) + a1 * x.y1 - a2 * x.y2 : Int) : Rat) / 16384)
    let y := clampI (-32768) 32767 y0
    ⟨(y * y).toNat, decide (y ≠ y0), u, x.u1, y, x.y1⟩

namespace Dev

/-! ### Windows (R266 to R272) -/

/-- A sample counted into a sum, a count and the extremes; both saturate (R268). -/
def accSum (sum cnt mn mx : Nat) (sat : Bool) (v : Nat) (clip : Bool) : Nat × Nat × Nat × Nat × Bool :=
  let s := sum + v
  let top := 2 ^ 48 - 1
  let ctop := 2 ^ 24 - 1
  (min s top, min (cnt + 1) ctop, min mn v, max mx v,
    sat || clip || decide (top < s) || decide (ctop < cnt + 1))

/-- ACC_CFG of an accumulator. -/
def accCfg (d : Dev) (h : Half) (a : Nat) : Word := d.rd (Reg.ACC_CFG h a)

/-- EN of an accumulator. -/
def accEn (d : Dev) (h : Half) (a : Nat) : Bool := getB (d.accCfg h a) F.ACC_CFG_EN

/-- Whether a count fills a counted window (R266). -/
def full (d : Dev) (h : Half) (a cnt : Nat) : Bool :=
  let w := getF (d.accCfg h a) F.ACC_CFG_WMODE
  decide (w = 1 ∨ w = 2) && decide (d.f (Reg.ACC_PARAM h a) F.ACC_PARAM_NSAMP ≤ cnt)

/-- A counted window that is full closes one tick after the hold tick of its last sample; a PERIODIC
accumulator opens its next one (R266, R267) (corners DEDUCED, log 44). -/
def countClose (d : Dev) (h : Half) (a hold : Nat) : Dev :=
  if d.full h a (d.acc h a).cnt then
    let d1 := d.accClose h a (hold + 1) false
    if getF (d.accCfg h a) F.ACC_CFG_WMODE = 2 then d1.accOpen h a (hold + 1) else d1
  else d

/-- A pre-stage result reaches its accumulator and is judged (R267) (corners DEDUCED, log 44). -/
def takeSample (d : Dev) (h : Half) (a : Nat) : Dev :=
  let x := d.acc h a
  match x.sample with
  | none => d
  | some (v, hold, clip) =>
    let d0 := d.setAcc h a { x with sample := none }
    let x := d0.acc h a
    if x.isOpen && decide (x.openT ≤ hold) then
      let r := accSum x.sum x.cnt x.min x.max x.sat v clip
      ((d0.setAcc h a { x with
        sum := r.1, cnt := r.2.1, min := r.2.2.1, max := r.2.2.2.1, sat := r.2.2.2.2 }).setF
          (Reg.ACC_STAT h a) F.ACC_STAT_CNT r.2.1).countClose h a hold
    else
      d0.setAcc h a { x with closing := x.closing.map fun c =>
        if c.openT ≤ hold ∧ hold < c.closeT then
          let r := accSum c.sum c.cnt c.min c.max c.sat v clip
          { c with
            sum := r.1, cnt := r.2.1, min := r.2.2.1, max := r.2.2.2.1, sat := r.2.2.2.2
            closeT := if d0.full h a r.2.1 then hold + 1 else c.closeT }
        else c }

/-- STRAY of an accumulator (R266, R272). -/
def stray (d : Dev) (h : Half) (a : Nat) : Dev := d.mark (Reg.ACC_STAT h a) F.ACC_STAT_STRAY

/-- An open action reaches an accumulator (R266, R272). -/
def openAction (d : Dev) (h : Half) (a tick : Nat) : Dev :=
  if !d.accEn h a then d
  else if getF (d.accCfg h a) F.ACC_CFG_WMODE = 2 then d.stray h a
  else d.accOpen h a tick

/-- A close action reaches an accumulator (R266, R272); with an open at the same tick it is taken first (corners DEDUCED,
log 44). -/
def closeAction (d : Dev) (h : Half) (a tick : Nat) : Dev :=
  let x := d.acc h a
  if !d.accEn h a then d
  else if getF (d.accCfg h a) F.ACC_CFG_WMODE = 2 then d.stray h a
  else if x.isOpen && decide (x.openT ≠ tick) then d.accClose h a tick false
  else if x.closing.any fun c => decide (c.closeT = tick) then d
  else d.stray h a

/-- Ticks from a hold to the arrival of its result at the accumulators: 207.5 ns (R267). -/
def arriveTk : Nat := 83

/-- The record of the first closed window written, once every sample held before its close has been taken in: the last one
can arrive 207.5 ns after its hold (R268) (corners DEDUCED, log 44). -/
def recordDue (d : Dev) (h : Half) (a : Nat) : Dev :=
  match (d.acc h a).closing with
  | [] => d
  | c :: _ =>
    if c.closeT + arriveTk ≤ d.now + 1 then
      match (d.acc h a).sample with
      | some (_, hold, _) => if hold < c.closeT then (d.takeSample h a).accWrite h a else d.accWrite h a
      | none => d.accWrite h a
    else d

/-- A pre-stage result has reached its accumulator (R267). -/
def arrives (d : Dev) (h : Half) (a : Nat) : Dev :=
  match (d.acc h a).sample with
  | some (_, hold, _) => if hold + arriveTk ≤ d.now then d.takeSample h a else d
  | none => d

/-- The filter state cleared (R265). -/
def accReset (d : Dev) (h : Half) (a : Nat) : Dev :=
  d.setAcc h a { d.acc h a with u1 := 0, u2 := 0, y1 := 0, y2 := 0 }

/-- A changed configuration of an accumulator takes effect (R266, R271): the open window closes incomplete,
the filter starts anew, a PERIODIC window opens. -/
def accChanged (d : Dev) (h : Half) (a : Nat) : Dev :=
  let d1 := (d.accClose h a d.now true).accReset h a
  if d1.accEn h a && decide (getF (d1.accCfg h a) F.ACC_CFG_WMODE = 2) then d1.accOpen h a d.now else d1

/-- A read of ACC_RSUMLO by a port (R269): the word read and the state after. A record written in this
very cycle is not yet seen. -/
def recRead (d : Dev) (m : Master) (h : Half) (a : Nat) : Word × Dev :=
  let x := d.acc h a
  let same := decide (x.recT = some d.now)
  let sum := if same then x.oldSum else x.recSum
  let d1 := d.setAcc h a { x with recLatch := sparseSet 0 x.recLatch (portNo m) (sum / 2 ^ 32) }
  (lo32 sum, if same then d1 else d1.setB (Reg.ACC_STAT h a) F.ACC_STAT_NEW false)

/-- A read of ACC_SUMLO by a port (R269). -/
def sumRead (d : Dev) (m : Master) (h : Half) (a : Nat) : Word × Dev :=
  let x := d.acc h a
  (lo32 x.sum, d.setAcc h a { x with runLatch := sparseSet 0 x.runLatch (portNo m) (x.sum / 2 ^ 32) })

/-- ACC_NEWLO and ACC_NEWHI: NEW of 32 accumulators. -/
def newView (d : Dev) (h : Half) (k : Nat) : Word :=
  maskOf 32 fun j => d.bit (Reg.ACC_STAT h (32 * k + j)) F.ACC_STAT_NEW

/-! ### Samples (R264, R265) -/

/-- Whether an accumulator is bound to a source. -/
def boundTo (d : Dev) (h : Half) (srck srci a : Nat) : Bool :=
  let w := d.accCfg h a
  getB w F.ACC_CFG_EN && decide (getF w F.ACC_CFG_SRCK = srck) && decide (getF w F.ACC_CFG_SRCI = srci)

/-- A conversion result enters the pre-stage of one accumulator; a result still on its way arrives
first. -/
def preSample (d : Dev) (h : Half) (hold code : Nat) (a : Nat) : Dev :=
  let d := d.takeSample h a
  let x := d.acc h a
  let r := preStage (d.accCfg h a) (d.rd (Reg.ACC_PARAM h a)) (d.rd (Reg.ACC_BPF0 h a))
    (d.rd (Reg.ACC_BPF1 h a)) x code
  d.setAcc h a { x with
    sample := some (r.v, hold, r.sat), u1 := r.u1, u2 := r.u2, y1 := r.y1, y2 := r.y2 }

/-- A conversion delivers its sample to every accumulator bound to its source (R264). -/
def deliver (d : Dev) (h : Half) (srck srci hold code : Nat) : Dev :=
  ((List.range 64).filter (d.boundTo h srck srci)).foldl (fun d a => d.preSample h hold code a) d

/-- The converter of an accumulator's source. -/
def sourceConv (d : Dev) (h : Half) (a : Nat) : Nat :=
  let w := d.accCfg h a
  match getF w F.ACC_CFG_SRCK with
  | 0 => 0
  | 1 => 1
  | _ => d.f (Reg.ADC_URG h (getF w F.ACC_CFG_SRCI % 16)) F.ADC_URG_CONV

/-- Later samples of a converter move: open band-pass windows on it are disturbed (R265). -/
def disturb (d : Dev) (h : Half) (k : Nat) : Dev :=
  (List.range 64).foldl
    (fun d a =>
      if (d.acc h a).isOpen && decide (getF (d.accCfg h a) F.ACC_CFG_PRE = 3) &&
          decide (d.sourceConv h a = k) then
        d.setAcc h a { d.acc h a with disturb := true }
      else d) d

/-! ### Sequences (R257 to R259) -/

/-- Whether the converters of a half work (R258). -/
def convWorks (d : Dev) (h : Half) : Bool :=
  decide (d.mode = .operate ∨ d.mode = .halt ∨ d.mode = .service) &&
    !(decide (d.grade = .tzn5110) && decide (h = .b))

/-- The sequence of a converter taken from its registers (R258). -/
def latchSeq (d : Dev) (h : Half) (k : Nat) (x : Conv) : Conv :=
  let w := d.rd (Reg.ADC_CFG h k)
  let len := getF w F.ADC_CFG_LEN
  { x with
    len := len, en := getB w F.ADC_CFG_EN
    seq := (List.range 32).map fun e => d.rd (Reg.ADC_SEQ h k e) }

/-- The filters of accumulators whose source entry changed its input start anew (R265). -/
def seqChanged (d : Dev) (h : Half) (k : Nat) (old new : List Word) : Dev :=
  ((List.range 64).filter fun a =>
      let w := d.accCfg h a
      let e := getF w F.ACC_CFG_SRCI
      decide (getF w F.ACC_CFG_SRCK = k) &&
        decide (getF (old.getD e 0) F.ADC_SEQ_INPUT ≠ getF (new.getD e 0) F.ADC_SEQ_INPUT)).foldl
    (fun d a => d.accReset h a) d

/-- A pass begins at entry 0 with the sequence that stands in the registers (R257, R258) (corners DEDUCED, log 43). -/
def passStart (d : Dev) (h : Half) (k : Nat) (x : Conv) (at' : Nat) : Dev :=
  let y := d.latchSeq h k { x with entry := 0, start := at' }
  ((d.setConv h k y).setB (Reg.ADC_STAT h k) F.ADC_STAT_RUN y.en).seqChanged h k x.seq y.seq

/-- A converter's first pass (R258): at READY, or where a transaction enables one that does not run. -/
def convStart (d : Dev) (h : Half) (k : Nat) : Dev :=
  if d.convWorks h && d.bit (Reg.ADC_CFG h k) F.ADC_CFG_EN && !(d.conv h k).en then
    d.passStart h k { d.conv h k with pass := 0 } d.now
  else d

/-- Ticks of ADC cycles (R254). -/
def adcTk (n : Nat) : Nat := 5 * n

/-- The entry of the running sequence conversion. -/
def seqEntry (x : Conv) : Word := x.seq.getD x.entry 0

/-- Whether the running conversion of a converter is the plausibility one (R259) (corners DEDUCED, log 43). -/
def plausible (d : Dev) (h : Half) (k : Nat) : Bool :=
  let x := d.conv h k
  let w := d.rd (Reg.ADC_PLCFG h)
  let n := getF w F.ADC_PLCFG_PL_N
  decide (n ≠ 0) && decide (x.pass % max 1 n = 0) &&
    decide (x.entry = getF w (if k = 0 then F.ADC_PLCFG_ENT0 else F.ADC_PLCFG_ENT1))

/-- A plausibility code (R259): the second of a pair is compared with the first (corners DEDUCED, log 43). -/
def plCode (d : Dev) (h : Half) (k code : Nat) : Dev :=
  let d1 := d.setConv h k { d.conv h k with pl := some code }
  match (d1.conv h 0).pl, (d1.conv h 1).pl with
  | some c0, some c1 =>
    let st := Reg.ADC_PLSTAT h
    let d2 := (d1.setConv h 0 { d1.conv h 0 with pl := none })
    let d3 := d2.setConv h 1 { d2.conv h 1 with pl := none }
    let d4 := (d3.setF st F.ADC_PLSTAT_CODE0 c0).setF st F.ADC_PLSTAT_CODE1 c1
    if d4.f (Reg.ADC_PLTOL h) F.ADC_PLTOL_TOL < max c0 c1 - min c0 c1 then
      (d4.flagH h st F.ADC_PLSTAT_PL_ERR 0x48).fault .adc (.half h)
    else d4
  | _, _ => d1

/-- A waiting urgent request whose sample phase begins now: 237.5 ns from its base have passed (corners DEDUCED, log 43). -/
def urgentDue (d : Dev) (u : Urg) : Bool := decide (u.base + 95 ≤ d.now)

/-- The next entry of a sequence starts where the one before ends, or a new pass (R257). -/
def nextEntry (d : Dev) (h : Half) (k at' : Nat) : Dev :=
  let x := d.conv h k
  if x.entry + 1 < x.len then d.setConv h k { x with entry := x.entry + 1, start := at' }
  else (d.incF (Reg.ADC_STAT h k) F.ADC_STAT_PASSES).passStart h k { x with pass := x.pass + 1 } at'

/-- A sequence conversion completes (R257, R259, R264); an urgent sample phase due in this cycle aborts it
instead (R272). -/
def seqEnd (d : Dev) (h : Half) (k code : Nat) : Dev :=
  let x := d.conv h k
  let sxt := getF (seqEntry x) F.ADC_SEQ_SXT
  let aborts := x.waiting.any d.urgentDue
  if d.convWorks h && x.en && x.urgent.isNone && !aborts &&
      decide (x.start + adcTk (16 + sxt) ≤ d.now) then
    let d1 :=
      if d.plausible h k then (d.disturb h k).plCode h k code
      else d.deliver h k x.entry (x.start + adcTk (4 + sxt)) code
    d1.nextEntry h k (x.start + adcTk (16 + sxt))
  else d

/-! ### Urgent conversions (R260 to R263) -/

/-- The word of an urgent entry. -/
def urgWord (d : Dev) (h : Half) (e : Nat) : Word := d.rd (Reg.ADC_URG h e)

/-- Ticks of an urgent conversion (corners DEDUCED, log 43). -/
def urgTk (d : Dev) (h : Half) (e : Nat) : Nat := adcTk (16 + getF (d.urgWord h e) F.ADC_URG_SXT)

/-- How many of the requests of a converter wait for another urgent conversion (R262) (corners DEDUCED, log 43). -/
def waitCount (d : Dev) (h : Half) : Nat → List Urg → Nat
  | _, [] => 0
  | free, u :: l =>
    let waits := u.base + 100 ≤ free
    let from' := if waits then free else u.base + 95
    (if waits then 1 else 0) + d.waitCount h (from' + d.urgTk h u.entry) l

/-- A request put in its place: source tick, then entry number (R262). -/
def putUrg (u : Urg) : List Urg → List Urg
  | [] => [u]
  | w :: l =>
    if u.tick < w.tick ∨ (u.tick = w.tick ∧ u.entry < w.entry) then u :: w :: l else w :: putUrg u l

/-- LATE of an urgent entry (R262). -/
def urgLate (d : Dev) (h : Half) (e : Nat) : Dev := d.mark (Reg.ADC_URGFLAG h) ⟨e, e⟩

/-- An urgent request reaches its converter (R261, R262) (corners DEDUCED, log 43). -/
def urgentArrives (d : Dev) (h : Half) (e tick issue : Nat) (timer : Option Nat) : Dev :=
  if d.convWorks h then
    let k := getF (d.urgWord h e) F.ADC_URG_CONV
    let x := d.conv h k
    let late := decide (tick + 80 < issue)
    let l := putUrg ⟨e, tick, if late then issue else tick, timer⟩ x.waiting
    let free := match x.urgent with | some u => x.urgStart + d.urgTk h u.entry | none => 0
    if 4 < d.waitCount h free l then d.flagH h (Reg.ADC_URGFLAG h) ⟨16 + e, 16 + e⟩ 0x48
    else
      let d1 := d.setConv h k { x with waiting := l }
      if late then d1.urgLate h e else d1
  else d

/-- The first waiting request that has come due (R262). -/
def nextUrg (d : Dev) (h : Half) (k : Nat) : Option Urg := (d.conv h k).waiting.find? d.urgentDue

/-- The sample phase of a waiting request begins (R261, R262). -/
def urgentBegin (d : Dev) (h : Half) (k at' : Nat) (u : Urg) : Dev :=
  let x := d.conv h k
  let d1 := (d.setConv h k { x with urgent := some u, urgStart := at', waiting := x.waiting.erase u }).setB
    (Reg.ADC_STAT h k) F.ADC_STAT_URG true
  if u.base + 100 ≤ at' then d1.urgLate h u.entry else d1

/-- The sample phase of an urgent conversion begins at its boundary; a running sequence conversion is
aborted (R261). -/
def urgentSample (d : Dev) (h : Half) (k : Nat) : Dev :=
  let x := d.conv h k
  match x.urgent, d.nextUrg h k with
  | none, some u =>
    (if x.en then (d.incF (Reg.ADC_STAT h k) F.ADC_STAT_ABORTS).disturb h k else d).urgentBegin h k d.now u
  | _, _ => d

/-- An urgent conversion ends (R261, R262): its sample, then the next waiting request, or the sequence with
the aborted entry again. -/
def urgentEnd (d : Dev) (h : Half) (k code : Nat) : Dev :=
  let x := d.conv h k
  match x.urgent with
  | none => d
  | some u =>
    let w := d.urgWord h u.entry
    let ends := x.urgStart + d.urgTk h u.entry
    if ends ≤ d.now then
      let d1 := (d.deliver h 2 u.entry (x.urgStart + adcTk (4 + getF w F.ADC_URG_SXT)) code).setB
        (Reg.ADC_STAT h k) F.ADC_STAT_URG false
      let d2 := d1.setConv h k { d1.conv h k with urgent := none, start := ends }
      match d2.nextUrg h k with
      | some v => d2.urgentBegin h k ends v
      | none => d2
    else d

/-- When a request on its way was issued, and by which timer: its own tick and none where it did not come from this model
(corners DEDUCED, log 43). -/
def urgentIssue (d : Dev) (h : Half) (e tick : Nat) : Nat × Option Nat :=
  (d.sends.findSome? fun x => match x with
    | .urgent h' e' t i n => if h' = h ∧ e' = e ∧ t = tick then some (i, n) else none
    | _ => none).getD (tick, none)

/-- The first request that a test accepts is taken off its way (DESIGN CHOICE, log 66). -/
def taken (d : Dev) (p : Send → Bool) : Dev := { d with sends := d.sends.eraseP p }

/-- READY: every enabled converter starts and every image-enabled PERIODIC window opens (R258, R266). -/
def adcReady (d : Dev) : Dev :=
  [Half.a, Half.b].foldl
    (fun d h =>
      let d1 := (d.convStart h 0).convStart h 1
      (List.range 64).foldl (fun d a => if d.accEn h a then d.accChanged h a else d) d1) d

end Dev

/-! ### The commands -/

/-- CONVERSION_END (R257, R259, R264). -/
def execConversionEnd (t : Tick) (h : Half) (k : Fin 2) (code : BitVec 12) (s : State) : Out :=
  s.onDev t fun d => d.seqEnd h k.val code.toNat

/-- URGENT_REQUEST (R260, R262). -/
def execUrgentRequest (t : Tick) (h : Half) (e : Fin 16) (tick : Tick) (s : State) : Out :=
  s.onDev t fun d =>
    let issue := d.urgentIssue h e.val tick.toNat
    (d.taken fun x => match x with
      | .urgent h' e' t' _ _ => decide (h' = h ∧ e' = e.val ∧ t' = tick.toNat)
      | _ => false).urgentArrives h e.val tick.toNat issue.1 issue.2

/-- URGENT_SAMPLE_START (R261). -/
def execUrgentSampleStart (t : Tick) (h : Half) (k : Fin 2) (s : State) : Out :=
  s.onDev t fun d => d.urgentSample h k.val

/-- URGENT_CONVERSION_END (R261, R262). -/
def execUrgentConversionEnd (t : Tick) (h : Half) (k : Fin 2) (code : BitVec 12) (s : State) : Out :=
  s.onDev t fun d => d.urgentEnd h k.val code.toNat

/-- ACC_SAMPLE (R267). -/
def execAccSample (t : Tick) (h : Half) (a : Fin 64) (s : State) : Out :=
  s.onDev t fun d => d.arrives h a.val

/-- WINDOW_OPEN (R266, R272). -/
def execWindowOpen (t : Tick) (h : Half) (a : Fin 64) (tick : Tick) (s : State) : Out :=
  s.onDev t fun d =>
    (d.taken fun x => match x with
      | .accOpen h' a' t' _ => decide (h' = h ∧ a' = a.val ∧ t' = tick.toNat)
      | _ => false).openAction h a.val tick.toNat

/-- WINDOW_CLOSE (R266, R272). -/
def execWindowClose (t : Tick) (h : Half) (a : Fin 64) (tick : Tick) (s : State) : Out :=
  s.onDev t fun d =>
    (d.taken fun x => match x with
      | .accClose h' a' t' _ => decide (h' = h ∧ a' = a.val ∧ t' = tick.toNat)
      | _ => false).closeAction h a.val tick.toNat

/-- ACC_RECORD_WRITE (R268). -/
def execAccRecordWrite (t : Tick) (h : Half) (a : Fin 64) (s : State) : Out :=
  s.onDev t fun d => d.recordDue h a.val

/-- ACC_RECORD_READ (R269). -/
def execAccRecordRead (t : Tick) (m : Master) (h : Half) (a : Fin 64) (s : State) : Out :=
  s.onDev t fun d =>
    let r := d.recRead m h a.val
    d.onRead (Reg.ACC_RSUMLO h a.val) r.1 fun _ => r.2.okay r.1

/-- ACC_SUM_READ (R269). -/
def execAccSumRead (t : Tick) (m : Master) (h : Half) (a : Fin 64) (s : State) : Out :=
  s.onDev t fun d =>
    let r := d.sumRead m h a.val
    d.onRead (Reg.ACC_SUMLO h a.val) r.1 fun _ => r.2.okay r.1

end Sys2Proof.Machine
end

