-- ==== Sys2Proof/Machine/Boost.lean ====
section
/-! DEFINITION. The boost converter of a half (R212 to R215). -/

namespace Sys2Proof.Machine

open Sys2Proof

namespace Dev

/-- The boost converter of a half replaced. -/
def setBoost (d : Dev) (h : Half) (x : Boost) : Dev := d.onHalf h fun s => { s with boost := x }

/-- The VBST sense and its comparisons run: OPERATE or HALT, the half enabled (R212) (corners DEDUCED, log 38). -/
def vbstSense (d : Dev) (h : Half) : Bool := d.operating && (d.half h).enabled

/-- The converter switches (R215): EN set, the sentinel has not acted, no overvoltage stop. -/
def boostRuns (d : Dev) (h : Half) : Bool :=
  d.vbstSense h && d.bit (Reg.BST_CTRL h) F.BST_CTRL_EN && !d.sentinel &&
    !d.bit (Reg.BST_STAT h) F.BST_STAT_OV_ACT

/-- The soft start runs: 2 ms from EN set or the end of an overvoltage (R212). -/
def boostSoft (d : Dev) (h : Half) : Bool :=
  d.boostRuns h && (match (d.half h).boost.softT with
    | some t => decide (d.now < t + usTk 2000)
    | none => false)

/-- The soft start begins. -/
def softStart (d : Dev) (h : Half) : Dev := d.setBoost h { (d.half h).boost with softT := some d.now }

/-- A threshold field of 0.25 V steps in mV. -/
def quarterV (n : Nat) : Nat := 250 * n

/-- A period starts (R212): BST_G on below TARGET, the period skipped at or above it. -/
def periodStart (d : Dev) (h : Half) (mv : Nat) : Dev :=
  if d.boostRuns h then
    d.setBoost h { (d.half h).boost with
      gate := decide (mv < quarterV (d.f (Reg.BST_VCFG h) F.BST_VCFG_TARGET)) }
  else d

/-- BST_G turns off (R212). -/
def gateOff (d : Dev) (h : Half) : Dev := d.setBoost h { (d.half h).boost with gate := false }

/-- EN cleared (R212, R213): BST_G off; the undervoltage is no longer timed. -/
def boostOff (d : Dev) (h : Half) : Dev := d.setBoost h { (d.half h).boost with gate := false, softT := none, uvT := none }

/-- VBST measured (R212, R213): BST_VMEAS in whole 0.1 V steps, BELOW_START, the undervoltage timed while
EN is set (corners DEDUCED, log 38). -/
def vbst (d : Dev) (h : Half) (mv : Nat) : Dev :=
  if d.vbstSense h then
    let uv := decide (mv < quarterV (d.f (Reg.BST_PROT h) F.BST_PROT_UV))
    let st := Reg.BST_STAT h
    let d1 := ((d.setF (Reg.BST_VMEAS h) F.BST_VMEAS_VBST (min (mv / 100) 1023)).setB st
      F.BST_STAT_BELOW_START (decide (mv < quarterV (d.f (Reg.BST_VCFG h) F.BST_VCFG_START)))).setB st
      F.BST_STAT_UV_ACT uv
    let b := (d.half h).boost
    d1.setBoost h { b with
      uvT := if uv && d.bit (Reg.BST_CTRL h) F.BST_CTRL_EN then some (b.uvT.getD d.now) else none }
  else d

/-- VBST reaches OV (R213). -/
def overvoltage (d : Dev) (h : Half) : Dev :=
  if d.vbstSense h then
    ((d.flagH h (Reg.BST_STAT h) F.BST_STAT_OV 0x46).setB (Reg.BST_STAT h) F.BST_STAT_OV_ACT true).gateOff h
  else d

/-- VBST is below OV − 2 V: switching resumes with soft start (R212, R213). -/
def ovRelease (d : Dev) (h : Half) : Dev :=
  if d.bit (Reg.BST_STAT h) F.BST_STAT_OV_ACT then
    (d.setB (Reg.BST_STAT h) F.BST_STAT_OV_ACT false).softStart h
  else d

/-- VBST has been below UV for UVTIME ms without a break, timed while EN is set (R213). -/
def lowFor (d : Dev) (h : Half) : Bool :=
  match (d.half h).boost.uvT with
  | some t => decide (t + usTk (1000 * d.f (Reg.BST_PROT h) F.BST_PROT_UVTIME) ≤ d.now)
  | none => false

/-- VBST was below UV for UVTIME (R213). -/
def undervoltage (d : Dev) (h : Half) : Dev :=
  if d.vbstSense h && d.bit (Reg.BST_CTRL h) F.BST_CTRL_EN && d.lowFor h then
    (d.setB (Reg.BST_STAT h) F.BST_STAT_UV_ACT true).flagH h (Reg.BST_STAT h) F.BST_STAT_UV 0x45
  else d

end Dev

/-! ### The commands -/

/-- BOOST_PERIOD_START (R212, R215). -/
def execBoostPeriodStart (t : Tick) (h : Half) (milliVolts : Nat) (s : State) : Out :=
  s.onDev t fun d => d.periodStart h milliVolts

/-- BOOST_GATE_OFF (R212). -/
def execBoostGateOff (t : Tick) (h : Half) (s : State) : Out :=
  s.onDev t fun d => d.gateOff h

/-- VBST_MEASURE (R212, R213) (DESIGN CHOICE, log 39). -/
def execVbstMeasure (t : Tick) (h : Half) (milliVolts : Nat) (s : State) : Out :=
  s.onDev t fun d => d.vbst h milliVolts

/-- VBST_OVERVOLTAGE (R213). -/
def execVbstOvervoltage (t : Tick) (h : Half) (s : State) : Out :=
  s.onDev t fun d => d.overvoltage h

/-- VBST_OV_RELEASE (R213). -/
def execVbstOvRelease (t : Tick) (h : Half) (s : State) : Out :=
  s.onDev t fun d => d.ovRelease h

/-- VBST_UNDERVOLTAGE (R213). -/
def execVbstUndervoltage (t : Tick) (h : Half) (s : State) : Out :=
  s.onDev t fun d => d.undervoltage h

end Sys2Proof.Machine
end

