-- ==== Sys2Proof/Machine/Compare.lean ====
section
/-! DEFINITION. The index compare of a half's two paths: what the primary path and the Gander report of
each edge, and when they disagree (R365). -/

namespace Sys2Proof.Machine

open Sys2Proof

namespace Dev

/-- The Gander of a half changed. -/
def onGander (d : Dev) (h : Half) (g : Gander → Gander) : Dev :=
  d.onHalf h fun s => { s with gander := g s.gander }

/-- A flag of GDR_FLAG with its source and class GANDER (R365, R368). -/
def ganderFault (d : Dev) (h : Half) (x : Fld) : Dev :=
  (d.flagH h (Reg.GDR_FLAG h) x 0x52).fault .gander (.half h)

/-- An edge that one path alone has reported (R365): true, the primary path (corners DEDUCED, log 58). -/
def await (d : Dev) (h : Half) (prim : Bool) : Dev :=
  d.onGander h fun g => { g with waiting := some (prim, d.now) }

/-- No edge is under comparison. -/
def paired (d : Dev) (h : Half) : Dev :=
  d.onGander h fun g => { g with waiting := none, lost := false }

/-- Both paths have reported the edge: their indices are compared (R365) (corners DEDUCED, log 28). -/
def compareIndex (d : Dev) (h : Half) : Dev :=
  let d1 := d.paired h
  if (d.half h).wheel.k = (d.half h).gander.idx then d1 else d1.ganderFault h F.GDR_FLAG_IDX_MIS

/-- GLAG (R365). -/
def glag (d : Dev) (h : Half) : Nat := d.f (Reg.GDR_CFG h) F.GDR_CFG_GLAG

/-- A report of the other path that still belongs to the edge at hand: it is at most 2 µs old (R365) (corners DEDUCED, log
58). -/
def reported (d : Dev) (h : Half) (prim : Bool) : Bool :=
  match (d.half h).gander.waiting with
  | some (p, t) => p == prim && decide (d.now ≤ t + usTk 2)
  | none => false

/-- The primary path accepted an edge (R365). A report made while the Gander lacks sync only waits for the
Gander to gain it at the same edge (corners DEDUCED, log 58). -/
def primaryAccepts (d : Dev) (h : Half) : Dev :=
  let g := (d.half h).gander
  if g.sync then
    let d1 := d.onGander h fun g => { g with leadPrim := 0, lead := 0 }
    if d.reported h false then d1.compareIndex h else d1.await h true
  else if g.lost then d
  else
    let d1 := (d.await h true).onGander h fun g => { g with leadPrim := g.leadPrim + 1 }
    if d.glag h < g.leadPrim + 1 then d1.ganderFault h F.GDR_FLAG_LAG else d1

/-- The primary path lost sync at an edge (R365) (corners DEDUCED, log 58). -/
def primaryLoses (d : Dev) (h : Half) : Dev :=
  let g := (d.half h).gander
  match g.waiting with
  | some (false, _) => if g.lost then d.paired h else d.onGander h fun g => { g with lost := true }
  | some (true, _) => d
  | none => if g.sync then (d.await h true).onGander h fun g => { g with lost := true } else d

/-- The Gander accepted an edge at its index (R365), with the same care for an edge at which the primary
path gains sync (corners DEDUCED, log 58). -/
def ganderAccepts (d : Dev) (h : Half) : Dev :=
  let g := (d.half h).gander
  if d.tracking h then
    let d1 := d.onGander h fun g => { g with leadPrim := 0, lead := 0 }
    if d.reported h true then d1.compareIndex h else d1.await h false
  else
    let d1 := (d.await h false).onGander h fun g => { g with lead := g.lead + 1 }
    if d.glag h < g.lead + 1 then d1.ganderFault h F.GDR_FLAG_LAG else d1

/-- The Gander lost sync at an edge (R363, R365): every permit of the half closes (corners DEDUCED, log 58). -/
def ganderLoses (d : Dev) (h : Half) : Dev :=
  let g := (d.half h).gander
  let d1 := (d.permitsClosed h).onGander h fun g =>
    { g with sync := false, phk := false, lost := true, cands := [], p1 := none, rejRev := 0 }
  if d.tracking h then
    match g.waiting with
    | some _ => d1
    | none => d1.await h false
  else d1.paired h

end Dev

end Sys2Proof.Machine
end

