-- ==== Sys2Proof/Machine/Sensors.lean ====
section
/-! DEFINITION. Sensor front ends and capture, angle-step compares, crank repeat outputs (R81 to R99). -/

namespace Sys2Proof.Machine

open Sys2Proof

namespace Dev

/-! ### Settings -/

/-- SHARE of Half B (R85). -/
def shared (d : Dev) : Bool := d.bit (Reg.SNS_SHARE .b) F.SNS_SHARE_SHARE

/-- The half whose crank fields apply to a half (R85). -/
def crankCfg (d : Dev) (h : Half) : Half := if h = .b ∧ d.shared = true then .a else h

/-- DIRSRC in force for a half (R86). -/
def dirsrc (d : Dev) (h : Half) : Nat := d.f (Reg.SNS_CFG (d.crankCfg h)) F.SNS_CFG_DIRSRC

/-- The qualification time of a crank input and its CRKD line in ticks (R84). -/
def crankFilt (d : Dev) (h : Half) : Nat := 4 * d.f (Reg.SNS_FILT (d.crankCfg h)) F.SNS_FILT_CRK_FILT

/-- The qualification time of the cam inputs in ticks (R84). -/
def camFilt (d : Dev) (h : Half) : Nat := 40 * d.f (Reg.SNS_FILT h) F.SNS_FILT_CAM_FILT

/-- QWIN in ticks. -/
def qwin (d : Dev) (h : Half) : Nat := 4 * d.f (Reg.SNS_DIRCFG (d.crankCfg h)) F.SNS_DIRCFG_QWIN

/-- Whether the front ends work: from READY on, and in SERVICE (R32, R51, R86). -/
def sensing (d : Dev) : Bool := d.operating || decide (d.mode = .service)

/-- Whether capture of a half works: from READY on, and in SERVICE (R32, R51). -/
def capturing (d : Dev) (h : Half) : Bool :=
  (d.operating && (d.half h).enabled) ||
    (decide (d.mode = .service) && !(decide (d.grade = .tzn5110) && decide (h = .b)))

/-- The halves that an edge on the crank balls of a half reaches (R85): those of Half A reach Half B
when it shares, its own are then unused. -/
def crankReach (d : Dev) (h : Half) : List Half :=
  let hs : List Half := match h with
    | .a => if d.shared then [.a, .b] else [.a]
    | .b => if d.shared then [] else [.b]
  hs.filter d.capturing

/-- The capture stage of a half changed. -/
def onSense (d : Dev) (h : Half) (g : Sense → Sense) : Dev :=
  d.onHalf h fun s => { s with sense := g s.sense }

/-- A start-up fault counted (SNS_CNT.FAULTS). -/
def snsFault (d : Dev) (h : Half) : Dev := d.satF (Reg.SNS_CNT h) F.SNS_CNT_FAULTS

/-- A start-up fault with MININT_FLT (R87, R89). -/
def minintFault (d : Dev) (h : Half) : Dev :=
  (d.snsFault h).flagH h (Reg.SNS_STAT h) F.SNS_STAT_MININT_FLT 0x22

/-- An edge stored in a capture register (R91); NEW is marked as set in this HALF cycle (R92). -/
def capture (d : Dev) (h : Half) (n tick : Nat) (level rev : Bool) : Dev :=
  let st := Reg.SNS_CAP_STAT h n
  let ovr := d.bit st F.SNS_CAP_STAT_OVR || d.bit st F.SNS_CAP_STAT_NEW
  ((d.wr (Reg.SNS_CAP_TIME h n) (lo32 tick)).wr st
    (BitVec.ofNat 32 (1 + 2 * bnat ovr + 4 * bnat level + 8 * bnat rev))).again st F.SNS_CAP_STAT_NEW

/-! ### Levels (R84 to R86) -/

/-- The qualified CRKD level of a half: that of Half A's line where the crank is shared (R85, R86). -/
def crkdLvl (d : Dev) (h : Half) : Bool := (d.half (d.crankCfg h)).sense.crkdLine

/-- The qualified level of a cam (R84). -/
def camLvl (d : Dev) (h : Half) (c : Nat) : Bool :=
  match sparseFind (d.half h).sense.camLine c with
  | some l => if l.due ≤ d.now then l.level else l.was
  | none => false

/-- SNS_STAT with the levels of its inputs. -/
def senseView (d : Dev) (h : Half) : Word :=
  (d.rd (Reg.SNS_STAT h) &&& 0xFFFFFFC0) |||
    BitVec.ofNat 32 (bnat (d.half (d.crankCfg h)).sense.crkLine + 2 * bnat (d.crkdLvl h)) |||
    maskOf 6 fun i => decide (2 ≤ i) && d.camLvl h (i - 2)

/-- A cam input shows a new level from a tick on. -/
def setCamLine (d : Dev) (h : Half) (c : Nat) (level : Bool) (due : Nat) : Dev :=
  d.onSense h fun s => { s with camLine := sparseInsert s.camLine c ⟨level, d.camLvl h c, due⟩ }

/-- The levels at READY, as SNS_STAT bits 5:0 show them (R86). -/
def sensesAt (d : Dev) (h : Half) (w : BitVec 6) : Dev :=
  d.onSense h fun s => { s with
    crkLine := w.getLsbD 0, crkdLine := w.getLsbD 1
    camLine := (List.range 4).map fun c => (c, ⟨w.getLsbD (2 + c), w.getLsbD (2 + c), 0⟩) }

/-! ### Front ends -/

/-- A front end at its floor for want of timed edges (R82): eight times the last measured period, or 50 ms (corners
DEDUCED, log 33). -/
def floorDue (x : Front) (now : Nat) : Bool :=
  match x.lastT with
  | some t =>
    let p := match x.period with
      | some p => min (8 * p) (usTk 50000)
      | none => usTk 50000
    decide (p ≤ now - t)
  | none => true

/-- Whether a half-wave arms a front end (R81): its peak reaches the given percentage of the previous peak, 30 mV at
least, or 30 mV where the threshold is at its floor; peaks in steps of 10 mV. A half-wave whose peak is not known has
armed (corners DEDUCED, log 33). -/
def arms (pct prev : Nat) (floor : Bool) (peak : Option (BitVec 16)) : Bool :=
  match peak with
  | some p => decide (3 ≤ p.toNat) && (floor || decide (pct * prev ≤ 100 * p.toNat))
  | none => true

/-- A front end after its timed edge (corners DEDUCED, log 33). -/
def edgeTaken (x : Front) (t : Nat) (peak : Option (BitVec 16)) : Front :=
  { lastT := some t, period := (x.lastT.map fun u => t - u).or x.period, peak := (peak.map (·.toNat)).or x.peak }

/-- A crank input is VR (R81). -/
def crankVr (d : Dev) (h : Half) : Bool := !d.bit (Reg.SNS_CFG h) F.SNS_CFG_CRK_TYPE

/-- Whether the crank front end of a half times an edge after a half-wave (R81, R82): a Hall input does. -/
def crankArms (d : Dev) (h : Half) (peak : Option (BitVec 16)) : Bool :=
  !d.crankVr h || arms (d.f (Reg.SNS_THR h) F.SNS_THR_CRK_PCT) (d.f (Reg.SNS_PEAK h) F.SNS_PEAK_CRK_PEAK)
    (d.bit (Reg.SNS_STAT h) F.SNS_STAT_THR_FLOOR || floorDue (d.half h).sense.front d.now) peak

/-- The level, threshold and peak of a crank front end at a timed edge (R81 to R83). -/
def crankFront (d : Dev) (h : Half) (t : Nat) (peak : Option (BitVec 16)) : Dev :=
  let d1 := d.onSense h fun s => { s with
    crkLine := d.bit (Reg.SNS_CFG h) F.SNS_CFG_CRK_POL, front := edgeTaken s.front t none }
  match peak with
  | some p =>
    if d.crankVr h then
      (d1.wr (Reg.SNS_PEAK h) (p.setWidth 32)).setB (Reg.SNS_STAT h) F.SNS_STAT_THR_FLOOR false
    else d1
  | none => d1

/-- A timed crank edge at one half (R84, R86, R87): the qualified edge waits for its hand-over, or its pulse opens; under
quadrature the CRKD level gives the direction and QWIN the illegal transition. -/
def crankEdgeAt (d : Dev) (h : Half) (t : Nat) (holds : Bool) : Dev :=
  let src := d.dirsrc h
  let filt := d.crankFilt h
  if !holds && decide (filt ≠ 0) then d
  else if src = 1 then
    let d1 := if (d.half h).sense.pulse.isSome then d.minintFault h else d
    d1.onSense h fun s => { s with pulse := some t }
  else
    let fwd := d.bit (Reg.SNS_CFG (d.crankCfg h)) F.SNS_CFG_FWD_LVL
    let two := decide (src = 2)
    let ill := two &&
      match (d.half h).sense.crkdT with
      | some c => decide (t - c ≤ d.qwin h)
      | none => false
    d.onSense h fun s => { s with edges := s.edges ++
      [⟨t, t + filt + (if two then d.qwin h else 0), two && (d.crkdLvl h != fwd), false, ill⟩] }

/-- A pulse ends at one half (R86, R87): its width gives the direction of its timed edge (corners DEDUCED, log 33). -/
def pulseEndAt (d : Dev) (h : Half) (t : Nat) : Dev :=
  match (d.half h).sense.pulse with
  | none => d
  | some t0 =>
    let w := d.rd (Reg.SNS_DIRCFG (d.crankCfg h))
    let fwd := usTk (getF w F.SNS_DIRCFG_FWD_MAX)
    let rev := usTk (getF w F.SNS_DIRCFG_REV_MIN)
    let d1 := d.onSense h fun s => { s with pulse := none }
    let len := t - t0
    if 2 * rev < len then d1.minintFault h
    else d1.onSense h fun s => { s with edges := s.edges ++
      [⟨t0, max t (t0 + d.crankFilt h), decide (rev ≤ len), decide (fwd < len ∧ len < rev), false⟩] }

/-- What a CRKD edge with timestamp `td` makes of a waiting crank edge under quadrature (R86, R89): within QWIN the crank
edge is illegal; an earlier CRKD edge gives it the level (corners DEDUCED, log 33). -/
def crkdMeets (td q : Nat) (rev : Bool) (e : CrankEdge) : CrankEdge :=
  { e with
    illegal := e.illegal || decide (td ≤ e.t + q ∧ e.t ≤ td + q)
    reverse := if td ≤ e.t then rev else e.reverse }

/-- A CRKD edge is qualified at one half (R84, R89, R91): its timestamp lies the qualification time back. One that did not
hold its level is dropped. -/
def crkdAt (d : Dev) (h : Half) (t : Nat) (level holds : Bool) : Dev :=
  let filt := d.crankFilt h
  if !holds && decide (filt ≠ 0) then d
  else
    let td := t - filt
    let d1 := d.capture h 1 td level false
    let rev := level != d.bit (Reg.SNS_CFG (d.crankCfg h)) F.SNS_CFG_FWD_LVL
    d1.onSense h fun s => { s with
      crkdT := some td
      edges := if d.dirsrc h = 2 then s.edges.map (crkdMeets td (d.qwin h) rev) else s.edges }

/-- The front end of a cam. -/
def camFrontOf (d : Dev) (h : Half) (c : Nat) : Front := sparseGet Init.front (d.half h).sense.camFront c

/-- Whether the front end of a cam times an edge after a half-wave (R81 to R83): as a crank input does, with its own
peak and percentage. -/
def camArms (d : Dev) (h : Half) (c : Nat) (peak : Option (BitVec 16)) : Bool :=
  let x := d.camFrontOf h c
  getB (d.rd (Reg.SNS_CFG h)) ⟨12 + c, 12 + c⟩ ||
    arms (getF (d.rd (Reg.SNS_THR h)) ⟨6 * c + 11, 6 * c + 6⟩) (x.peak.getD 0)
      (x.peak.isNone || floorDue x d.now) peak

/-- An edge of a cam (R83, R84): the level follows once qualified; a timed one waits for its hand-over. -/
def camEdgeAt (d : Dev) (h : Half) (c t : Nat) (peak : Option (BitVec 16)) (level holds : Bool) : Dev :=
  if d.capturing h && getB (d.rd (Reg.SNS_CFG h)) ⟨8 + c, 8 + c⟩ && d.camArms h c peak then
    let due := t + d.camFilt h
    let d1 := d.onSense h fun s => { s with
      camFront := sparseInsert s.camFront c (edgeTaken (d.camFrontOf h c) t peak) }
    if !holds && decide (d.camFilt h ≠ 0) then d1
    else
      let d2 := d1.setCamLine h c level due
      if d.camTimes h c level then d2.onSense h fun s => { s with cams := s.cams ++ [⟨c, t, due, level⟩] } else d2
  else d

/-! ### Angle-step compares (R93 to R96) -/

/-- Whether a compare runs in the present mode (R94). -/
def ascRuns (d : Dev) (h : Half) (n : Nat) : Bool :=
  let step := d.f (Reg.ASC_STEP h n) F.ASC_STEP_STEP
  d.bit (Reg.ASC_CTRL h n) F.ASC_CTRL_EN && decide (step ≠ 0) &&
    match d.hmode h with
    | .run | .limp => true
    | .phase => decide (rev % step = 0)
    | _ => false

/-- The length modulo which the points of a compare are taken (R93, R94) (corners DEDUCED, log 33). -/
def ascLen (d : Dev) (h : Half) : Nat := if d.hmode h = .phase then rev else d.cycLen h

/-- ASC_NEXT set to the cycle angle of an unwrapped point. -/
def setAscNext (d : Dev) (h : Half) (n : Nat) (u : Int) : Dev :=
  (d.setF (Reg.ASC_NEXT h n) F.ASC_NEXT_NEXT (wrapA (d.ascLen h) (u : Rat))).onHalf h fun s =>
    { s with ascAt := sparseInsert s.ascAt n u }

/-- The unwrapped angle at which the interpolated angle reaches ASC_NEXT (R93). -/
def ascTarget (d : Dev) (h : Half) (n : Nat) : Int := (sparseFind (d.half h).ascAt n).getD 0

/-- ASC_NEXT set to the first point of the series after an angle (R93). -/
def ascAlign (d : Dev) (h : Half) (n : Nat) (x : Rat) : Dev :=
  let step := d.f (Reg.ASC_STEP h n) F.ASC_STEP_STEP
  let anchor := d.f (Reg.ASC_ANCHOR h n) F.ASC_ANCHOR_ANCHOR
  if step = 0 then d
  else
    let k := ((x - ofN anchor) / ofN step).floor + 1
    d.setAscNext h n ((anchor : Int) + k * (step : Int))

/-- Entry to PHASE keeps ASC_NEXT: it is reached at its next passage within the revolution (R93, R94) (corners DEDUCED,
log 33). -/
def ascHeld (d : Dev) (h : Half) : Dev :=
  (List.range 8).foldl
    (fun d n => d.onHalf h fun s => { s with
      ascAt := sparseInsert s.ascAt n (nextPassage rev (d.f (Reg.ASC_NEXT h n) F.ASC_NEXT_NEXT % rev) (d.phi h)) }) d

/-- Every enabled compare aligned, at entry to RUN or LIMP and where the image enables it (R93). -/
def ascAlignAll (d : Dev) (h : Half) : Dev :=
  (List.range 8).foldl
    (fun d n => if d.bit (Reg.ASC_CTRL h n) F.ASC_CTRL_EN then d.ascAlign h n (d.phi h) else d) d

/-- A firing (R96): the hit, the action. -/
def ascAct (d : Dev) (h : Half) (n : Nat) : Dev :=
  let w := d.rd (Reg.ASC_CTRL h n)
  let tg := getF w F.ASC_CTRL_TARGET
  let d1 := (d.incF (Reg.ASC_STAT h n) F.ASC_STAT_HITS).onHalf h fun s =>
    { s with ascLast := sparseInsert s.ascLast n d.now }
  match getF w F.ASC_CTRL_ACTION with
  | 0 => d1.raiseH h (0x28 + n)
  | 1 => d1.send (.urgent h (tg % 16) d.now d.now none)
  | 2 => d1.send (.mule (match h with | .a => 38 | .b => 39) (tg % 16))
  | _ => d1.send (.timer tg .compare d.now)

/-- Points passed over without a firing (R95). -/
def ascSkip (d : Dev) (h : Half) (n k : Nat) : Dev :=
  if k = 0 then d
  else
    let a := Reg.ASC_STAT h n
    (d.setF a F.ASC_STAT_SKIPS (min 0xFF (d.f a F.ASC_STAT_SKIPS + k))).flagH h a F.ASC_STAT_SKIP 0x24

/-- A point comes due (R95): it fires, waits for 40 tk after the previous firing, or is skipped (corners DEDUCED, log 33). -/
def ascPoint (d : Dev) (h : Half) (n : Nat) : Dev :=
  let s := d.half h
  match sparseFind s.ascLast n with
  | some t =>
    if d.now < t + 40 then
      if (sparseFind s.ascPend n).isSome then d.ascSkip h n 1
      else d.onHalf h fun s => { s with ascPend := sparseInsert s.ascPend n (t + 40) }
    else d.ascAct h n
  | none => d.ascAct h n

/-- The interpolated angle reaches ASC_NEXT (R93): φ tells whether it has. -/
def ascReach (d : Dev) (h : Half) (n : Nat) : Dev :=
  let u := d.ascTarget h n
  if d.ascRuns h n && decide ((u : Rat) ≤ d.phi h) then
    (d.ascPoint h n).setAscNext h n (u + d.f (Reg.ASC_STEP h n) F.ASC_STEP_STEP)
  else d

/-- The deferred firing, 40 tk after the previous one (R94, R95). -/
def ascDeferred (d : Dev) (h : Half) (n : Nat) : Dev :=
  match sparseFind (d.half h).ascPend n with
  | some t =>
    if d.ascRuns h n && decide (t ≤ d.now) then
      (d.onHalf h fun s => { s with ascPend := sparseErase s.ascPend n }).ascAct h n
    else d
  | none => d

/-- The angle jumps over points (R95): each compare fires once, ASC_NEXT moves to the first point after
the new angle, the other points are skipped. -/
def ascJump (d : Dev) (h : Half) (y : Rat) : Dev :=
  (List.range 8).foldl
    (fun d n =>
      if d.ascRuns h n then
        let step := d.f (Reg.ASC_STEP h n) F.ASC_STEP_STEP
        let u := d.ascTarget h n
        if (u : Rat) ≤ y then
          let k := ((y - (u : Rat)) / ofN step).floor.toNat
          ((d.ascPoint h n).ascSkip h n k).ascAlign h n y
        else d
      else d) d

/-- A bus write of ASC_CTRL acts on EN (R93): EN going to 1 aligns ASC_NEXT; it cannot take effect while
STEP is 0. Clearing EN discards a firing that waits for its 40 tk (DESIGN CHOICE, log 71). -/
def ascCtrl (d : Dev) (h : Half) (n : Nat) (v : Word) : Dev :=
  let a := Reg.ASC_CTRL h n
  let was := d.bit a F.ASC_CTRL_EN
  if getB v F.ASC_CTRL_EN then
    if d.f (Reg.ASC_STEP h n) F.ASC_STEP_STEP = 0 then d
    else
      let d1 := d.setB a F.ASC_CTRL_EN true
      if was then d1 else d1.ascAlign h n (d1.phi h)
  else (d.setB a F.ASC_CTRL_EN false).onHalf h fun s => { s with ascPend := sparseErase s.ascPend n }

/-- The enables that the image sets (R93): compares with a step align, one without cannot be enabled (corners DEDUCED, log
33). -/
def ascReady (d : Dev) (h : Half) : Dev :=
  ((List.range 8).foldl
    (fun d n => if d.f (Reg.ASC_STEP h n) F.ASC_STEP_STEP = 0 then d.setB (Reg.ASC_CTRL h n) F.ASC_CTRL_EN false
      else d) d).ascAlignAll h

/-! ### Crank repeat outputs (R97, R98) -/

/-- A crank repeat output of a half. -/
def crkoOf (d : Dev) (h : Half) (o : Nat) : Crko := sparseGet Init.crko (d.half h).crko o

/-- A crank repeat output replaced. -/
def setCrko (d : Dev) (h : Half) (o : Nat) (x : Crko) : Dev :=
  d.onHalf h fun s => { s with crko := sparseSet Init.crko s.crko o x }

/-- An output rises (R97): it falls after half the previous period, or after 100 µs where there is none
or it was longer than the stall timeout. -/
def crkoRise (d : Dev) (h : Half) (o : Nat) : Dev :=
  let x := d.crkoOf h o
  let stall := 400000 * d.f (Reg.ANG_STOPCFG h) F.ANG_STOPCFG_STALL
  let high := match x.riseT with
    | some t => if stall < d.now - t then usTk 100 else (d.now - t) / 2
    | none => usTk 100
  d.setCrko h o { x with high := true, riseT := some d.now, fallT := d.now + high, lateT := none }

/-- The crank last turned in reverse: the outputs hold (R97). -/
def crkoHolds (d : Dev) (h : Half) : Bool := d.bit (Reg.SNS_STAT h) F.SNS_STAT_DIR

/-- The output falls at its time (R97). -/
def crkoFalls (d : Dev) (h : Half) (o : Nat) : Dev :=
  let x := d.crkoOf h o
  if x.high && decide (x.fallT ≤ d.now) && !d.crkoHolds h then d.setCrko h o { x with high := false } else d

/-- The rise that waited 40 tk after the forced fall (R97). -/
def crkoLate (d : Dev) (h : Half) (o : Nat) : Dev :=
  match (d.crkoOf h o).lateT with
  | some t => if t ≤ d.now && !d.crkoHolds h then d.crkoRise h o else d
  | none => d

/-- Whether an output counts locked to the reference tooth (R98). -/
def crkoLocks (d : Dev) (h : Half) (o : Nat) : Bool :=
  d.bit (Reg.CRKO_CTRL h o) F.CRKO_CTRL_FILL && d.tracking h

/-- The unwrapped angle of the first missing tooth after an angle, over the gaps of the wheel table (R98, R103). -/
def nextFill (d : Dev) (h : Half) (x : Rat) : Option Rat :=
  ((List.range (d.nent h)).flatMap fun g =>
    if d.wGap h g then
      let m := d.gapM h g
      (List.range (m - 1)).map fun j =>
        let a : Rat := ofN (d.wAng h g) + ofN ((j + 1) * d.dTab h g) / ofN (max 1 m)
        a + ((((x - a) / ofN rev).floor + 1 : Int) : Rat) * ofN rev
    else []).foldl
      (fun (b : Option Rat) a => match b with
        | some c => some (if a < c then a else c)
        | none => some a) none

/-- One counted edge at an output (R97, R98); `ref`: the reference tooth in revolution 0. Until the first reference tooth
after FILL begins to act, positions go on from the count before (DESIGN CHOICE, log 72). -/
def crkoCount (d : Dev) (h : Half) (o : Nat) (ref : Bool) : Dev :=
  let w := d.rd (Reg.CRKO_CTRL h o)
  let ratio := getF w F.CRKO_CTRL_RATIO
  if !getB w F.CRKO_CTRL_EN || decide (ratio = 0) then d
  else
    let st := Reg.CRKO_STAT h o
    let lock := d.crkoLocks h o
    let d0 := d.setB st F.CRKO_STAT_LOCKED (lock && (ref || d.bit st F.CRKO_STAT_LOCKED))
    let x := d0.crkoOf h o
    let pos := if lock && ref then 0 else x.pos + 1
    let due :=
      if lock then decide (((pos : Int) - getF w F.CRKO_CTRL_PHASE) % (ratio : Int) = 0)
      else decide (d0.f st F.CRKO_STAT_COUNT + 1 ≥ ratio)
    let d1 := (d0.setCrko h o { x with pos := pos }).setF st F.CRKO_STAT_COUNT
      (if due then 0 else d0.f st F.CRKO_STAT_COUNT + 1)
    if due then
      if x.high then d1.setCrko h o { d1.crkoOf h o with high := false, lateT := some (d1.now + 40) }
      else d1.crkoRise h o
    else d1

/-- A handed-over forward crank edge at both outputs of a half (R97) (corners DEDUCED, log 33). -/
def crkoEdge (d : Dev) (h : Half) (ref : Bool) : Dev := (d.crkoCount h 0 ref).crkoCount h 1 ref

/-- A bus write of CRKO_CTRL acts on EN; an output that is enabled starts anew (R97). -/
def crkoCtrl (d : Dev) (h : Half) (o : Nat) (v : Word) : Dev :=
  let a := Reg.CRKO_CTRL h o
  let en := getB v F.CRKO_CTRL_EN
  if d.bit a F.CRKO_CTRL_EN = en then d
  else ((d.setB a F.CRKO_CTRL_EN en).setCrko h o Init.crko).wr (Reg.CRKO_STAT h o) 0

/-- The interpolated angle reaches the next missing tooth (R98): the filled edge is counted at each output with FILL. -/
def crkoFill (d : Dev) (h : Half) : Dev :=
  let d1 := d.interp h
  let x := d1.track h
  match d.nextFill h x.fill with
  | some a =>
    if d.tracking h && decide (a ≤ (x.phi : Rat) / pow2Q 24) then
      let g := fun (d : Dev) (o : Nat) => if d.crkoLocks h o then d.crkoCount h o false else d
      g (g (d1.setTrack h { x with fill := a }) 0) 1
    else d1
  | none => d1

/-- CRKO_STAT: FILLING while the fill acts (R98). -/
def crkoView (d : Dev) (h : Half) (o : Nat) : Word :=
  putB (d.rd (Reg.CRKO_STAT h o)) F.CRKO_STAT_FILLING (d.crkoLocks h o && d.bit (Reg.CRKO_CTRL h o) F.CRKO_CTRL_EN)

/-- The level of a CRK_OUT ball (R97, R99): low with EN clear, inverted with INV. -/
def crkoLevel (d : Dev) (h : Half) (o : Nat) : Bool :=
  ((d.crkoOf h o).high && d.bit (Reg.CRKO_CTRL h o) F.CRKO_CTRL_EN) != d.bit (Reg.CRKO_CTRL h o) F.CRKO_CTRL_INV

/-- A COLT ball that the PINS section gives to CRK_OUT, from the end of a passed load on (R97, R99): its half and
output. -/
def crkoBall (d : Dev) (k : Nat) : Option (Half × Nat) :=
  if 12 ≤ k ∧ k < 16 ∧ d.pins.contains (278 + k, 1) = true then
    some (if k < 14 then .a else .b, k % 2)
  else none

/-- COLT_PINLVL with the CRK_OUT balls (R99). -/
def pinView (d : Dev) : Word :=
  (List.range 16).foldl
    (fun w k => match d.crkoBall k with
      | some (h, o) => putB (putB w ⟨k, k⟩ false) ⟨16 + k, 16 + k⟩ (d.crkoLevel h o)
      | none => w) (d.rd Reg.COLT_PINLVL)

end Dev

/-! ### The commands -/

/-- CRANK_TIMED_EDGE (R81 to R89): an edge of a half-wave that did not arm the front end is none. -/
def execCrankTimedEdge (t : Tick) (h : Half) (peak : Option (BitVec 16)) (holds : Bool) (s : State) : Out :=
  s.onDev t fun d =>
    if d.sensing && d.crankArms h peak then
      (d.crankReach h).foldl (fun d h' => d.crankEdgeAt h' t.toNat holds) (d.crankFront h t.toNat peak)
    else d

/-- CRANK_PULSE_END (R86, R87). -/
def execCrankPulseEnd (t : Tick) (h : Half) (s : State) : Out :=
  s.onDev t fun d =>
    let d1 := if !d.sensing then d else d.onSense h fun s => { s with crkLine := !d.bit (Reg.SNS_CFG h) F.SNS_CFG_CRK_POL }
    ((d.crankReach h).filter fun h' => decide (d.dirsrc h' = 1)).foldl (fun d h' => d.pulseEndAt h' t.toNat) d1

/-- CRKD_EDGE (R84, R85, R89, R91): the edge is qualified now. -/
def execCrkdEdge (t : Tick) (h : Half) (e : LineEdge) (s : State) : Out :=
  s.onDev t fun d =>
    let d1 := if !d.sensing || (!e.holds && decide (d.crankFilt h ≠ 0)) then d
      else d.onSense h fun s => { s with crkdLine := e.level }
    (d.crankReach h).foldl (fun d h' => d.crkdAt h' t.toNat e.level e.holds) d1

/-- CAM_TIMED_EDGE (R83, R84). -/
def execCamTimedEdge (t : Tick) (h : Half) (c : Fin 4) (peak : Option (BitVec 16)) (e : LineEdge)
    (s : State) : Out :=
  s.onDev t fun d => d.camEdgeAt h c.val t.toNat peak e.level e.holds

/-- THRESHOLD_FLOOR_TIMEOUT (R82): a VR crank input. -/
def execThresholdFloorTimeout (t : Tick) (h : Half) (s : State) : Out :=
  s.onDev t fun d =>
    if d.sensing && d.crankVr h && Dev.floorDue (d.half h).sense.front d.now then
      d.setB (Reg.SNS_STAT h) F.SNS_STAT_THR_FLOOR true
    else d

/-- SNS_COUNT_CLEAR (SNS_CNTCLR). -/
def execSnsCountClear (t : Tick) (_m : Master) (h : Half) (_v : Word) (s : State) : Out :=
  s.onDev t fun d => d.onWrite (Reg.SNS_CNTCLR h) fun d =>
    (d.clrCount (Reg.SNS_CNT h) F.SNS_CNT_ILLEGALS).clrCount (Reg.SNS_CNT h) F.SNS_CNT_FAULTS

/-- A capture register read (R91, R92): NEW clears; a capture of this HALF cycle is not seen yet, keeps NEW and has lost
nothing. -/
def Dev.captureSeen (d : Dev) (h : Half) (n : Nat) : Word × Dev :=
  let a := Reg.SNS_CAP_TIME h n
  let st := Reg.SNS_CAP_STAT h n
  if getB (d.againNow st) F.SNS_CAP_STAT_NEW then
    (d.oldRd a, d.setB st F.SNS_CAP_STAT_OVR (getB (d.oldRd st) F.SNS_CAP_STAT_OVR))
  else (d.rd a, d.setB st F.SNS_CAP_STAT_NEW false)

/-- CAPTURE_READ (R91, R92). -/
def execCaptureRead (t : Tick) (_m : Master) (h : Half) (n : Fin 6) (s : State) : Out :=
  s.onDev t fun d =>
    let r := d.captureSeen h n.val
    d.onRead (Reg.SNS_CAP_TIME h n.val) r.1 fun _ => r.2.okay r.1

/-- ASC_FIRE (R93 to R96). -/
def execAscFire (t : Tick) (h : Half) (n : Fin 8) (s : State) : Out :=
  s.onDev t fun d => d.ascReach h n.val

/-- ASC_DEFERRED_FIRE (R95). -/
def execAscDeferredFire (t : Tick) (h : Half) (n : Fin 8) (s : State) : Out :=
  s.onDev t fun d => d.ascDeferred h n.val

/-- ASC_ENABLE (R93). -/
def execAscEnable (t : Tick) (_m : Master) (h : Half) (n : Fin 8) (v : Word) (s : State) : Out :=
  s.onDev t fun d => d.onWrite (Reg.ASC_CTRL h n.val) fun d => d.ascCtrl h n.val v

/-- CRKO_FALL (R97). -/
def execCrkoFall (t : Tick) (h : Half) (o : Fin 2) (s : State) : Out :=
  s.onDev t fun d => d.crkoFalls h o.val

/-- CRKO_FILL_EDGE (R98). -/
def execCrkoFillEdge (t : Tick) (h : Half) (s : State) : Out := s.onDev t fun d => d.crkoFill h

/-- CRKO_DELAYED_RISE (R97). -/
def execCrkoDelayedRise (t : Tick) (h : Half) (o : Fin 2) (s : State) : Out := s.onDev t fun d => d.crkoLate h o.val

end Sys2Proof.Machine
end

