-- ==== Sys2Proof/Machine/Track.lean ====
section
/-! DEFINITION. What every accepted edge does to the angle of a half: jumps, the restart of φ, learning,
the cycle-start mark, the entries to RUN and LIMP (R126 to R153, R173, R174). -/

namespace Sys2Proof.Machine

open Sys2Proof

namespace Dev

/-! ### φ at an accepted edge -/

/-- φ jumps to an angle (R140): reported to the compares and kept for the switch that follows; a read of this cycle still
sees φ as it was (R142). -/
def jump (d : Dev) (h : Half) (y : Int) : Dev :=
  let d1 := (d.mark (Reg.ANG_STAT h) F.ANG_STAT_JUMPED).ascJump h ((y : Rat) / pow2Q 24)
  let x := d1.track h
  let from' := match x.jumpOld with
    | some (t, p) => if t = d.now then p else x.phi
    | none => x.phi
  d1.setTrack h { x with phi := y, jumped := true, jumpOld := some (d.now, from') }

/-- CLAMPED and CATCHING follow the tracker; ANG_CLAMP shows the clamp (R138). -/
def trackStat (d : Dev) (h : Half) : Dev :=
  let x := d.track h
  let st := Reg.ANG_STAT h
  ((d.setB st F.ANG_STAT_CLAMPED x.clamped).setB st F.ANG_STAT_CATCHING x.catching).setF (Reg.ANG_CLAMP h)
    F.ANG_CLAMP_CLAMP (wrapA (d.cycLen h) ((x.clamp : Rat) / pow2Q 24))

/-- φ reaches the clamp (R137, R138): it is held there and a catch-up ends. -/
def clampAt (d : Dev) (h : Half) : Dev :=
  let x := d.track h
  (d.setTrack h { x with
    clamped := true, catching := false }).trackStat h

/-- m restarts from the new state and φ follows it by a jump or a catch-up (R137, R139); `early`: the
edge was accepted as EARLY. `old` is the tracker brought up to the present before the edge. -/
def restart (d : Dev) (h : Half) (old : Track) (early : Bool) : Dev :=
  let x := d.track h
  let m := roundAway ((x.theta + x.omega * (ofN d.now - ofN x.tPrev)) * pow2Q 24)
  let catchup := d.bit (Reg.ANG_CFG h) F.ANG_CFG_EARLY
  let x1 := { x with m := m, atT := d.now, base := d.now, clamped := false, jumped := false, early := early }
  let d1 :=
    if old.phi < m then
      if catchup && early && !old.clamped && !old.catching then
        d.setTrack h { x1 with phi := old.phi, catching := true, cuStart := d.now }
      else (d.setTrack h { x1 with phi := old.phi, catching := false }).jump h m
    else d.setTrack h { x1 with phi := old.phi, catching := false }
  let d2 := d1.trackStat h
  let x2 := d2.track h
  if x2.clamp ≤ x2.phi then d2.clampAt h else d2

/-- OVERRANGE (R149): above 24,000 rpm, or an accepted period below 1,600 tk. -/
def overrange (d : Dev) (h : Half) (period : Nat) : Dev :=
  if decide (period < 1600) || decide (rpmSpeed 24000 < (d.track h).omega) then
    d.flagH h (Reg.ANG_STAT h) F.ANG_STAT_OVERRANGE 0x39
  else d

/-- The speed lies below the rundown speed (R28). -/
def slow (d : Dev) (h : Half) : Bool :=
  decide ((d.track h).omega < rpmSpeed (ofN (d.f (Reg.ANG_STOPCFG h) F.ANG_STOPCFG_RDSPD)))

/-! ### Learning (R144 to R147) -/

/-- The mode, class and rejection conditions that both tables share. -/
def mayLearn (d : Dev) (h : Half) (late : Bool) : Bool :=
  decide (d.hmode h = .run) && !late && !(d.half h).wheel.rejected

/-- The conditions of R144 on the wheel-error table. -/
def weMay (d : Dev) (h : Half) (x : Track) (late : Bool) : Bool :=
  let w := d.rd (Reg.ANG_WEBAND h)
  d.mayLearn h late && d.bit (Reg.ANG_LEARNCTL h) F.ANG_LEARNCTL_WE_EN &&
    decide (rpmSpeed (ofN (getF w F.ANG_WEBAND_LO)) ≤ x.omegaExp) &&
    decide (x.omegaExp ≤ rpmSpeed (ofN (getF w F.ANG_WEBAND_HI))) &&
    decide (absQ x.alpha ≤ ofN (d.f (Reg.ANG_WEAMAX h) F.ANG_WEAMAX_AMAX) * 6144 / (10 ^ 16 : Nat))

/-- The conditions of R145 on the ripple profile. -/
def ripMay (d : Dev) (h : Half) (x : Track) (late : Bool) : Bool :=
  let w := d.rd (Reg.ANG_RIPBAND h)
  d.mayLearn h late && d.bit (Reg.ANG_LEARNCTL h) F.ANG_LEARNCTL_RIP_EN &&
    decide (rpmSpeed (ofN (getF w F.ANG_RIPBAND_LO)) ≤ x.omegaExp) &&
    decide (x.omegaExp ≤ rpmSpeed (ofN (getF w F.ANG_RIPBAND_HI)))

/-- The wheel-error entry of edge k learns (R144). -/
def learnW (y : DevMem) (h : Half) (k : Nat) (eps : Rat) : DevMem :=
  let d := y.1
  let sh := d.f (Reg.ANG_LEARNCFG h) F.ANG_LEARNCFG_WE_SHIFT
  let v := wErr y.2 h k + roundAway (256 * eps / pow2Q sh)
  let c := clampI (-32768) 32767 v
  let d1 := if v = c then d else d.mark (Reg.ANG_LEARNSTAT h) F.ANG_LEARNSTAT_WE_SAT
  (d1, setW y.2 h k c)

/-- The ripple entry of the interval that edge k closes learns (R145). -/
def learnP (y : DevMem) (h : Half) (k : Nat) (eps e : Rat) : DevMem :=
  let d := y.1
  let sh := d.f (Reg.ANG_LEARNCFG h) F.ANG_LEARNCFG_RIP_SHIFT
  let l := max 1 (d.edges h)
  let j := (k + l - 1) % l
  let v := pRip y.2 h j + roundAway (-2 * eps / (if e = 0 then 1 else e * e) * pow2Q 44 / pow2Q sh)
  let c := clampI (-(2 ^ 31)) (2 ^ 31 - 1) v
  let d1 := if v = c then d else d.mark (Reg.ANG_LEARNSTAT h) F.ANG_LEARNSTAT_RIP_SAT
  (d1, setP y.2 h j c)

/-- Both tables at an accepted crank edge k; `x` is the tracker before the update (corners DEDUCED, log 30). -/
def learnEdge (y : DevMem) (h : Half) (x : Track) (k t : Nat) (late : Bool) : DevMem :=
  let r : Rat := ofN t - ofN x.tExp / 65536
  let e : Rat := ofN x.tExp / 65536 - ofN x.tPrev
  let eps := obs (x.omegaExp * r)
  let we := y.1.weMay h x late
  let rp := y.1.ripMay h x late
  let y1 := if we then learnW y h k eps else y
  let y2 := if rp then learnP y1 h k eps e else y1
  y2.dev fun d =>
    let st := Reg.ANG_LEARNSTAT h
    ((d.setB st F.ANG_LEARNSTAT_WE_ACT we).setB st F.ANG_LEARNSTAT_RIP_ACT rp).onHalf h fun s =>
      { s with
        learn := { s.learn with weAll := s.learn.weAll && we, ripAll := s.learn.ripAll && rp }
        wheel := { s.wheel with rejected := false } }

/-- A count of complete learning cycles; its converged flag with its source (R147) (corners DEDUCED, log 30). -/
def learnCycle (d : Dev) (h : Half) (cnt conv shift : Fld) (src : Nat) : Dev :=
  let d1 := d.satF (Reg.ANG_LEARNCNT h) cnt
  if 4 * 2 ^ d1.f (Reg.ANG_LEARNCFG h) shift ≤ d1.f (Reg.ANG_LEARNCNT h) cnt then
    d1.flagH h (Reg.ANG_LEARNSTAT h) conv src
  else d1

/-- The counts of R147 at a cycle-start mark, whose own edge is the last of the cycle (corners DEDUCED, log 30). -/
def learnMark (d : Dev) (h : Half) : Dev :=
  let l := (d.half h).learn
  let d1 := if l.weAll then
      d.learnCycle h F.ANG_LEARNCNT_WE_CYC F.ANG_LEARNSTAT_WE_CONV F.ANG_LEARNCFG_WE_SHIFT 0x3B else d
  let d2 := if l.ripAll then
      d1.learnCycle h F.ANG_LEARNCNT_RIP_CYC F.ANG_LEARNSTAT_RIP_CONV F.ANG_LEARNCFG_RIP_SHIFT 0x3C
    else d1
  d2.onHalf h fun s => { s with learn := { s.learn with weAll := true, ripAll := true } }

/-! ### The cycle-start mark -/

/-- Half B counts its marks while the cross-link is lost; at GRACE it ends its outputs (R373). -/
def graceMark (d : Dev) (h : Half) : Dev :=
  let st := Reg.XLK_STAT h
  if h = .b ∧ d.bit st F.XLK_STAT_LOST = true then
    let d1 := d.satF st F.XLK_STAT_MARKS
    let g := d1.f (Reg.XLK_CFG h) F.XLK_CFG_GRACE
    if g ≠ 0xFFFF ∧ g ≤ d1.f st F.XLK_STAT_MARKS then
      (d1.setB st F.XLK_STAT_GRACE_OUT true).enterSafe h rFAULT false
    else d1
  else d

/-- Marks counted in the running grace of a host loss (R346). -/
def hostMark (d : Dev) (h : Half) : Dev :=
  match h with
  | .a => { d with link := { d.link with graceA := d.link.graceA.map (· + 1) } }
  | .b => { d with link := { d.link with graceB := d.link.graceB.map (· + 1) } }

/-- A cycle-start mark (R89, R133, R147, R153, R346, R373). -/
def cycleMark (d : Dev) (h : Half) : Dev :=
  let d1 := d.wr (Reg.ANG_CYCLE h) (d.rd (Reg.ANG_CYCLE h) + 1)
  let d2 := d1.onHalf h fun s => { s with wheel := { s.wheel with afterSafe := false } }
  let d3 := d2.setB (Reg.SNS_STAT h) F.SNS_STAT_REGIME (serviceRegime (d2.hmode h) false)
  (((d3.learnMark h).segCycle h).hostMark h).graceMark h

/-! ### RUN and LIMP -/

/-- The first occurrence of every channel after RUN or LIMP entry is chosen (R161, R173). -/
def chooseAll (d : Dev) (h : Half) : Dev :=
  (List.range 256).foldl
    (fun d c => if d.armed h c then d.startOver h c true else d) d

/-- The watch for missing cam edges starts (R115): each phase cam's first timed entry whose angle + TOL lies ahead of φ;
matches already made near φ stand (corners DEDUCED, log 28). -/
def camWatch (d : Dev) (h : Half) : Dev :=
  let p := d.phi h
  let tol := d.tol h
  let firsts := ((List.range 4).filter (d.phaseCam h)).filterMap fun c =>
    ((d.camEntries h c).foldl
      (fun (b : Option Int) e =>
        let n := ((p - ofN tol - ofN e.2.1) / ofN (max 1 (d.cycLen h))).floor + 1
        let v : Int := (e.2.1 : Int) + n * (max 1 (d.cycLen h) : Nat)
        match b with
        | some w => some (min v w)
        | none => some v) none).map fun v => (c, v)
  d.onHalf h fun s => { s with wheel := { s.wheel with
    camAt := firsts
    camSeen := s.wheel.camSeen.filter fun e =>
      decide (p < ((e.2 + tol : Int) : Rat) ∧ ((e.2 : Int) : Rat) ≤ p + ofN tol) } }

/-- RUN entered (R28, R93, R115, R173). -/
def enterRun (d : Dev) (h : Half) : Dev :=
  let d1 := ((d.enterMode h .run).raiseH h 0x31).segStop h
  let d2 := d1.onHalf h fun s => { s with
    learn := { s.learn with weAll := false, ripAll := false }
    track := { s.track with prepass := true } }
  ((d2.chooseAll h).ascAlignAll h).camWatch h

/-- What LIMP makes of a channel that it withholds (R174). -/
def limpChan (d : Dev) (h : Half) (c : Nat) : Dev :=
  if d.limpHeld h c then
    match (d.chan h c).occ with
    | .slot | .deferred => d.dropOcc h c rLIMP false
    | .pending => d.rechoose h c
    | _ => d
  else d

/-- LIMP entered from RUN (R28, R115 to R117, R131, R153, R173, R174) (corners DEDUCED, log 28). -/
def enterLimp (y : DevMem) (h : Half) (cam : Bool) : DevMem :=
  let z := logMark y h 0x06 (bnat cam)
  z.dev fun d =>
    let d1 := (d.enterMode h .limp).setB (Reg.ANG_STAT h) F.ANG_STAT_LIMP_SRC cam
    let d2 :=
      if cam then
        (d1.flagH h (Reg.WHL_STAT h) F.WHL_STAT_CRKLOST 0x35).onHalf h fun s =>
          { s with
            wheel := { s.wheel with limpFirst := true, crkGood := 0 }
            track := { s.track with ripple := [], next := none, ka := 0 } }
      else d1.camWatch h
    let d3 := ((d2.half h).chans.map (·.1)).foldl (fun d c => d.limpChan h c) d2
    ((d3.chooseAll h).segStop h).ascAlignAll h

end Dev

end Sys2Proof.Machine
end

