-- ==== Sys2Proof/Machine/Sched.lean ====
section
/-! DEFINITION. The event scheduler: slot takes, launches, issues, holds, late starts, arming (R159 to
R179, R209 to R214). -/

namespace Sys2Proof.Machine

open Sys2Proof

/-- The angle of the model at τ (R134): the ripple term taken at the quadratic path. -/
def Model.angleAt (x : Model) (tau : Rat) : Rat :=
  let q := x.theta + x.omega * tau + x.alpha * tau * tau / 2
  q + x.rho q

namespace Dev

/-- φ stood at the clamp in the HALF cycle before this one (R172, R179). -/
def held (d : Dev) (h : Half) : Bool :=
  let x := interpTo (d.model h) (d.now - 1) (d.track h)
  d.tracking h && decide (x.clamp ≤ x.phi)

/-- The model angle at a start with 16 fraction bits of a tick (R163): the anchor itself for an offset of
0 that is not fixed in time. -/
def startAngle (d : Dev) (h : Half) (c : Nat) (p : Int) : Rat :=
  let x := d.chan h c
  match x.pass with
  | some a =>
    if (d.valsNow h c).offset = 0 ∧ x.fixed = none then (a : Rat)
    else (d.model h).angleAt ((p : Rat) / 65536 - ofN (d.track h).tPrev)
  | none => (d.model h).angleAt ((p : Rat) / 65536 - ofN (d.track h).tPrev)

/-- An occurrence that is not issued (R159): marked off, or its effective duration is 0. -/
def notIssued (d : Dev) (h : Half) (c : Nat) (v : Vals) (p : Int) : Bool :=
  v.off || (hasEnd v.action &&
    if v.endAngle then
      decide ((roundAway (d.startAngle h c p) - (v.endVal : Int)) % (max 1 (d.cycLen h) : Nat) = 0)
    else decide (v.endVal = 0))

/-- An anchor that φ has passed fixes its start in time at the prediction of the passage (R162). -/
def fixPassed (d : Dev) (h : Half) (c : Nat) : Dev :=
  let x := d.chan h c
  match x.occ, x.fixed, x.pass, x.pred with
  | .pending, none, some a, some p | .slot, none, some a, some p =>
    if 0 < (d.valsNow h c).offset ∧ (a : Rat) ≤ d.phi h then
      (d.setChan h c { x with fixed := some p }).report h c
    else d
  | _, _, _, _ => d

/-! ### Late starts (R171) -/

/-- The switch that follows an accepted edge frees a start held at the clamp (R172). While φ still stands at
the clamp the start goes on waiting (corners DEDUCED, log 35). -/
def freeHeld (d : Dev) (h : Half) (c : Nat) : Dev :=
  if (d.chan h c).waitT.isSome && !d.held h then
    (d.setChan h c { d.chan h c with waitT := none }).setB (Reg.EVC_STAT h c) F.EVC_STAT_WAITING false
  else d

/-- A pending start is tested after a prediction switch (R171); `jumped`: the switch follows a jump,
`catching`: its edge was early and the catch-up runs (corners DEDUCED, log 34; DEDUCED, log 35). -/
def lateTest (d : Dev) (h : Half) (c : Nat) (jumped catching : Bool) : Dev :=
  match (d.chan h c).occ with
  | .pending | .slot =>
    match d.startTime h c with
    | none => d
    | some p =>
      let x := { d.chan h c with first := false }
      let lead := if isActuation (d.valsNow h c).action then 6 else 0
      let now16 : Int := d.now * 65536
      if now16 + lead * 65536 ≤ p then d.setChan h c { x with lateAt := none }
      else
        let lam := (d.track h).omega * ((now16 - p : Int) : Rat) / 65536
        if catching then
          d.setChan h c { x with lateAt := some ((((d.interp h).track h).m : Rat) / pow2Q 24 - lam) }
        else if lam ≤ ofN (d.culim h c) then d.setChan h c { x with lateAt := some (d.phi h) }
        else if (d.chan h c).first && decide (x.occ = .pending) then
          (d.setChan h c { x with
            prev := x.pass.or x.prev, occ := .none, pass := none, pred := none, fixed := none }).rechoose h c
        else d.dropOcc h c (if jumped then rSKIPPED else rPASSED) false
  | _ => d

/-- Every channel of a half tested after a switch. -/
def lateTests (d : Dev) (h : Half) (jumped catching : Bool) : Dev :=
  ((d.half h).chans.map (·.1)).foldl
    (fun d c => ((d.freeHeld h c).fixPassed h c).lateTest h c jumped catching) d

/-! ### Slot takes (R167, R169, R209, R214) -/

/-- When a holder frees its output, with 16 fraction bits (R169): its end, or its own start for an action
without one. -/
def holderEnd (d : Dev) (h : Half) (c : Nat) : Option Nat :=
  let x := d.chan h c
  let v := d.valsNow h c
  match x.occ with
  | .launched => if hasEnd v.action then x.endT else some (x.start * 65536)
  | .slot =>
    match d.startTime h c with
    | none => none
    | some p =>
      if !hasEnd v.action then some p.toNat
      else if v.endAngle then none
      else some (p.toNat + v.endVal * 65536)
  | _ => none

/-- GAP of a bank in ticks. -/
def bankGap (d : Dev) (h : Half) (b : Nat) : Nat :=
  40 * d.f (Reg.DRV_BANKLIM h b) F.DRV_BANKLIM_GAP

/-- DEFER_MAX of a bank in ticks. -/
def deferMax (d : Dev) (h : Half) (b : Nat) : Nat :=
  usTk (d.f (Reg.DRV_BANKLIM h b) F.DRV_BANKLIM_DEFER_MAX)

/-- Whether the shot in flight, or the last shot, of a bank ends too late for a start at tick P (R209). -/
def overlaps (d : Dev) (h : Half) (b p : Nat) (others : List Nat) : Bool :=
  let gap := d.bankGap h b
  (others.any fun j => match d.holderEnd h j with
    | some e => decide (p < e / 65536 + gap)
    | none => true) ||
  match (d.bank h b).lastEnd with
  | some e => decide (p < e + gap)
  | none => false

/-- The position of a channel among the enabled DRV channels of its low-side (R220). -/
def shotPos (d : Dev) (h : Half) (c n : Nat) : Nat :=
  ((List.range c).filter fun j => d.chEn h j && decide (d.chAction h j = 6) &&
    decide (getF (d.ctrl h j) F.EVC_CTRL_TARGET = n)).length % 8

/-- LOWBOOST with its count and source (R214) (corners DEDUCED, log 36). -/
def lowBoost (d : Dev) (h : Half) : Dev :=
  (d.flagH h (Reg.DRV_STAT h) F.DRV_STAT_LOWBOOST 0x43).satF (Reg.DRV_STAT h) F.DRV_STAT_LOWB_CNT

/-- A slot given and the values frozen (R163, R167): the occurrence is in flight. -/
def takeSlot (d : Dev) (h : Half) (c : Nat) (v : Vals) (g : Chan → Chan) : Dev :=
  match d.findSlot h with
  | none => (d.dropOcc h c rNOSLOT false).fault .slot (.half h)
  | some n =>
    let d1 := d.setChan h c (g { d.chan h c with
      occ := .slot, vals := some v, slot := some n, slotT := some d.now })
    (d1.giveSlot h n c).setB (Reg.EVC_STAT h c) F.EVC_STAT_INFLIGHT true

/-- The slot take of a DRV start (R169, R207, R209, R214): BUSY before LOWBOOST, then the overlap rule (corners DEDUCED,
log 36). -/
def takeDrv (d : Dev) (h : Half) (c : Nat) (v : Vals) (p : Int) : Dev :=
  let n := v.target
  let b := n / 2
  let others := d.holders h b
  let cfg := d.rd (Reg.DRV_PCFG h v.profile)
  if 2 ≤ others.length then d.dropOcc h c rBUSY false
  else
    let low := d.bit (Reg.BST_STAT h) F.BST_STAT_BELOW_START && getB cfg F.DRV_PCFG_BOOST_EN
    if low && getB cfg F.DRV_PCFG_LOWB then (d.lowBoost h).dropOcc h c rLOWBOOST false
    else
      let d0 := if low then d.lowBoost h else d
      let corr := if getB cfg F.DRV_PCFG_HYDRAULIC then
          getS (d.oldRd (Reg.DRV_HYDC h n (d.shotPos h c n))) F.DRV_HYDC_CORR
        else 0
      let pt := (p / 65536).toNat
      if d.overlaps h b pt others then
        let e1 := if others.isEmpty then (d.bank h b).lastEnd else none
        let d1 := d0.takeSlot h c v fun x => { x with
          occ := .deferred, deferT := some pt, after := others.head?, e1 := e1, degrade := low, corr := corr }
        if (d1.chan h c).occ = .deferred then
          ((d1.mark (Reg.DRV_STAT h) F.DRV_STAT_DEFER).mark (Reg.EVC_STAT h c) F.EVC_STAT_LATE).setB
            (Reg.DRV_BANKSTAT h b) F.DRV_BANKSTAT_DEFER_PEND true
        else d1
      else d0.takeSlot h c v fun x => { x with degrade := low, corr := corr }

/-- The restrikes that the action message of an IGN occurrence carries (R226). ANG_RPM counts sixteenths. -/
def restrikes (d : Dev) (h : Half) (v : Vals) : Nat :=
  if v.action = 5 ∧ (d.rd (Reg.ANG_RPM h)).toNat < 16 * d.f (Reg.IGN_MS h v.target) F.IGN_MS_MS_RPM then
    d.f (Reg.IGN_CFG h v.target) F.IGN_CFG_MSN
  else 0

/-- The slot take of an IGN or GAO start (R169): a slot, a booking, or BUSY. -/
def takeOut (d : Dev) (h : Half) (c : Nat) (v : Vals) (u : Nat) (p : Int) : Dev :=
  let rs := d.restrikes h v
  match d.holders h u with
  | [] => d.takeSlot h c v fun x => { x with restrikes := rs }
  | j :: _ =>
    match d.holderEnd h j, d.bookedInto h j with
    | some e, none =>
      if (e : Int) ≤ p then
        (d.setChan h c { d.chan h c with
          occ := .slot, vals := some v, slotT := some d.now, booked := some j, restrikes := rs }).setB
            (Reg.EVC_STAT h c) F.EVC_STAT_INFLIGHT true
      else d.dropOcc h c rBUSY false
    | _, _ => d.dropOcc h c rBUSY false

/-- FUELCUT of a half (R177). -/
def fuelCut (d : Dev) (h : Half) : Bool := d.bit (Reg.DMD_STAT h) F.DMD_STAT_FUELCUT

/-- P − 160 tk of one pending actuation (R159, R167, R169, R177, R178) (corners DEDUCED, log 34; DEDUCED, log 36). -/
def takeOne (d : Dev) (h : Half) (c : Nat) : Dev :=
  let v := d.vals h c
  match (d.chan h c).occ, d.startTime h c, outputOf v.action v.target with
  | .pending, some p, some o =>
    if d.operating && d.chIssues h c && decide (p / 65536 ≤ ((d.now + 160 : Nat) : Int)) then
      if d.notIssued h c v p then d.closeOcc h c
      else if d.mode = .halt then d.dropOcc h c rHALT false
      else
        match o with
        | .ls _ => if d.fuelCut h then d.dropOcc h c rHOSTLOSS false else d.takeDrv h c v p
        | _ => d.takeOut h c v o.unit p
    else d
  | _, _, _ => d

/-- The channels of a half that are not at their reset state, ascending. -/
def activeChans (d : Dev) (h : Half) : List Nat := (d.half h).chans.map (·.1)

/-- A slot take, after those that lower channels have due in this cycle (R179). -/
def slotTake (d : Dev) (h : Half) (c : Nat) : Dev :=
  ((d.activeChans h).filter fun j => decide (j < c)).foldl (fun d j => d.takeOne h j) d |>.takeOne h c

/-- Every slot take that is due: it comes before the switch of the same cycle (R179). -/
def allTakes (d : Dev) (h : Half) : Dev := (d.activeChans h).foldl (fun d j => d.takeOne h j) d

/-- A channel disarmed: a slot take due in this cycle comes first (R179); an occurrence that holds no slot and has not
issued is abandoned (R160). -/
def disarm (d : Dev) (h : Half) (c : Nat) : Dev :=
  ((d.slotTake h c).setB (Reg.EVC_STAT h c) F.EVC_STAT_ARMED false).rechoose h c

/-! ### Launches -/

/-- LATE of a channel, where the condition holds (corners DEDUCED, log 35). -/
def lateIf (d : Dev) (h : Half) (c : Nat) (b : Bool) : Dev :=
  if b then d.mark (Reg.EVC_STAT h c) F.EVC_STAT_LATE else d

/-- LATE and CAUGHT of a start that the test of R171 found late, as it is issued (corners DEDUCED, log 35). -/
def issuedLate (d : Dev) (h : Half) (c : Nat) (x : Chan) : Dev :=
  if x.lateAt.isSome then (d.lateIf h c true).mark (Reg.EVC_STAT h c) F.EVC_STAT_CAUGHT else d

/-- A start waits at the clamp (R172) (corners DEDUCED, log 35). -/
def hold (d : Dev) (h : Half) (c : Nat) : Dev :=
  let x := d.chan h c
  (d.setChan h c { x with waitT := some (x.waitT.getD d.now) }).setB (Reg.EVC_STAT h c)
    F.EVC_STAT_WAITING true

/-- The fine part of an edge, in taps of 1/32 tick (R136, R247) (corners DEDUCED, log 34). -/
def fineOf (t16 : Nat) : Nat := t16 % 65536 / 2048

/-- The occurrence runs from its start at the ball, `ball` with 16 fraction bits; `p` is its nominal
start, from which an angle end is placed (R163, R164, R171, R221). -/
def run (d : Dev) (h : Half) (c : Nat) (ball : Nat) (p : Int) : Dev :=
  let x := d.chan h c
  let v := d.valsNow h c
  let cyc := d.cycLen h
  let dur := if x.corr = 0 then v.endVal else (max 400 ((v.endVal : Int) + 4 * x.corr)).toNat
  let endT := if hasEnd v.action && !v.endAngle then some (ball + dur * 65536) else none
  let a := d.startAngle h c p
  let endA := if hasEnd v.action && v.endAngle then some (nextPassage cyc v.endVal a) else none
  let st := Reg.EVC_STAT h c
  (((d.setChan h c { x with
    occ := .launched, vals := some v, start := ball / 65536, fine := fineOf ball, waitT := none, lateAt := none,
    pred := none, coef := none, endT := endT, endA := endA }).setB st
      F.EVC_STAT_WAITING false).incF st F.EVC_STAT_OCC).report h c

/-- An output edge lane for an edge launched now (R14): how many ticks it waits for the first lane that becomes
free. A lane carries one edge in 4 tk; its delay line takes the code of the moment, between handshakes (R247) (DESIGN
CHOICE, log 4). -/
def lane (d : Dev) (h : Half) : Nat × Dev :=
  let code := d.f Reg.PWM_DLSTAT F.PWM_DLSTAT_CODE
  let busy := (d.half h).lanes.filter fun t => decide (d.now < t.1)
  let first := (busy.map (·.1)).foldl min (d.now + 20)
  if busy.length < 8 then (0, d.onHalf h fun s => { s with lanes := (d.now + 4, code) :: busy })
  else (first - d.now, d.onHalf h fun s => { s with
    lanes := (first + 4, code) :: busy.eraseP fun t => decide (t.1 = first) })

/-- The edge of an actuation that would be launched now, with 16 fraction bits: the start of an occurrence with a slot or
a booking, a deferred start, an end (R167, R209). -/
def edgeDue (d : Dev) (h : Half) (c : Nat) : Option Nat :=
  let x := d.chan h c
  let at' := fun (t : Nat) => if t / 65536 ≤ d.now + 6 then some (max t ((d.now + 6) * 65536)) else none
  match x.occ with
  | .slot =>
    match d.startTime h c with
    | some p => if x.lateAt.all fun s => decide (s ≤ d.phi h) then at' p.toNat else none
    | none => none
  | .deferred => x.e1.bind fun e => at' ((e + d.bankGap h ((d.valsNow h c).target / 2)) * 65536)
  | .launched => if isActuation (d.valsNow h c).action && !x.ending then x.endT.bind at' else none
  | _ => none

/-- The edges that come before a channel's: earlier in time, or at the same time of a lower channel (R14). -/
def edgesBefore (d : Dev) (h : Half) (c : Nat) : List (Nat × Nat) :=
  match d.edgeDue h c with
  | none => []
  | some t =>
    let due := (d.activeChans h).filterMap fun j => (d.edgeDue h j).map fun u => (u, j)
    (due.filter fun e => decide (e.1 < t ∨ (e.1 = t ∧ e.2 < c))).foldr
      (insertBy fun a b => decide (a.1 < b.1 ∨ (a.1 = b.1 ∧ a.2 ≤ b.2))) []

/-- P − 6 tk of an occurrence that holds a slot or a booking (R167, R169, R171, R172). -/
def startOne (d : Dev) (h : Half) (c : Nat) : Dev :=
  let x := d.chan h c
  match x.occ, d.startTime h c with
  | .slot, some p =>
    if !(d.operating && d.issuing h && (d.edgeDue h c).isSome) then d
    else if d.mode = .halt then d.dropOcc h c rHALT false
    else if d.held h || x.waitT.isSome then d.hold h c
    else if x.booked.isSome && x.slot.isNone then d.dropOcc h c rBUSY false
    else
      let onTime := decide (((d.now + 6 : Nat) : Int) ≤ p / 65536)
      let w := d.lane h
      let ball := (if onTime then p.toNat else (d.now + 6) * 65536) + w.1 * 65536
      ((w.2.issuedLate h c x).lateIf h c (!onTime || decide (0 < w.1))).run h c ball p
  | _, _ => d

/-- E − 6 tk of a launched actuation (R167, R169, R209): the slot passes to a booked occurrence, E1 of a deferred one is
fixed (corners DEDUCED, log 36). -/
def endOne (d : Dev) (h : Half) (c : Nat) : Dev :=
  let x := d.chan h c
  match x.occ, x.endT, d.edgeDue h c with
  | .launched, some e, some _ =>
    let onTime := decide (d.now + 6 ≤ e / 65536)
    let w := d.lane h
    let e' := (if onTime then e else (d.now + 6) * 65536) + w.1 * 65536
    let d2 := ((w.2.lateIf h c (!onTime || decide (0 < w.1))).setChan h c { x with
      ending := true, endT := some e', fine := fineOf e' }).fixE1 h c fun _ => e' / 65536
    if (d2.bookedInto h c).isSome then d2.releaseSlot h c else d2
  | _, _, _ => d

/-! ### Deferred starts (R209, R210) -/

/-- Whether a deferred start has passed its limit (R209, R210) (corners DEDUCED, log 36). -/
def deferExpired (d : Dev) (h : Half) (c p : Nat) : Bool :=
  let v := d.valsNow h c
  let b := v.target / 2
  let lim := p + d.deferMax h b
  (match (d.chan h c).e1 with
   | some e1 => decide (lim < e1 + d.bankGap h b)
   | none => decide (lim < d.now + 6)) ||
  (v.endAngle && decide ((nextPassage (d.cycLen h) v.endVal (d.startAngle h c ((p : Int) * 65536)) : Rat) ≤
    d.phi h))

/-- A deferral past its limit is dropped OVLP (R209). -/
def deferralEnd (d : Dev) (h : Half) (c : Nat) : Dev :=
  let x := d.chan h c
  match x.occ, x.deferT with
  | .deferred, some p =>
    if d.deferExpired h c p then
      ((d.flagH h (Reg.DRV_STAT h) F.DRV_STAT_OVLP_DROP 0x42).satF (Reg.DRV_STAT h)
        F.DRV_STAT_OVLP_CNT).dropOcc h c rOVLP false
    else d
  | _, _ => d

/-- A deferred start is launched 6 tk before E1 + GAP, unless it is past its limit (R209, R210). -/
def deferredOne (d : Dev) (h : Half) (c : Nat) : Dev :=
  let x := d.chan h c
  match x.occ, x.deferT, d.edgeDue h c with
  | .deferred, some p, some t =>
    if !(d.operating && d.issuing h) then d
    else if d.deferExpired h c p then d.deferralEnd h c
    else if d.mode = .halt then d.dropOcc h c rHALT false
    else if d.held h || x.waitT.isSome then d.hold h c
    else
      let w := d.lane h
      ((w.2.lateIf h c (decide (0 < w.1))).run h c (t + w.1 * 65536) ((p : Int) * 65536)).setB
        (Reg.DRV_BANKSTAT h ((d.valsNow h c).target / 2)) F.DRV_BANKSTAT_DEFER_PEND false
  | _, _, _ => d

/-! ### The order of launches (R14, R179) -/

/-- The one edge of a channel that may be launched now. -/
def launchOne (d : Dev) (h : Half) (c : Nat) : Dev :=
  match (d.chan h c).occ with
  | .slot => d.startOne h c
  | .deferred => d.deferredOne h c
  | .launched => d.endOne h c
  | _ => d

/-- The edges before a channel's, then its own (R14). -/
def launchUpTo (d : Dev) (h : Half) (c : Nat) : Dev :=
  ((d.edgesBefore h c).foldl (fun d e => d.launchOne h e.2) d).launchOne h c

/-- A launch of a channel. An end whose slot, or whose E1, the start waits for is launched first (R179, R209). -/
def launch (d : Dev) (h : Half) (c : Nat) : Dev :=
  let x := d.chan h c
  let d1 := match x.occ, x.booked.or x.after with
    | .slot, some j | .deferred, some j =>
      if (d.chan h j).occ = Occ.launched ∧ (d.edgeDue h j).isSome then d.launchUpTo h j else d
    | _, _ => d
  d1.launchUpTo h c

/-- START_LAUNCH: a launch where the channel has a start to launch. -/
def startLaunch (d : Dev) (h : Half) (c : Nat) : Dev := if (d.chan h c).occ = .slot then d.launch h c else d

/-- END_LAUNCH: a launch where the channel has an end to launch. -/
def endLaunch (d : Dev) (h : Half) (c : Nat) : Dev := if (d.chan h c).occ = .launched then d.launch h c else d

/-- DEFERRED_LAUNCH: a launch where the channel has a deferred start. -/
def deferredLaunch (d : Dev) (h : Half) (c : Nat) : Dev :=
  if (d.chan h c).occ = .deferred then d.launch h c else d

/-! ### Internal actions (R157, R168) -/

/-- What an internal action does at its start; it carries the tick of the start. -/
def issueAction (d : Dev) (h : Half) (v : Vals) (tick : Nat) : Dev :=
  match v.action with
  | 7 => d.send (.urgent h v.target tick d.now none)
  | 8 | 0xA => d.send (.accOpen h v.target tick none)
  | 9 => d.send (.accClose h v.target tick none)
  | 0xB => d.send (.timer v.target .event tick)
  | 0xC => d.send (.colt v.target)
  | 0xD => d.send (.mule (match h with | .a => 38 | .b => 39) v.target)
  | _ => d

/-- Whether an internal action's start at p has come due (R168, R171). -/
def issueDue (d : Dev) (h : Half) (c : Nat) (p : Int) : Bool :=
  d.chIssues h c && decide (p / 65536 ≤ (d.now : Int)) &&
    (d.chan h c).lateAt.all fun s => decide (s ≤ d.phi h)

/-- The time of the internal action of a channel that may be issued now: a start that is not held, or an end (R168). -/
def issueTime (d : Dev) (h : Half) (c : Nat) : Option Int :=
  let x := d.chan h c
  if isActuation (d.valsNow h c).action then none
  else match x.occ with
    | .pending => (d.startTime h c).filter fun p =>
      d.issueDue h c p && !(d.notIssued h c (d.vals h c) p || d.held h || x.waitT.isSome)
    | .launched => (x.endT.filter fun e => decide (e / 65536 ≤ d.now)).map fun e => (e : Int)
    | _ => none

/-- The channel whose internal action is issued next: the first by time, then by number (R168). -/
def firstInternal (d : Dev) (h : Half) : Option Nat :=
  ((d.activeChans h).foldl
    (fun (b : Option (Int × Nat)) c =>
      match d.issueTime h c, b with
      | some t, some q => if t < q.1 then some (t, c) else b
      | some t, none => some (t, c)
      | none, _ => b) none).map (·.2)

/-- The issue of an internal action at its start (R159, R163, R168, R172, R178). -/
def issueStart (d : Dev) (h : Half) (c : Nat) : Dev :=
  let x := d.chan h c
  let v := d.vals h c
  match d.startTime h c with
  | none => d
  | some p =>
    if !d.issueDue h c p then d
    else if d.notIssued h c v p then d.closeOcc h c
    else if d.mode = .halt then d.dropOcc h c rHALT false
    else if d.held h || x.waitT.isSome then d.hold h c
    else if d.firstInternal h ≠ some c then d
    else
      let d0 := d.onHalf h fun s => { s with lastInternal := some d.now }
      let d1 := (d0.issuedLate h c x).lateIf h c (decide (p / 65536 < (d.now : Int)))
      let d2 := (d1.setChan h c { x with vals := some v }).issueAction h v (p / 65536).toNat
      if v.action = 0xA then
        (d2.run h c p.toNat p).setB (Reg.EVC_STAT h c) F.EVC_STAT_INFLIGHT true
      else
        (d2.incF (Reg.EVC_STAT h c) F.EVC_STAT_OCC).complete h c d.now

/-- The issue of an ACC_WIN end (R168, R172). -/
def issueEnd (d : Dev) (h : Half) (c : Nat) : Dev :=
  let x := d.chan h c
  let v := d.valsNow h c
  match x.endT with
  | none => d
  | some e =>
    if e / 65536 ≤ d.now ∧ d.firstInternal h = some c then
      let d0 := d.onHalf h fun s => { s with lastInternal := some d.now }
      let d1 := if e / 65536 < d.now then d0.mark (Reg.EVC_STAT h c) F.EVC_STAT_LATE else d0
      (d1.send (.accClose h v.target (e / 65536) none)).complete h c d.now
    else d

/-- One internal action of a half in this HALF cycle (R168). -/
def internalIssue (d : Dev) (h : Half) (c : Nat) : Dev :=
  let x := d.chan h c
  if !(d.operating && d.issuing h) || decide ((d.half h).lastInternal = some d.now) then d
  else
    match x.occ with
    | .pending => if isActuation (d.vals h c).action then d else d.issueStart h c
    | .launched => if isActuation (d.valsNow h c).action then d else d.issueEnd h c
    | _ => d

/-- What is due on the present values goes before a switch of this cycle: every slot take, and the internal action whose
turn it is (R179, R182). -/
def beforeSwitch (d : Dev) (h : Half) : Dev :=
  let d1 := d.allTakes h
  match d1.firstInternal h with
  | some c => d1.internalIssue h c
  | none => d1

/-! ### Anchors, holds, status -/

/-- φ reaches the anchor of a start with a positive offset (R162). -/
def anchorReached (d : Dev) (h : Half) (c : Nat) : Dev :=
  let x := d.chan h c
  match x.occ, x.pass with
  | .pending, some a | .slot, some a =>
    if x.fixed.isNone && decide (0 < (d.valsNow h c).offset) && decide ((a : Rat) ≤ d.phi h) &&
        !((d.track h).passing && (d.track h).jumped) then
      (d.setChan h c { x with fixed := some (d.now * 65536) }).report h c
    else d
  | _, _ => d

/-- A start held at the clamp for MAXDEF is dropped HELD (R172); a deferred one whose deferral runs out too, OVLP
(R210). -/
def heldTimeout (d : Dev) (h : Half) (c : Nat) : Dev :=
  let x := d.chan h c
  let m := d.f (Reg.EVC_LIMIT h c) F.EVC_LIMIT_MAXDEF
  match x.occ, x.waitT with
  | .none, _ | .launched, _ | _, none => d
  | _, some w =>
    if m ≠ 0 ∧ w + usTk m ≤ d.now then
      if x.occ = .deferred ∧ d.deferExpired h c (x.deferT.getD 0) = true then d.deferralEnd h c
      else d.dropOcc h c rHELD false
    else d

/-- The flags of one channel cleared by a mask of EVC_STCLR. -/
def clearStat (d : Dev) (h : Half) (v : Word) (c : Nat) : Dev :=
  let st := Reg.EVC_STAT h c
  let d1 := if getB v F.EVC_STCLR_CUT then d.clrFlag st F.EVC_STAT_CUT else d
  let d2 := if getB v F.EVC_STCLR_DROP then
      (d1.clrFlag st F.EVC_STAT_DROP).clrCount st F.EVC_STAT_DROPS else d1
  let d3 := if getB v F.EVC_STCLR_CAUGHT then d2.clrFlag st F.EVC_STAT_CAUGHT else d2
  let d4 := if getB v F.EVC_STCLR_LATE then d3.clrFlag st F.EVC_STAT_LATE else d3
  if getB v F.EVC_STCLR_DONE then d4.clrFlag st F.EVC_STAT_DONE else d4

/-- A write of EVC_STCLR: one channel, or the 16 of a group; the sums (corners DEDUCED, log 36). -/
def stclr (d : Dev) (h : Half) (v : Word) : Dev :=
  let ch := getF v F.EVC_STCLR_CH
  let cs := if getB v F.EVC_STCLR_GRP then (List.range 16).map (fun j => ch / 16 * 16 + j) else [ch]
  let d1 := cs.foldl (fun d c => d.clearStat h v c) d
  if getB v F.EVC_STCLR_SUMCLR then
    let sum := Reg.EVC_SUM h
    let d2 := if d1.since sum F.EVC_SUM_PEAK = 0 then d1.setF sum F.EVC_SUM_PEAK 0 else d1
    d2.clrCount sum F.EVC_SUM_DROPTOT
  else d1

/-- The bits of EVC_ARMg or EVC_DISARMg that are 1, as channels. -/
def groupBits (g : Nat) (v : Word) : List Nat := (bitsOf v 16).map fun j => 16 * g + j

end Dev

/-! ### The commands -/

/-- SLOT_TAKE (R159, R167, R169, R170, R209, R214). -/
def execSlotTake (t : Tick) (h : Half) (c : Fin 256) (s : State) : Out :=
  s.onDev t fun d => d.slotTake h c.val

/-- START_LAUNCH (R167, R169, R171, R172). -/
def execStartLaunch (t : Tick) (h : Half) (c : Fin 256) (s : State) : Out :=
  s.onDev t fun d => d.startLaunch h c.val

/-- END_LAUNCH (R167, R169). -/
def execEndLaunch (t : Tick) (h : Half) (c : Fin 256) (s : State) : Out :=
  s.onDev t fun d => d.endLaunch h c.val

/-- INTERNAL_ACTION_ISSUE (R157, R168, R172, R178). -/
def execInternalActionIssue (t : Tick) (h : Half) (c : Fin 256) (s : State) : Out :=
  s.onDev t fun d => d.internalIssue h c.val

/-- ANCHOR_REACHED (R162). -/
def execAnchorReached (t : Tick) (h : Half) (c : Fin 256) (s : State) : Out :=
  s.onDev t fun d => d.anchorReached h c.val

/-- HELD_TIMEOUT (R172). -/
def execHeldTimeout (t : Tick) (h : Half) (c : Fin 256) (s : State) : Out :=
  s.onDev t fun d => d.heldTimeout h c.val

/-- CHANNEL_ARM (R160). -/
def execChannelArm (t : Tick) (_m : Master) (h : Half) (g : Fin 16) (v : Word) (s : State) : Out :=
  s.onDev t fun d => d.onWrite (Reg.EVC_ARM h g.val) fun d =>
    (Dev.groupBits g.val v).foldl (fun d c => d.arm h c) d

/-- CHANNEL_DISARM (R160). -/
def execChannelDisarm (t : Tick) (_m : Master) (h : Half) (g : Fin 16) (v : Word) (s : State) : Out :=
  s.onDev t fun d => d.onWrite (Reg.EVC_DISARM h g.val) fun d =>
    (Dev.groupBits g.val v).foldl (fun d c => d.disarm h c) d

/-- EVC_STATUS_CLEAR (R8, EVC_STCLR). -/
def execEvcStatusClear (t : Tick) (_m : Master) (h : Half) (v : Word) (s : State) : Out :=
  s.onDev t fun d => d.onWrite (Reg.EVC_STCLR h) fun d => d.stclr h v

/-- DEFERRED_LAUNCH (R209, R210). -/
def execDeferredLaunch (t : Tick) (h : Half) (c : Fin 256) (s : State) : Out :=
  s.onDev t fun d => d.deferredLaunch h c.val

/-- DEFERRAL_TIMEOUT (R209, R210). -/
def execDeferralTimeout (t : Tick) (h : Half) (c : Fin 256) (s : State) : Out :=
  s.onDev t fun d => d.deferralEnd h c.val

end Sys2Proof.Machine
end

