-- ==== Sys2Proof/Machine/Drive.lean ====
section
/-! DEFINITION. The injector banks: the phases of a shot, chopping, diagnostics, needle detection, the
result record, the hydraulic correction (R196 to R222). -/

namespace Sys2Proof.Machine

open Sys2Proof

namespace Dev

/-! ### The shot of a bank -/

/-- Whether a shot of a bank drives its gates: it runs and has not ended. -/
def shooting (x : Bank) : Bool := decide (x.phase ≠ .idle ∧ x.phase ≠ .decay)

/-- The shot of a bank changed. -/
def onShot (d : Dev) (h : Half) (b : Nat) (g : Shot → Shot) : Dev :=
  let x := d.bank h b
  d.setBank h b { x with shot := x.shot.map g }

/-- A bank with its gates as one of the states of R199, from a tick on; a monitor waits for BLANK after its FET switches
on (R216). -/
def gates (x : Bank) (t : Nat) (hsb hsv inj : Bool) : Bank :=
  { x with
    hsb := setGate x.hsb t hsb, hsv := setGate x.hsv t hsv, inj := setGate x.inj t inj
    monHsb := x.monHsb && x.hsb.on, monHsv := x.monHsv && x.hsv.on, monLs := x.monLs && x.inj.on }

/-- A diagnostic flag of a shot (R217): the bank's sticky flag and DRV_STAT.DIAG with its source. -/
def bankDiag (d : Dev) (h : Half) (b : Nat) (x : Fld) : Dev :=
  (d.mark (Reg.DRV_BANKSTAT h b) x).flagH h (Reg.DRV_STAT h) F.DRV_STAT_DIAG 0x41

/-! ### The result record (R218 to R220) -/

/-- Both knees of a shot, as opening and closing tick. -/
def knees (s : Shot) : Option (Nat × Nat) :=
  match s.knee, s.closeKnee with
  | some a, some b => some (a, b)
  | _, _ => none

/-- A shot updates its correction (R220). -/
def updates (s : Shot) : Bool :=
  getB s.pcfg F.DRV_PCFG_HYDRAULIC && (knees s).isSome && !s.cut && !s.degraded &&
    !(s.holdTmo || s.openLoad || s.ttpLong || s.ttpShort || s.oc || s.vdsLs || s.vdsHsv || s.vdsHsb)

/-- The hydraulic duration in ticks (R219). -/
def hydTk (s : Shot) : Int :=
  match knees s with
  | some (a, b) => (b : Int) - a
  | none => 0

/-- The corrected C (R220) and whether it saturated. -/
def newCorr (s : Shot) (c : Int) : Int × Bool :=
  let err := roundAway (((s.durDem - hydTk s : Int) : Rat) / 4)
  let c' := c + roundAway ((err : Rat) / pow2Q (getF s.phyd F.DRV_PHYD_HYD_SHIFT))
  let lim : Int := 100 * getF s.phyd F.DRV_PHYD_HYD_LIM
  if lim < c' then (lim, true) else if c' < -lim then (-lim, true) else (c', false)

/-- RES_FLAGS of a shot. -/
def resFlags (s : Shot) : Word :=
  let needle := getB s.pcfg F.DRV_PCFG_NEEDLE_EN
  BitVec.ofNat 32
    (bnat s.cut * 2 ^ 31 + bnat s.bankOff * 2 ^ 30 + bnat s.degraded * 2 ^ 29 +
      bnat s.lateboost * 2 ^ 28 + bnat s.deferred * 2 ^ 27 + bnat s.refresh * 2 ^ 26 +
      bnat (needle && s.knee.isNone) * 2 ^ 25 + bnat (needle && s.closeKnee.isNone) * 2 ^ 24 +
      bnat s.holdTmo * 2 ^ 23 + bnat s.openLoad * 2 ^ 22 + bnat s.ttpLong * 2 ^ 21 +
      bnat s.ttpShort * 2 ^ 20 + bnat s.oc * 2 ^ 19 + bnat s.vdsLs * 2 ^ 18 + bnat s.vdsHsv * 2 ^ 17 +
      bnat s.vdsHsb * 2 ^ 16 + bnat (updates s) * 2 ^ 7 + s.pos % 8 * 16 + s.prof % 16)

/-- The result record of a bank's ended shot is written, with the update of C (R219, R220). -/
def writeRecord (d : Dev) (h : Half) (b : Nat) : Dev :=
  match (d.bank h b).shot with
  | none => d
  | some s =>
    if s.record && s.searchDone then
      let n := s.ls
      let ttp := match s.ttp with | some t => min t 0xFFFF | none => 0xFFFF
      let d1 := ((((d.wr (Reg.DRV_RES_START h n) (lo32 s.start)).wr (Reg.DRV_RES_END h n)
        (lo32 s.endT)).wr (Reg.DRV_RES_OPEN h n) (lo32 (s.knee.getD 0))).wr (Reg.DRV_RES_CLOSE h n)
        (lo32 (s.closeKnee.getD 0))).wr (Reg.DRV_RES_TTP h n)
        (BitVec.ofNat 32 ((s.corr % 0x10000).toNat * 0x10000 + ttp))
      let d2 := ((d1.wr (Reg.DRV_RES_HYD h n) (wordOfInt (hydTk s))).wr (Reg.DRV_RES_FLAGS h n)
        (resFlags s)).wr (Reg.DRV_RES_SEQ h n) (d1.rd (Reg.DRV_RES_SEQ h n) + 1)
      let d3 := d2.onShot h b fun s => { s with record := false }
      if updates s then
        let a := Reg.DRV_HYDC h n s.pos
        let r := newCorr s (getS (d3.rd a) F.DRV_HYDC_CORR)
        let d4 := d3.wr a (BitVec.ofNat 32 (r.1 % 0x10000).toNat)
        if r.2 then d4.flagH h (Reg.DRV_STAT h) F.DRV_STAT_CORR_SAT 0x44 else d4
      else d3
    else d

/-! ### The start at the balls (R202, R206, R214, R216) -/

/-- Whether a low-side switches gates: its bank and the low-side enabled, the bank not latched off. -/
def bankLive (d : Dev) (h : Half) (n : Nat) : Bool :=
  let b := n / 2
  let cfg := d.rd (Reg.DRV_BANKCFG h b)
  !d.bit (Reg.DRV_BANKSTAT h b) F.DRV_BANKSTAT_OFF && getB cfg F.DRV_BANKCFG_EN &&
    getB cfg (if n % 2 = 0 then F.DRV_BANKCFG_LS0_EN else F.DRV_BANKCFG_LS1_EN)

/-- A closing search of a bank ends at the next start edge, and its record is written (R218, R222). -/
def searchCut (d : Dev) (h : Half) (b : Nat) : Dev :=
  (d.onShot h b fun s => if s.record then { s with searchDone := true } else s).writeRecord h b

/-- The start edge of a channel's shot at the balls (R202, R206, R214) (corners DEDUCED, log 36). -/
def startShot (d : Dev) (h : Half) (c : Nat) (v : Vals) : Dev :=
  let n := v.target
  let b := n / 2
  let p := v.profile
  let d0 := d.searchCut h b
  let x := d0.chan h c
  let cfg := d0.rd (Reg.DRV_PCFG h p)
  let boost := getB cfg F.DRV_PCFG_BOOST_EN
  let late := boost && !x.degrade && d0.bit (Reg.BST_STAT h) F.BST_STAT_BELOW_START
  let live := d0.bankLive h n
  let dem : Int := if v.endAngle then 0 else v.endVal
  let s : Shot :=
    { chan := c, ls := n, prof := p
      pboost := d0.rd (Reg.DRV_PBOOST h p), ppeak := d0.rd (Reg.DRV_PPEAK h p)
      phold := d0.rd (Reg.DRV_PHOLD h p), pcfg := cfg, pdiag := d0.rd (Reg.DRV_PDIAG h p)
      pneedle := d0.rd (Reg.DRV_PNEEDLE h p), phyd := d0.rd (Reg.DRV_PHYD h p)
      diag := d0.rd (Reg.DRV_BANKDIAG h b)
      minChop := 4 * d0.f (Reg.DRV_BANKCFG h b) F.DRV_BANKCFG_MINCHOP, pos := d0.shotPos h c n
      corr := x.corr, durDem := dem, start := d0.now, endT := 0
      degraded := x.degrade || late, lateboost := late, deferred := x.deferT.isSome
      bankOff := !live, cut := false, refresh := false, holdTmo := false, openLoad := false
      ttpLong := false, ttpShort := false, oc := false, vdsLs := false, vdsHsv := false
      vdsHsb := false, boosted := boost, ttp := none, phaseT := d0.now, peakT := d0.now
      nextHold := false, knee := none, closeKnee := none, armT := none, record := false
      searchDone := false }
  let d1 := if late then d0.lowBoost h else d0
  let y : Bank := { d1.bank h b with
    phase := if boost then .boost else .peak, shot := some s, decaying := false }
  let hsb := boost && !s.degraded
  let off := Bank.gatesOff y d1.now
  let y := if live then gates off d1.now hsb (!hsb) true else off
  (d1.setBank h b y).bankStat h b

/-- The demanded duration of an angle end, as it stands when the end is launched (R220): the correction
of R221 is no part of it. -/
def fixDemand (d : Dev) (h : Half) (c : Nat) : Dev :=
  let x := d.chan h c
  let v := d.valsNow h c
  match x.endT with
  | some e =>
    if v.action = 6 ∧ v.endAngle then
      d.onShot h (v.target / 2) fun s =>
        if s.chan = c ∧ s.record = false then { s with durDem := (e / 65536 : Nat) - 4 * s.corr - s.start }
        else s
    else d
  | none => d

/-- The end edge of a shot at the balls (R202, R222): a shot that has ended already stays ended. -/
def shotEnd (d : Dev) (h : Half) (c b : Nat) : Dev :=
  match (d.bank h b).shot with
  | some s => if s.chan = c then (d.fixDemand h c).endShot h b d.now id else d
  | none => d

/-! ### Phases (R202, R203, R217) -/

/-- A shot that ended in the present DRIVE cycle, its record still to be written. -/
def justEnded (d : Dev) (x : Bank) (s : Shot) : Bool :=
  decide (x.phase = .decay) && decide (s.endT / 4 = d.now / 4) && s.record

/-- The test of R203 on a time to peak in DRIVE cycles; `tmax`: the boost phase was ended by TMAX. -/
def ttpTest (d : Dev) (h : Half) (b : Nat) (s : Shot) (ttp : Nat) (tmax : Bool) : Dev :=
  if s.degraded then d
  else
    let short := decide (ttp < 10 * getF s.pdiag F.DRV_PDIAG_TTP_MIN)
    let long := tmax || decide (10 * getF s.pdiag F.DRV_PDIAG_TTP_MAX ≤ ttp)
    let d1 := d.onShot h b fun s => { s with
      ttp := some ttp, ttpShort := s.ttpShort || short, ttpLong := s.ttpLong || long }
    let d2 := if short then d1.bankDiag h b F.DRV_BANKSTAT_TTP_SHORT else d1
    let d3 := if long then d2.bankDiag h b F.DRV_BANKSTAT_TTP_LONG else d2
    if (short || long) && getB s.pcfg F.DRV_PCFG_TTPEND then d3.endShot h b d3.now id else d3

/-- A transition to the next phase begins: fast decay for TFAST, then slow decay (R202). -/
def toTransition (d : Dev) (h : Half) (b : Nat) (hold : Bool) : Dev :=
  let x := d.bank h b
  match x.shot with
  | none => d
  | some s =>
    if shooting x then
      let fast := decide (getF s.pcfg F.DRV_PCFG_TFAST ≠ 0)
      let s' := { s with nextHold := hold, phaseT := d.now, peakT := d.now }
      d.setBank h b { gates x d.now false false (!fast && !s.bankOff) with
        phase := if fast then .transFast else .transSlow, shot := some s' }
    else d

/-- The boost phase ends (R202, R203); so it does where OPEN, found at the same instant, has ended the shot (R217). -/
def boostEnd (d : Dev) (h : Half) (b : Nat) (atLevel : Bool) : Dev :=
  let x := d.bank h b
  match x.shot with
  | some s =>
    let due := atLevel || decide (s.start + 40 * getF s.pboost F.DRV_PBOOST_TMAX ≤ d.now)
    let open' := d.justEnded x s && s.openLoad && s.boosted && s.ttp.isNone
    if (decide (x.phase = .boost) || open') && due then
      (d.ttpTest h b s ((d.now - s.start) / 4) (!atLevel)).toTransition h b false
    else d
  | none => d

/-- TFAST is over (R202). -/
def fastEnd (d : Dev) (h : Half) (b : Nat) : Dev :=
  let x := d.bank h b
  match x.phase, x.shot with
  | .transFast, some s =>
    if s.phaseT + 40 * getF s.pcfg F.DRV_PCFG_TFAST ≤ d.now then
      d.setBank h b { gates x d.now false false (!s.bankOff) with phase := .transSlow }
    else d
  | _, _ => d

/-- The current is down at the next phase's lower level: that phase begins, and its chopper turns the
battery gate on (R202). -/
def nextPhase (d : Dev) (h : Half) (b : Nat) : Dev :=
  let x := d.bank h b
  match x.phase, x.shot with
  | .transSlow, some s =>
    d.setBank h b { gates x d.now false (!s.bankOff) (!s.bankOff) with
      phase := if s.nextHold then .hold else .peak
      shot := some { s with phaseT := d.now } }
  | _, _ => d

/-- The peak TIME, counted from the end of the boost phase, is over (R202). -/
def peakEnd (d : Dev) (h : Half) (b : Nat) : Dev :=
  let x := d.bank h b
  match x.phase, x.shot with
  | .peak, some s =>
    if s.peakT + 40 * getF s.ppeak F.DRV_PPEAK_TIME ≤ d.now then d.toTransition h b true else d
  | _, _ => d

/-- The hold TIME is over (R202, R222): a shot that ended in this cycle carries the flag too. -/
def holdEnd (d : Dev) (h : Half) (b : Nat) : Dev :=
  let x := d.bank h b
  match x.shot with
  | none => d
  | some s =>
    let time := getF s.phold F.DRV_PHOLD_TIME
    let due := s.nextHold && decide (time ≠ 0) && decide (s.peakT + usTk time ≤ d.now)
    let ended := d.justEnded x s
    if due && (decide (x.phase = .hold) || ended) then
      let d1 := (d.bankDiag h b F.DRV_BANKSTAT_HOLD_TMO).onShot h b fun s => { s with holdTmo := true }
      if ended then d1 else d1.endShot h b d.now id
    else d

/-- The battery gate of a chopping phase takes a level (R201): now, or from the end of its minimum time on. A change that
still waits for that end is withdrawn by a crossing back. -/
def chopGate (g : Gate) (now minChop : Nat) (on : Bool) : Gate :=
  if on = g.on then g
  else if now < g.since then { g with on := on, since := g.since - minChop }
  else setGate g (max now (g.since + minChop)) on

/-- A crossing of a chop threshold (R201, R202): the battery gate changes; the time to peak of a shot without boost is
taken at its first peak LEVEL (R203) (corners DEDUCED, log 38). -/
def chop (d : Dev) (h : Half) (b : Nat) (upper : Bool) : Dev :=
  let x := d.bank h b
  match x.shot with
  | none => d
  | some s =>
    if x.phase = .peak ∨ x.phase = .hold then
      let d1 := if s.bankOff then d
        else d.setBank h b { x with
          hsv := chopGate x.hsv d.now s.minChop (!upper), monHsv := x.monHsv && x.hsv.on }
      if upper && decide (x.phase = .peak) && !s.boosted && s.ttp.isNone then
        d1.ttpTest h b s ((d.now - s.start) / 4) false
      else d1
    else d

/-- The open-load test (R217): at the end of the boost phase, or 20 µs after the start; a shot that ended at that instant
carries the flag too. -/
def openLoad (d : Dev) (h : Half) (b code : Nat) : Dev :=
  let x := d.bank h b
  match x.shot with
  | none => d
  | some s =>
    let now' := s.boosted || decide (s.start + usTk 20 ≤ d.now)
    if (shooting x || d.justEnded x s) && now' && decide (code < getF s.diag F.DRV_BANKDIAG_OL) then
      let d1 := (d.bankDiag h b F.DRV_BANKSTAT_OPEN).onShot h b fun s => { s with
        openLoad := true, ttpLong := s.ttpLong || s.boosted }
      let d2 := if s.boosted then d1.bankDiag h b F.DRV_BANKSTAT_TTP_LONG else d1
      if getB s.pcfg F.DRV_PCFG_TTPEND then d2.endShot h b d.now id else d2
    else d

/-- A gate that is due for its bootstrap refresh (R198). -/
def refreshDue (g : Gate) (now : Nat) : Bool := g.on && gateOn g now && decide (g.fullT + usTk 5000 ≤ now)

/-- A gate off from now for 1 µs, and on again after it (R198). -/
def refreshed (g : Gate) (now : Nat) : Gate := setGate (setGate g now false) (now + usTk 1) true

/-- The bootstrap refresh of a high-side gate (R198). -/
def refresh (d : Dev) (h : Half) (b : Nat) (f : Fet) : Dev :=
  let x := d.bank h b
  let mark := fun (y : Bank) => (d.setBank h b y).onShot h b fun s => { s with refresh := true }
  match f with
  | .hsb => if refreshDue x.hsb d.now then mark { x with hsb := refreshed x.hsb d.now, monHsb := false } else d
  | .hsv => if refreshDue x.hsv d.now then mark { x with hsv := refreshed x.hsv d.now, monHsv := false } else d
  | .ls => d

/-! ### Protection (R216, R217) -/

/-- BLANK of a shot in ticks. -/
def blankTk (s : Shot) : Nat := 200 * (getF s.diag F.DRV_BANKDIAG_BLANK + 1)

/-- A FET's monitor becomes active (R216). -/
def blankEnd (d : Dev) (h : Half) (b : Nat) (f : Fet) : Dev :=
  let x := d.bank h b
  match x.shot with
  | none => d
  | some s =>
    let due := fun (g : Gate) => gateOn g d.now && decide (g.onT + blankTk s ≤ d.now)
    match f with
    | .hsb => if due x.hsb then d.setBank h b { x with monHsb := true } else d
    | .hsv => if due x.hsv then d.setBank h b { x with monHsv := true } else d
    | .ls => if due x.inj then d.setBank h b { x with monLs := true } else d

/-- Whether the monitor of a condition is active: the FET's own while it is on, or a low-side on for OC. -/
def tripLive (x : Bank) (now : Nat) : BankTrip → Bool
  | .vdsHsb => x.monHsb && gateOn x.hsb now
  | .vdsHsv => x.monHsv && gateOn x.hsv now
  | .vdsLs => x.monLs && gateOn x.inj now
  | .oc => gateOn x.inj now

/-- A condition of R216: the bank goes off by fast decay and is latched off; with FC, class DRIVE. A shot that starts in
the same DRIVE cycle switches no gate (R222). -/
def bankTrip (d : Dev) (h : Half) (b : Nat) (cause : BankTrip) : Dev :=
  let x := d.bank h b
  match x.shot with
  | none => d
  | some s =>
    if shooting x && tripLive x d.now cause then
      let none' := s.bankOff || decide (s.start / 4 = d.now / 4)
      let g : Fld × (Shot → Shot) := match cause with
        | .vdsHsb => (F.DRV_BANKSTAT_VDS_HSB, fun s => { s with vdsHsb := true })
        | .vdsHsv => (F.DRV_BANKSTAT_VDS_HSV, fun s => { s with vdsHsv := true })
        | .vdsLs => (if s.ls % 2 = 0 then F.DRV_BANKSTAT_VDS_LS0 else F.DRV_BANKSTAT_VDS_LS1,
            fun s => { s with vdsLs := true })
        | .oc => (F.DRV_BANKSTAT_OC, fun s => { s with oc := true })
      let d1 := (d.endShot h b d.now fun s => { g.2 s with bankOff := none' }).bankDiag h b g.1
      let d2 := d1.mark (Reg.DRV_BANKSTAT h b) F.DRV_BANKSTAT_OFF
      if getB s.diag F.DRV_BANKDIAG_FC then d2.fault .drive (.half h) else d2
    else d

/-! ### Needle detection (R218) -/

/-- The slope window of a shot in samples: 16, 32, 64 or 128 (R218). -/
def slopeWin (s : Shot) : Nat := 2 ^ (getF s.pneedle F.DRV_PNEEDLE_SW + 4)

/-- The knee in the samples of a search, one a DRIVE cycle from its begin on (R218): the first t with smax > 0 and
s(t) < k / 16 × smax, where s(t) = x(t) − x(t − w); `smax` so far, `past` the sample w before the next. -/
def kneeFrom (k : Nat) : Nat → Int → List Int → List Int → Option Nat
  | t, smax, x :: l, p :: past =>
    let s := x - p
    let m := max smax s
    if 0 < m ∧ 16 * s < k * m then some t else kneeFrom k (t + 1) m l past
  | _, _, _, _ => none

/-- The knee of a search, as the number of its sample: the first slope is taken w samples into it (corners DEDUCED, log
38). -/
def kneeOf (k w : Nat) (xs : List Int) : Option Nat := kneeFrom k w 0 (xs.drop w) xs

/-- The tick of sample n of a search that began at a tick, less half a slope window. -/
def kneeTick (s : Shot) (begin n : Nat) : Nat := begin + 4 * n - 2 * slopeWin s

/-- Whether the samples of a search, taken from a tick on, end in the present DRIVE cycle at the latest. -/
def sampled (now begin : Nat) (xs : List Nat) : Bool := decide (begin + 4 * (xs.length - 1) ≤ now)

/-- The opening detector finds its knee in the samples of the bank current (R218): from P + OWS, at the latest at
P + OWE (DESIGN CHOICE, log 39). -/
def openKnee (d : Dev) (h : Half) (b : Nat) (xs : List Nat) : Dev :=
  let x := d.bank h b
  match x.shot with
  | none => d
  | some s =>
    let from' := s.start + usTk (2 * getF s.pneedle F.DRV_PNEEDLE_OWS)
    let n := kneeOf (getF s.pneedle F.DRV_PNEEDLE_KO) (slopeWin s) (xs.map fun (v : Nat) => (v : Int))
    match n with
    | none => d
    | some n =>
      if (shooting x || s.record) && getB s.pcfg F.DRV_PCFG_NEEDLE_EN && !s.bankOff && s.knee.isNone &&
          sampled d.now from' xs && decide (from' + 4 * n ≤ s.start + usTk (2 * getF s.pneedle F.DRV_PNEEDLE_OWE)) then
        d.onShot h b fun s => { s with knee := some (kneeTick s from' n) }
      else d

/-- The closing arm point (R218). -/
def closeArm (d : Dev) (h : Half) (b : Nat) : Dev :=
  d.onShot h b fun s =>
    if s.record && !s.searchDone && s.armT.isNone then
      { s with armT := some (s.start + (d.now - s.start) / 4 * 4) }
    else s

/-- CWIN of a shot after its end, as a tick. -/
def closeLimit (s : Shot) : Nat := s.endT + usTk (2 * getF s.phyd F.DRV_PHYD_CWIN)

/-- The closing detector finds its knee in the samples of the drain voltage from the arm point on, and the search ends
(R218) (DESIGN CHOICE, log 39). -/
def closeKnee (d : Dev) (h : Half) (b : Nat) (xs : List Nat) : Dev :=
  d.onShot h b fun s =>
    match s.armT, kneeOf (getF s.phyd F.DRV_PHYD_KC) (slopeWin s) (xs.map fun (v : Nat) => -(v : Int)) with
    | some t0, some n =>
      if s.record && !s.searchDone && sampled d.now t0 xs && decide (t0 + 4 * n ≤ closeLimit s) then
        { s with closeKnee := some (kneeTick s t0 n), searchDone := true }
      else s
    | _, _ => s

/-- The closing search ends at E + CWIN (R218). -/
def closeTimeout (d : Dev) (h : Half) (b : Nat) : Dev :=
  d.onShot h b fun s =>
    if s.record && !s.searchDone && decide (closeLimit s ≤ d.now) then { s with searchDone := true } else s

/-- A correction cleared by software: what an update of this cycle added to it stays (R11, R221). -/
def hydClear (d : Dev) (h : Half) (n j : Nat) : Dev :=
  let a := Reg.DRV_HYDC h n j
  (d.wr a ((d.rd a - d.oldRd a) &&& 0xFFFF)).rebase a 0

/-- The current of an ended shot is at zero: the bank is off (R202). -/
def decayEnd (d : Dev) (h : Half) (b : Nat) : Dev :=
  let x := d.bank h b
  if x.phase = .decay then (d.setBank h b { x with phase := .idle, decaying := false }).bankStat h b else d

end Dev

/-! ### The commands -/

/-- BOOST_PHASE_END (R202, R203) (DESIGN CHOICE, log 39). -/
def execBoostPhaseEnd (t : Tick) (h : Half) (b : Fin 6) (atLevel : Bool) (s : State) : Out :=
  s.onDev t fun d => d.boostEnd h b.val atLevel

/-- FAST_DECAY_TIME_END (R202). -/
def execFastDecayTimeEnd (t : Tick) (h : Half) (b : Fin 6) (s : State) : Out :=
  s.onDev t fun d => d.fastEnd h b.val

/-- TRANSITION_END (R202). -/
def execTransitionEnd (t : Tick) (h : Half) (b : Fin 6) (s : State) : Out :=
  s.onDev t fun d => d.nextPhase h b.val

/-- PEAK_TIME_END (R202). -/
def execPeakTimeEnd (t : Tick) (h : Half) (b : Fin 6) (s : State) : Out :=
  s.onDev t fun d => d.peakEnd h b.val

/-- HOLD_TIMEOUT (R202, R217). -/
def execHoldTimeout (t : Tick) (h : Half) (b : Fin 6) (s : State) : Out :=
  s.onDev t fun d => d.holdEnd h b.val

/-- CHOP_THRESHOLD (R201, R203). -/
def execChopThreshold (t : Tick) (h : Half) (b : Fin 6) (upper : Bool) (s : State) : Out :=
  s.onDev t fun d => d.chop h b.val upper

/-- OPEN_LOAD_CHECK (R217) (DESIGN CHOICE, log 39). -/
def execOpenLoadCheck (t : Tick) (h : Half) (b : Fin 6) (code : BitVec 10) (s : State) : Out :=
  s.onDev t fun d => d.openLoad h b.val code.toNat

/-- MONITOR_BLANK_END (R216). -/
def execMonitorBlankEnd (t : Tick) (h : Half) (b : Fin 6) (f : Fet) (s : State) : Out :=
  s.onDev t fun d => d.blankEnd h b.val f

/-- BANK_PROTECTION_TRIP (R216, R217). -/
def execBankProtectionTrip (t : Tick) (h : Half) (b : Fin 6) (cause : BankTrip) (s : State) : Out :=
  s.onDev t fun d => d.bankTrip h b.val cause

/-- BOOTSTRAP_REFRESH (R198). -/
def execBootstrapRefresh (t : Tick) (h : Half) (b : Fin 6) (f : Fet) (s : State) : Out :=
  s.onDev t fun d => d.refresh h b.val f

/-- OPENING_KNEE (R218). -/
def execOpeningKnee (t : Tick) (h : Half) (x : KneeSearch) (s : State) : Out :=
  s.onDev t fun d => d.openKnee h x.bank.val x.samples

/-- CLOSING_ARM (R218). -/
def execClosingArm (t : Tick) (h : Half) (b : Fin 6) (s : State) : Out :=
  s.onDev t fun d => d.closeArm h b.val

/-- CLOSING_KNEE (R218). -/
def execClosingKnee (t : Tick) (h : Half) (x : KneeSearch) (s : State) : Out :=
  s.onDev t fun d => d.closeKnee h x.bank.val x.samples

/-- CLOSING_SEARCH_TIMEOUT (R218). -/
def execClosingSearchTimeout (t : Tick) (h : Half) (b : Fin 6) (s : State) : Out :=
  s.onDev t fun d => d.closeTimeout h b.val

/-- RESULT_RECORD_WRITE (R219, R220). -/
def execResultRecordWrite (t : Tick) (h : Half) (b : Fin 6) (s : State) : Out :=
  s.onDev t fun d => d.writeRecord h b.val

/-- FAST_DECAY_END (R202). -/
def execFastDecayEnd (t : Tick) (h : Half) (b : Fin 6) (s : State) : Out :=
  s.onDev t fun d => ((d.decayEnd h b.val).undriven h b.val).hbRestart

/-- BANK_CLEAR (R216, R222). -/
def execBankClear (t : Tick) (_m : Master) (h : Half) (v : Word) (s : State) : Out :=
  s.onDev t fun d => d.onWrite (Reg.DRV_BANKCLR h) fun d =>
    (bitsOf v 6).foldl (fun d b => d.clrFlag (Reg.DRV_BANKSTAT h b) F.DRV_BANKSTAT_OFF) d

/-- HYD_CLEAR (R221). -/
def execHydClear (t : Tick) (_m : Master) (h : Half) (v : Word) (s : State) : Out :=
  s.onDev t fun d => d.onWrite (Reg.DRV_HYDCLR h) fun d =>
    (bitsOf v 12).foldl (fun d n => (List.range 8).foldl (fun d j => d.hydClear h n j) d) d

end Sys2Proof.Machine
end

