-- ==== Sys2Proof/Machine/Pwm.lean ====
section
/-! DEFINITION. The PWM channels, their trips and the delay lines (R242 to R253). -/

namespace Sys2Proof.Machine

open Sys2Proof

/-- An edge in a period, in taps of 78.125 ps from its reload: the compare edge that makes it, and where it appears, with
dead time and stretch. -/
structure PEdge where
  raw : Nat
  pos : Nat
  deriving DecidableEq, Repr

/-- The shape of an output over one period (R243, R248): a constant level, or the edges that occur. -/
inductive Shape where
  | low
  | high
  | edges (rise fall : Option PEdge)
  deriving DecidableEq, Repr

namespace Dev

/-- A set that takes effect within the period is in force from its cycle on (R245). -/
def ripe (now : Nat) (x : Pwm) : Pwm :=
  match x.next with
  | some s =>
    if s.from' ≤ now then { x with rise := s.rise, fall := s.fall, per := s.per, setT := s.from', next := none } else x
  | none => x

/-- A channel's hidden entry. -/
def pwmC (d : Dev) (c : Nat) : Pwm := ripe d.now (sparseGet Init.pwm d.pwm c)

/-- A channel's hidden entry replaced. -/
def setPwm (d : Dev) (c : Nat) (x : Pwm) : Dev := { d with pwm := sparseSet Init.pwm d.pwm c x }

/-- EN of a channel. -/
def pwmEn (d : Dev) (c : Nat) : Bool := d.bit (Reg.PWM_CFG c) F.PWM_CFG_EN

/-- The reference of an output: channel 2p of a complementary pair, else the channel itself (R248). -/
def pwmRef (d : Dev) (c : Nat) : Nat := if (d.pwmC (c / 2 * 2)).comp then c / 2 * 2 else c

/-- A flag of PWM_STAT set; one that rises raises the pair source if IE is set. -/
def pwmFlag (d : Dev) (c : Nat) (x : Fld) : Dev :=
  let a := Reg.PWM_STAT c
  let d1 := d.mark a x
  if d.bit a x then d1
  else if d.bit (Reg.PWM_PAIRCFG (c / 2)) F.PWM_PAIRCFG_IE then d1.raise (0xD0 + c / 2) else d1

/-! ### The waveform (R243, R248, R249) -/

/-- The word that names no edge. -/
def noEdge : Word := 0xFFFFFFFF

/-- Whether a compare value lies inside the period. -/
def edgeIn (x : Pwm) (w : Word) : Bool := decide (getF w F.PWM_EDGE_COUNT < x.per)

/-- The place of a compare value in the period, in taps. -/
def edgeTaps (x : Pwm) (w : Word) : Nat :=
  32 * (x.psc + 1) * getF w F.PWM_EDGE_COUNT + getF w F.PWM_EDGE_FINE

/-- The taps of a period. -/
def periodTaps (x : Pwm) : Nat := 32 * (x.psc + 1) * x.per

/-- An edge of a compare set. -/
def edgeOf (x : Pwm) (w : Word) : Option PEdge :=
  if edgeIn x w then some ⟨edgeTaps x w, edgeTaps x w⟩ else none

/-- The shape of a channel's own compare set (R243). -/
def ownShape (x : Pwm) : Shape :=
  if x.rise = noEdge then .low
  else if x.fall = noEdge then .high
  else .edges (if x.rise = x.fall then none else edgeOf x x.rise) (edgeOf x x.fall)

/-- The high and the low time of a wave of period `p`. -/
def widths (p : Nat) : Shape → Option (Nat × Nat)
  | .edges (some r) (some f) => some ((f.pos + 2 * p - r.pos) % p, (r.pos + 2 * p - f.pos) % p)
  | _ => none

/-- An edge moved later. -/
def later (n : Nat) (e : PEdge) : PEdge := { e with pos := e.pos + n }

/-- The inverse of a shape. -/
def invert : Shape → Shape
  | .low => .high
  | .high => .low
  | .edges r f => .edges f r

/-- A shape with every rising edge delayed; a high time at or below the delay is not made (R248). -/
def delayed (p dt : Nat) (s : Shape) : Shape :=
  match s with
  | .edges r f =>
    match widths p s with
    | some (hi, _) => .edges (if hi ≤ dt then none else r.map (later dt)) f
    | none => .edges (r.map (later dt)) f
  | _ => s

/-- What a stretch adds to the high time of a complementary output: to its own short high time, or to the
other's short low time. -/
def growth (minp own otherLow : Nat) : Nat :=
  max (if 0 < own && decide (own < minp) then minp - own else 0) (minp - otherLow)

/-- The reference of a complementary pair after the stretch of R249: its high and its low time, each
judged at both outputs. -/
def stretchRef (x : Pwm) (s : Shape) : Shape :=
  match s, widths (periodTaps x) s with
  | .edges r f, some (hi, lo) =>
    if x.stretch && decide (0 < x.minp) then
      let gh := growth x.minp (hi - x.dtr) (hi + x.dtf)
      let gl := growth x.minp (lo - x.dtf) (lo + x.dtr)
      if 0 < gh then .edges r (if lo ≤ gh then none else f.map (later gh))
      else if 0 < gl then .edges (if hi ≤ gl then none else r.map (later gl)) f
      else s
    else s
  | _, _ => s

/-- The filter on one output (R249): what it makes of a shape, whether it acted, whether both times were short. Of a
pulse that is not made, the edge that would begin it is dropped. -/
def minPulse (p minp : Nat) (stretch : Bool) (s : Shape) : Shape × Bool × Bool :=
  match s, widths p s with
  | .edges r f, some (hi, lo) =>
    if hi < minp ∧ lo < minp then (.low, true, true)
    else if hi < minp then
      (if stretch then .edges r (r.map fun e => ⟨e.raw, e.pos + minp⟩) else .edges none f, true, false)
    else if lo < minp then
      (if stretch then .edges (f.map fun e => ⟨e.raw, e.pos + minp⟩) f else .edges r none, true, false)
    else (s, false, false)
  | _, _ => (s, false, false)

/-- Whether a filter acts on a shape. -/
def acts (p minp : Nat) (s : Shape) : Bool := (minPulse p minp false s).2.1

/-- The shape of an output before the filter, dead time included (R248). -/
def side (e : Pwm) (c : Nat) (s : Shape) : Shape :=
  if c % 2 = 0 then delayed (periodTaps e) e.dtr s else delayed (periodTaps e) e.dtf (invert s)

/-- The shape of an output before the filter. -/
def rawShape (d : Dev) (c : Nat) : Shape :=
  let e := d.pwmC (c / 2 * 2)
  if e.comp then side e c (ownShape e) else ownShape (d.pwmC c)

/-- The shape of an output with dead time and filter; whether the filter acts, and whether both times of
the output are short (R248, R249). -/
def outShape (d : Dev) (c : Nat) : Shape × Bool × Bool :=
  let e := d.pwmC (c / 2 * 2)
  if e.comp then
    let p := periodTaps e
    let raw := d.rawShape c
    if (minPulse p e.minp false raw).2.2 then (.low, true, true)
    else
      let r := minPulse p e.minp false (side e c (stretchRef e (ownShape e)))
      (r.1, r.2.1 || acts p e.minp raw, false)
  else minPulse (periodTaps (d.pwmC c)) e.minp e.stretch (d.rawShape c)

/-- An edge of a shape. -/
def shapeEdge (rise : Bool) : Shape → Option PEdge
  | .edges r f => if rise then r else f
  | _ => none

/-- The instant of an edge of a shape in the running period of a channel, if its compare edge came under the set in
force. -/
def instant (x : Pwm) (rise : Bool) (s : Shape) : Option Nat :=
  match shapeEdge rise s with
  | some e => if 32 * x.setT ≤ 32 * x.reloadT + e.raw then some (32 * x.reloadT + e.pos) else none
  | none => none

/-- By how much a closing edge moves so that a pulse which began under an earlier set, at `opened`, lasts MINP (R249). -/
def short (x : Pwm) (minp opened closed : Nat) (edge : Option Nat) : Nat :=
  match edge with
  | some i =>
    if opened < 32 * x.setT ∧ ¬(opened < closed ∧ closed < 32 * x.setT) then opened + minp - i else 0
  | none => 0

/-- How much an edge of an output is moved so that pulses begun under an earlier set last MINP; in a complementary pair
the reference edge moves, so both outputs count (R249) (corners DEDUCED, log 41). -/
def moved (d : Dev) (c : Nat) (rise : Bool) : Nat :=
  let e := d.pwmC (c / 2 * 2)
  let x := d.pwmC (d.pwmRef c)
  let one := fun (o : Nat) (up : Bool) =>
    let y := d.pwmC o
    short x e.minp (if up then y.fallAt else y.riseAt) (if up then y.riseAt else y.fallAt)
      (instant x up (d.outShape o).1)
  if e.minp = 0 then 0
  else if e.comp then
    let other := if c % 2 = 0 then c + 1 else c - 1
    max (one c rise) (one other !rise)
  else one c rise

/-- The level of an output where nothing forces it: the constant levels hold from the reload on (R243); dead time applies
to a rise that they make (R248). -/
def levelOf (d : Dev) (c : Nat) : Bool :=
  match (d.outShape c).1 with
  | .low => false
  | .high => (d.pwmC (c / 2 * 2)).comp == false || (d.pwmC c).level
  | .edges _ _ => (d.pwmC c).level

/-- Whether an instant lies in the present tick. -/
def atNow (d : Dev) (i : Option Nat) : Bool := i.any fun n => decide (n / 32 = d.now)

/-- A compare edge at an output (R243, R248, R249): it drives the output in the tick of its instant, S + COUNT × (PSC + 1)
tk and FINE taps, with dead time and filter. A fall ends a rise still delayed (corners DEDUCED, log 41). -/
def pwmEdge (d : Dev) (c : Nat) (rise : Bool) : Dev :=
  if d.pwmEn c && d.pwmEn (d.pwmRef c) then
    let r := d.outShape c
    let x := d.pwmC (d.pwmRef c)
    let y := d.pwmC c
    let by' := d.moved c rise
    let inst := (instant x rise r.1).map (· + by')
    let due := if rise then y.riseDue else y.fallDue
    let at' := if d.atNow due then due else inst
    let blocked := rise && decide (∃ n ∈ y.riseDue, d.now < n / 32)
    let made := d.atNow due || (d.atNow inst && !blocked)
    let acted := (r.2.1 && (d.atNow (instant x rise (d.rawShape c)) || d.atNow inst)) ||
      (decide (0 < by') && d.atNow inst)
    let d1 := if acted then d.pwmFlag c F.PWM_STAT_MINP else d
    let d2 := if r.2.2 && acted then d1.pwmFlag c F.PWM_STAT_RANGE else d1
    if made then
      if rise then d2.setPwm c { y with level := true, riseAt := at'.getD 0, riseDue := none }
      else d2.setPwm c { y with level := false, fallAt := at'.getD 0, fallDue := none, riseDue := none }
    else d2
  else d

/-! ### Reloads (R242 to R246) -/

/-- RANGE of a set that takes effect (R243). -/
def newSet (d : Dev) (c : Nat) (x : Pwm) : Dev :=
  let bad := (decide (x.rise ≠ noEdge) && !edgeIn x x.rise) ||
    (decide (x.fall ≠ noEdge) && !edgeIn x x.fall)
  if bad then d.pwmFlag c F.PWM_STAT_RANGE else d

/-- The outputs that a channel's counter drives (R248). -/
def drives (d : Dev) (c : Nat) : List Nat :=
  if (d.pwmC (c / 2 * 2)).comp then (if c % 2 = 0 then [c, c + 1] else []) else [c]

/-- An edge whose compare edge has passed and which is still to come at an instant. -/
def carried (now : Nat) (x : Pwm) (rise : Bool) (s : Shape) : Option Nat :=
  match shapeEdge rise s, instant x rise s with
  | some e, some i => if 32 * x.reloadT + e.raw < 32 * now ∧ 32 * now ≤ i then some i else none
  | _, _ => none

/-- An output when the set or the period of its counter ends at a tick: its level, and the delayed and moved edges
still to come (R245, R248, R249). -/
def closePeriod (t : Nat) (d : Dev) (o : Nat) : Dev :=
  let x := d.pwmC (d.pwmRef o)
  let s := (d.outShape o).1
  let y := d.pwmC o
  d.setPwm o { y with
    level := d.levelOf o, riseDue := y.riseDue.or (carried t x true s), fallDue := y.fallDue.or (carried t x false s) }

/-- An output at a reload: a held output resumes, and a rise that a constant level, a resumed output or the start of the
complementary mode makes waits for the dead time (R243, R248, R251) (corners DEDUCED, log 41). -/
def openPeriod (d : Dev) (o : Nat) : Dev :=
  let e := d.pwmC (o / 2 * 2)
  let y := d.pwmC o
  let dead := some (32 * d.now + (if o % 2 = 0 then e.dtr else e.dtf))
  let waits := { y with level := false, riseDue := dead, held := false }
  match e.comp, (d.outShape o).1 with
  | true, .low => d.setPwm o { y with level := false, riseDue := none, held := false }
  | true, .high =>
    if y.level && !y.held then d else if y.riseDue.isSome && !y.held then d else d.setPwm o waits
  | true, .edges _ _ => if y.held && y.level then d.setPwm o waits else d.setPwm o { y with held := false }
  | false, _ => d.setPwm o { y with level := d.levelOf o, held := false }

/-- The complementary mode begins, or its reference starts: output 2p + 1 takes the inverse of the reference, a rise after
the dead time (R248) (corners DEDUCED, log 41). -/
def joinPair (d : Dev) (c : Nat) : Dev :=
  d.setPwm (c + 1) { d.pwmC (c + 1) with
    level := false, fallAt := 32 * d.now, fallDue := none
    riseDue := if d.levelOf c then none else some (32 * d.now + (d.pwmC c).dtf) }

/-- The pair fields that take effect at a reload of channel 2p (R248, R249) (corners DEDUCED, log 41). -/
def pairFields (d : Dev) (c : Nat) (x : Pwm) : Pwm :=
  if c % 2 = 0 then
    let w := d.rd (Reg.PWM_PAIRCFG (c / 2))
    let dt := d.rd (Reg.PWM_DT (c / 2))
    { x with
      comp := getB w F.PWM_PAIRCFG_COMP, stretch := getB w F.PWM_PAIRCFG_MPMODE
      dtr := getF dt F.PWM_DT_DTR, dtf := getF dt F.PWM_DT_DTF
      minp := d.f (Reg.PWM_MINP (c / 2)) F.PWM_MINP_MINP }
  else x

/-- The Mule requests of a reload (R305). -/
def reloadReq (d : Dev) (c : Nat) : Dev :=
  (List.range 4).foldl
    (fun d k => if getF (d.rd Reg.MULE_PWMSEL) ⟨8 * k + 4, 8 * k⟩ = c then d.send (.mule (41 + k) 0)
      else d) d

/-- The compare set that a reload transfers: a complete pair usable before the reload cycle (R244). -/
def shadowPair (d : Dev) (c : Nat) : Option (Word × Word) :=
  let now' := decide ((d.pwmC c).pairT = some d.now)
  let at' : Nat → Word := fun a => if now' then d.oldRd a else d.rd a
  if getB (at' (Reg.PWM_STAT c)) F.PWM_STAT_PEND then some (at' (Reg.PWM_RISE c), at' (Reg.PWM_FALL c)) else none

/-- The period that a reload transfers: one usable before the reload cycle (R244). -/
def shadowPer (d : Dev) (c : Nat) : Option Nat :=
  let now' := decide ((d.pwmC c).perT = some d.now)
  let at' : Nat → Word := fun a => if now' then d.oldRd a else d.rd a
  if getB (at' (Reg.PWM_STAT c)) F.PWM_STAT_PER_PEND then some (getF (at' (Reg.PWM_PER c)) F.PWM_PER_PER) else none

/-- A reload of one channel (R242, R244): what a write of this very cycle left pending waits. The delay-line code is taken
(R247). -/
def reload1 (d : Dev) (c : Nat) : Dev :=
  let st := Reg.PWM_STAT c
  let cfg := d.rd (Reg.PWM_CFG c)
  let pair := d.shadowPair c
  let perS := d.shadowPer c
  let joins := c % 2 = 0 ∧ d.bit (Reg.PWM_PAIRCFG (c / 2)) F.PWM_PAIRCFG_COMP = true ∧ (d.pwmC c).comp = false
  let d0 := (if joins then [c, c + 1] else d.drives c).foldl (closePeriod d.now) d
  let old := d0.pwmC c
  let x := d0.pairFields c old
  let per := perS.getD x.per
  let psc := getF cfg F.PWM_CFG_PSC
  let y : Pwm := { x with
    per := per, psc := psc, imm := getB cfg F.PWM_CFG_IMM
    rise := (pair.map (·.1)).getD x.rise, fall := (pair.map (·.2)).getD x.fall, next := none
    setT := if pair.isSome || perS.isSome || decide (psc ≠ old.psc ∨ x ≠ old) then d.now else x.setT
    reloadT := d.now, endT := d.now + per * (psc + 1), dl := d.f Reg.PWM_DLSTAT F.PWM_DLSTAT_CODE }
  let d1 := d0.setPwm c y
  let d2 := if y.pairT = some d.now then d1 else d1.setB st F.PWM_STAT_PEND false
  let d3 := (if y.perT = some d.now then d2 else d2.setB st F.PWM_STAT_PER_PEND false).incF st F.PWM_STAT_PERIODS
  let d4 := if pair.isSome || perS.isSome then d3.newSet c y else d3
  let d5 := (d4.drives c).foldl openPeriod (if joins then d4.joinPair c else d4)
  let d6 := if c % 2 = 0 && d5.bit (Reg.PWM_PAIRCFG (c / 2)) F.PWM_PAIRCFG_IE then d5.raise (0xD0 + c / 2)
    else d5
  d6.reloadReq c

/-- A reload; where it ends the complementary mode, the odd channel's own counter starts with it (corners DEDUCED, log 41). -/
def reload (d : Dev) (c : Nat) : Dev :=
  let was := (d.pwmC c).comp
  let d1 := d.reload1 c
  if c % 2 = 0 && was && !(d1.pwmC c).comp && d1.pwmEn (c + 1) then d1.reload1 (c + 1) else d1

/-- Whether the counter of a channel runs by itself. -/
def counts (d : Dev) (c : Nat) : Bool := d.pwmEn c && decide (d.pwmRef c = c)

/-- The reload at the end of the period (R242). -/
def reloadDue (d : Dev) (c : Nat) : Dev :=
  if d.counts c && decide ((d.pwmC c).endT ≤ d.now) then d.reload c else d

/-- The reload that falls in the present cycle comes before a write that arrives in it (R244) (corners DEDUCED, log 41). -/
def reloadNow (d : Dev) (c : Nat) : Dev :=
  if d.counts c && decide ((d.pwmC c).endT = d.now) then d.reload c else d

/-- EN set (R246): a reload; the level before the first edge (corners DEDUCED, log 41). -/
def pwmStart (d : Dev) (c : Nat) : Dev :=
  let low := { d.pwmC c with
    level := false, held := false, riseAt := 32 * d.now, fallAt := 32 * d.now, riseDue := none, fallDue := none }
  let d1 := (d.setB (Reg.PWM_CFG c) F.PWM_CFG_EN true).setPwm c low
  let d2 := if d1.pwmRef c = c then
      let r := d1.reload c
      if (r.pwmC c).comp then r.joinPair c else r
    else d1
  d2.setF (Reg.PWM_STAT c) F.PWM_STAT_PERIODS 0

/-- A write of PWM_CFG acts on EN (R246). -/
def pwmCfg (d : Dev) (c : Nat) (v : Word) : Dev :=
  match getB v F.PWM_CFG_EN, d.pwmEn c with
  | true, false => d.pwmStart c
  | false, true => (d.setB (Reg.PWM_CFG c) F.PWM_CFG_EN false).setPwm c { d.pwmC c with level := false }
  | _, _ => d

/-- Channels restarted in one cycle (R246): one whose own reload falls in it makes one reload. -/
def pwmSync (d : Dev) (mask : Word) : Dev :=
  (bitsOf mask 32).foldl
    (fun d c => if d.counts c && decide ((d.pwmC c).reloadT ≠ d.now) then d.reload c else d) d

/-- The channels that the image enabled start with one common reload (R246). -/
def pwmReady (d : Dev) : Dev :=
  (List.range 32).foldl (fun d c => if d.pwmEn c then d.pwmStart c else d) d

/-! ### Compare and period writes (R244, R245) -/

/-- The set that a write in immediate mode changes: the one that takes effect in the next cycle. -/
def nextSet (d : Dev) (c : Nat) : PwmSet :=
  let x := d.pwmC c
  x.next.getD ⟨d.now + 1, x.rise, x.fall, x.per⟩

/-- A set that takes effect in the next cycle (R245): an edge whose compare edge has passed comes from the old set. -/
def setNext (d : Dev) (c : Nat) (s : PwmSet) (endT : Nat) : Dev :=
  let d1 := (d.drives c).foldl (closePeriod (d.now + 1)) d
  let y := { d1.pwmC c with next := some s, endT := endT }
  (d1.setPwm c y).newSet c { y with rise := s.rise, fall := s.fall, per := s.per }

/-- A period write in immediate mode (R245): it takes effect in the next cycle; a period at or below the count there plus
1 ends at the PWM clock after it, with SHORT. A reload of the next cycle transfers it. -/
def perNow (d : Dev) (c per : Nat) : Dev :=
  let x := d.pwmC c
  if d.counts c && decide (x.endT = d.now + 1) then d
  else
    let step := x.psc + 1
    let cnt := (d.now + 1 - x.reloadT) / step
    let d1 := d.setB (Reg.PWM_STAT c) F.PWM_STAT_PER_PEND false
    let s := { d1.nextSet c with per := per }
    if d.counts c && decide (per ≤ cnt + 1) then (d1.setNext c s (d.now + 2)).pwmFlag c F.PWM_STAT_SHORT
    else d1.setNext c s (x.reloadT + per * step)

/-- A write of PWM_PER (R242, R244, R245) (corners DEDUCED, log 41). -/
def perWrite (d : Dev) (c : Nat) (v : Word) : Dev :=
  let per := getF v F.PWM_PER_PER
  if per < 2 then d.busErr
  else
    let d0 := d.reloadNow c
    let d1 := (d0.setF (Reg.PWM_PER c) F.PWM_PER_PER per).setB (Reg.PWM_STAT c) F.PWM_STAT_PER_PEND true
    let d2 := d1.setPwm c { d1.pwmC c with perT := some d.now }
    if (d2.pwmC c).imm then d2.perNow c per else d2

/-- A write of PWM_RISE (R244). -/
def riseWrite (d : Dev) (c : Nat) (v : Word) : Dev :=
  let st := Reg.PWM_STAT c
  let d1 := (((d.reloadNow c).wr (Reg.PWM_RISE c) v).setB st F.PWM_STAT_OPEN true).setB st F.PWM_STAT_PEND false
  d1.setPwm c { d1.pwmC c with pairT := some d.now }

/-- A write of PWM_FALL (R244, R245): it completes a pair; in immediate mode the pair takes effect in the next cycle. -/
def fallWrite (d : Dev) (c : Nat) (v : Word) : Dev :=
  let st := Reg.PWM_STAT c
  let d1 := (((d.reloadNow c).wr (Reg.PWM_FALL c) v).setB st F.PWM_STAT_OPEN false).setB st
    F.PWM_STAT_PEND true
  let d2 := d1.setPwm c { d1.pwmC c with pairT := some d.now }
  if (d2.pwmC c).imm then
    (d2.setB st F.PWM_STAT_PEND false).setNext c
      { d2.nextSet c with rise := d2.rd (Reg.PWM_RISE c), fall := v } (d2.pwmC c).endT
  else d2

/-! ### Safe levels, trips (R250 to R253) -/

/-- Whether an output is held at its safe level (PWM_STAT.FORCED). -/
def pwmForced (d : Dev) (c : Nat) : Bool :=
  !d.pwmEn c || d.bit Reg.PWM_TRIPSTAT ⟨c / 2, c / 2⟩ || d.pwmHalt || d.pwmForce ||
    decide (d.mode = .service) || (d.pwmC c).held

/-- The level at the ball of an output, `none` for high impedance. -/
def pwmLevel (d : Dev) (c : Nat) : Option Bool :=
  if d.pwmForced c then
    match d.f (Reg.PWM_CFG c) F.PWM_CFG_SAFE with
    | 0 => some false
    | 1 => some true
    | _ => none
  else some (d.levelOf c)

/-- PWM_STAT of a channel; `hiz` is what LVL reads at high impedance. -/
def pwmStatView (d : Dev) (c : Nat) (hiz : Bool) : Word :=
  putB (putB (d.rd (Reg.PWM_STAT c)) F.PWM_STAT_FORCED (d.pwmForced c)) F.PWM_STAT_LVL
    ((d.pwmLevel c).getD hiz)

/-- PWM_CNT of a channel (R246). -/
def pwmCntView (d : Dev) (c : Nat) : Word :=
  let x := d.pwmC (d.pwmRef c)
  if d.pwmEn c then BitVec.ofNat 32 (min ((d.now - x.reloadT) / (x.psc + 1)) (x.per - 1)) else 0

/-- A link of R252 holds pairs of a half. -/
def linkHolds (d : Dev) (h : Half) : Bool := decide (d.hmode h = .safe ∨ d.hmode h = .rundown)

/-- PWM_TRIPSTAT (corners DEDUCED, log 41). -/
def tripStatView (d : Dev) : Word :=
  let on : Half → Bool := fun h => d.linkHolds h && (List.range 16).any fun p => d.pairLinked p h
  putB (putB (d.rd Reg.PWM_TRIPSTAT) ⟨20, 20⟩ (on .a)) ⟨21, 21⟩ (on .b)

/-- TRIPi qualified active enabled for a pair. -/
def tripHeld (d : Dev) (p : Nat) : Bool :=
  (List.range 4).any fun i => d.bit Reg.PWM_TRIPSTAT ⟨16 + i, 16 + i⟩ &&
    d.bit (Reg.PWM_PAIRCFG p) ⟨4 + i, 4 + i⟩

/-- Every pair that an active enabled input holds is tripped (R250). -/
def tripAll (d : Dev) : Dev :=
  (List.range 16).foldl (fun d p => if d.tripHeld p then d.tripPair p else d) d

/-- A clear of one pair (R251) (corners DEDUCED, log 41). -/
def tripClr (d : Dev) (p : Nat) : Dev :=
  if d.bit Reg.PWM_TRIPSTAT ⟨p, p⟩ then
    if d.tripHeld p || (d.pairLinked p .a && d.linkHolds .a) || (d.pairLinked p .b && d.linkHolds .b) then
      d.flag Reg.PWM_TRIPFLAG ⟨p, p⟩ 0xCC
    else
      let d1 := d.setB Reg.PWM_TRIPSTAT ⟨p, p⟩ false
      let d2 := d1.setPwm (2 * p) { d1.pwmC (2 * p) with held := true }
      d2.setPwm (2 * p + 1) { d2.pwmC (2 * p + 1) with held := true }
  else d

/-- After HALT every output resumes at its next reload (R50). -/
def pwmResume (d : Dev) : Dev :=
  (List.range 32).foldl (fun d c => d.setPwm c { d.pwmC c with held := true }) { d with pwmHalt := false }

/-! ### Delay lines (R247) -/

/-- A background calibration: `taps` counts how far the replica chain is from one TIME cycle, positive
where a higher code brings it nearer (DESIGN CHOICE, log 42). -/
def recalibrate (d : Dev) (taps : Int) : Dev :=
  let code := d.f Reg.PWM_DLSTAT F.PWM_DLSTAT_CODE
  let c := if 0 < taps then min 63 (code + 1) else if taps < 0 then code - 1 else code
  let bad := decide (2 < taps.natAbs)
  let d1 := ((d.setF Reg.PWM_DLSTAT F.PWM_DLSTAT_CODE c).incF Reg.PWM_DLSTAT F.PWM_DLSTAT_CALS)
  let d2 := { d1 with dlBad := bad }
  if (bad && d.dlBad) || decide (c = 0) || decide (c = 63) then
    (d2.mark Reg.PWM_DLSTAT F.PWM_DLSTAT_DL_ERR).fault .clock .device
  else d2

end Dev

/-! ### The commands -/

/-- PWM_RELOAD (R242, R244). -/
def execPwmReload (t : Tick) (c : Fin 32) (s : State) : Out := s.onDev t fun d => d.reloadDue c.val

/-- PWM_EDGE (R243, R248, R249): an edge of output c, dead time included. -/
def execPwmEdge (t : Tick) (c : Fin 32) (rise : Bool) (s : State) : Out :=
  s.onDev t fun d => d.pwmEdge c.val rise

/-- PWM_PER_WRITE (R242, R244, R245). -/
def execPwmPerWrite (t : Tick) (_m : Master) (c : Fin 32) (v : Word) (s : State) : Out :=
  s.onDev t fun d => d.onWrite (Reg.PWM_PER c.val) fun d => d.perWrite c.val v

/-- PWM_RISE_WRITE (R244). -/
def execPwmRiseWrite (t : Tick) (_m : Master) (c : Fin 32) (v : Word) (s : State) : Out :=
  s.onDev t fun d => d.onWrite (Reg.PWM_RISE c.val) fun d => d.riseWrite c.val v

/-- PWM_FALL_WRITE (R244, R245). -/
def execPwmFallWrite (t : Tick) (_m : Master) (c : Fin 32) (v : Word) (s : State) : Out :=
  s.onDev t fun d => d.onWrite (Reg.PWM_FALL c.val) fun d => d.fallWrite c.val v

/-- PWM_ENABLE (R246). -/
def execPwmEnable (t : Tick) (_m : Master) (c : Fin 32) (v : Word) (s : State) : Out :=
  s.onDev t fun d => d.onWrite (Reg.PWM_CFG c.val) fun d => d.pwmCfg c.val v

/-- PWM_SYNC_RESTART (R246): a write of PWM_SYNC, or a timer's trigger. -/
def execPwmSyncRestart (t : Tick) (m : Option Master) (v : Word) (s : State) : Out :=
  s.onDev t fun d =>
    match m with
    | some _ => d.onWrite Reg.PWM_SYNC fun d => d.pwmSync v
    | none => (d.unsend (.pwmSync v)).pwmSync v

/-- TRIP_QUALIFIED (R250). -/
def execTripQualified (t : Tick) (i : Fin 4) (s : State) : Out :=
  s.onDev t fun d => (d.setB Reg.PWM_TRIPSTAT ⟨16 + i.val, 16 + i.val⟩ true).tripAll

/-- TRIP_RELEASED (R250). -/
def execTripReleased (t : Tick) (i : Fin 4) (s : State) : Out :=
  s.onDev t fun d => d.setB Reg.PWM_TRIPSTAT ⟨16 + i.val, 16 + i.val⟩ false

/-- TRIP_CLEAR (R251). -/
def execTripClear (t : Tick) (_m : Master) (v : Word) (s : State) : Out :=
  s.onDev t fun d => d.onWrite Reg.PWM_TRIPCLR fun d => (bitsOf v 16).foldl Dev.tripClr d

/-- DELAY_LINE_RECALIBRATION (R247). -/
def execDelayLineRecalibration (t : Tick) (taps : Int) (s : State) : Out :=
  s.onDev t fun d => if d.timeRun then d.recalibrate taps else d

end Sys2Proof.Machine
end

