-- ==== Sys2Proof/Machine/Colt.lean ====
section
/-! DEFINITION. The Colt programmable pin engines (R282 to R302). -/

namespace Sys2Proof.Machine

open Sys2Proof

/-! ### State words (R287 to R289) -/

/-- Bits hi to lo of a state word. -/
def wordBits (w : BitVec 64) (hi lo : Nat) : Nat := w.toNat / 2 ^ lo % 2 ^ (hi + 1 - lo)

/-- The state word of two table words. -/
def stateWord (lo hi : Word) : BitVec 64 := BitVec.ofNat 64 (lo.toNat + hi.toNat * 2 ^ 32)

def nextM (w : BitVec 64) : Nat := wordBits w 63 58
def nextT (w : BitVec 64) : Nat := wordBits w 57 52
def wTmo (w : BitVec 64) : Nat := wordBits w 51 36
def wWait (w : BitVec 64) : Nat := wordBits w 35 32
def wArg (w : BitVec 64) : Nat := wordBits w 31 27
def wPol (w : BitVec 64) : Bool := w.getLsbD 26
def wDact (w : BitVec 64) : Nat := wordBits w 25 22
def wDn (w : BitVec 64) : Nat := wordBits w 21 17
def wMsbf (w : BitVec 64) : Bool := w.getLsbD 16
def wPact (w : BitVec 64) : Nat := wordBits w 13 11
def wPpin (w : BitVec 64) : Nat := wordBits w 10 7
def wIrq (w : BitVec 64) : Bool := w.getLsbD 6
def wMreq (w : BitVec 64) : Bool := w.getLsbD 5
def wFop (w : BitVec 64) : Nat := wordBits w 4 3
def wFidx (w : BitVec 64) : Nat := wordBits w 2 0

/-- A shift action. -/
def isShift (w : BitVec 64) : Bool := decide (1 ≤ wDact w ∧ wDact w ≤ 3)

/-- A malformed state word (R289). -/
def badWord (w : BitVec 64) : Bool :=
  let arg := wArg w
  decide (8 ≤ wWait w) || decide (0xE ≤ wDact w) || decide (5 ≤ wPact w) || decide (wordBits w 15 14 ≠ 0) ||
    decide (6 ≤ wFidx w) || (decide (wDn w ≠ 0) && !isShift w) ||
    (match wWait w with
     | 0 | 5 | 7 => decide (arg ≠ 0) || wPol w
     | 3 | 4 => wPol w
     | 6 => decide (6 ≤ arg % 8)
     | _ => false)

/-- The bit of COLT_GFLAG that a flag code names for an engine (R296). -/
def flagBit (e code : Nat) : Nat := if code < 4 then code else 4 + 2 * e + (code - 4)

/-- A watermark field (COLT_FIFOCFG): 0 acts as 1, 5 to 7 as 4. -/
def waterMark (n : Nat) : Nat := max 1 (min 4 n)

namespace Dev

/-- The present SYS cycle (R10): two ticks. -/
def sysCycle (d : Dev) : Nat := d.now / 2

/-- A W1C flag of an engine (R302): SIRQ raises the source if IE is set, every other flag always. -/
def coltFlag (d : Dev) (e : Nat) (x : Fld) : Dev :=
  let a := Reg.COLT_FLAG e
  let d1 := d.mark a x
  if d.bit a x then d1
  else if decide (x.lo ≠ 0) || d.bit (Reg.COLT_FIFOCFG e) F.COLT_FIFOCFG_IE then d1.raise (0xE0 + e) else d1

/-- Whether an engine owns a pin (R284). -/
def owns (d : Dev) (e k : Nat) : Bool := (d.coltPins e).contains k

/-- The levels at the balls that nothing drives follow the outside (PINLVL) (corners DEDUCED, log 46). -/
def pinsSeen (d : Dev) (pins : BitVec 16) : Dev :=
  let w := d.rd Reg.COLT_PINLVL
  let hiz := getF w F.COLT_PINLVL_HIZ
  let lvl := maskOf 16 fun k => if BitVec.getLsbD w k then pins.getLsbD k else BitVec.getLsbD w (16 + k)
  d.wr Reg.COLT_PINLVL (BitVec.ofNat 32 (hiz + lvl.toNat * 65536))

/-! ### FIFOs (R292, R293, R302) -/

/-- The TX line raised where the free entries rise to the watermark (R302) (corners DEDUCED, log 46). -/
def txRise (d : Dev) (e before after : Nat) : Dev :=
  let w := d.rd (Reg.COLT_FIFOCFG e)
  let m := waterMark (getF w F.COLT_FIFOCFG_TXWM)
  if getB w F.COLT_FIFOCFG_TXREQ && decide (4 - before < m) && decide (m ≤ 4 - after) then
    d.send (.mule (18 + e) 0)
  else d

/-- The RX line raised. -/
def rxLine (d : Dev) (e : Nat) : Dev :=
  if d.bit (Reg.COLT_FIFOCFG e) F.COLT_FIFOCFG_RXREQ then d.send (.mule (26 + e) 0) else d

/-- The RX line raised where the RX count rises to the watermark (corners DEDUCED, log 46). -/
def rxRise (d : Dev) (e before after : Nat) : Dev :=
  let m := waterMark (d.f (Reg.COLT_FIFOCFG e) F.COLT_FIFOCFG_RXWM)
  if before < m ∧ m ≤ after then d.rxLine e else d

/-- The number of entries of a FIFO that an engine sees in this SYS cycle (R293). -/
def seen (d : Dev) (old : Option (Nat × Nat)) (now : Nat) : Nat :=
  match old with
  | some (c, n) => if c = d.sysCycle then n else now
  | none => now

/-- The entries before the first bus access of this SYS cycle. -/
def before (d : Dev) (old : Option (Nat × Nat)) (now : Nat) : Option (Nat × Nat) :=
  some (d.sysCycle, d.seen old now)

/-- A bus push (R292). -/
def txPush (d : Dev) (e : Nat) (v : Word) : Dev :=
  let x := d.coltE e
  if x.tx.length < 4 then
    d.setColt e { x with tx := x.tx ++ [v], txOld := d.before x.txOld x.tx.length }
  else d.coltFlag e F.COLT_FLAG_TXOVR

/-- A bus pop (R292): the word, and the state after. -/
def rxPop (d : Dev) (e : Nat) : Word × Dev :=
  let x := d.coltE e
  match x.rx with
  | v :: l => (v, d.setColt e { x with rx := l, rxOld := d.before x.rxOld x.rx.length })
  | [] => (0, d.coltFlag e F.COLT_FLAG_RXUND)

/-! ### Flags (R296) -/

/-- COLT_GFLAG as it stood at the start of this SYS cycle. -/
def gflagStart (d : Dev) : Word :=
  match d.gflagOld with
  | some g => if g.cyc = d.sysCycle then g.start else d.rd Reg.COLT_GFLAG
  | none => d.rd Reg.COLT_GFLAG

/-- The changes of COLT_GFLAG in this SYS cycle. -/
def gflagOps (d : Dev) : List (Nat × (Word × (Word × Word))) :=
  match d.gflagOld with
  | some g => if g.cyc = d.sysCycle then g.ops else []
  | none => []

/-- A change put in its place: the bus first, then the engines in ascending order (R296). -/
def putOp (x : Nat × (Word × (Word × Word))) :
    List (Nat × (Word × (Word × Word))) → List (Nat × (Word × (Word × Word)))
  | [] => [x]
  | y :: l => if x.1 < y.1 then x :: y :: l else y :: putOp x l

/-- COLT_GFLAG changed within this SYS cycle: what is set, cleared and toggled, by the bus or an engine (R296). -/
def setGflag (d : Dev) (rank : Nat) (set clr tog : Word) : Dev :=
  let ops := putOp (rank, (set, (clr, tog))) d.gflagOps
  let start := d.gflagStart
  { d.wr Reg.COLT_GFLAG (ops.foldl (fun g o => ((g ||| o.2.1) &&& ~~~o.2.2.1) ^^^ o.2.2.2) start) with
    gflagOld := some ⟨d.sysCycle, start, ops⟩ }

/-- The flag operation of a state word. -/
def flagOp (d : Dev) (e : Nat) (w : BitVec 64) : Dev :=
  let b := BitVec.ofNat 32 (2 ^ flagBit e (wFidx w))
  match wFop w with
  | 1 => d.setGflag (e + 1) b 0 0
  | 2 => d.setGflag (e + 1) 0 b 0
  | 3 => d.setGflag (e + 1) 0 0 b
  | _ => d

/-! ### Pins (R284 to R286) -/

/-- An engine drives a pin (R285). -/
def drivePin (d : Dev) (e k : Nat) (lvl : Option Bool) : Dev :=
  if d.owns e k then d.pinSet k lvl else d.coltFlag e F.COLT_FLAG_PINERR

/-- The pin action of a state word (R288). -/
def pinAction (d : Dev) (e : Nat) (w : BitVec 64) : Dev :=
  let k := wPpin w
  let p := d.rd Reg.COLT_PINLVL
  match wPact w with
  | 1 => d.drivePin e k (some false)
  | 2 => d.drivePin e k (some true)
  | 3 => d.drivePin e k (some (BitVec.getLsbD p k || !BitVec.getLsbD p (16 + k)))
  | 4 => d.drivePin e k none
  | _ => d

/-! ### Data actions (R288, R291, R292) -/

/-- One shift bit (R291). -/
def shiftBit (d : Dev) (e : Nat) (pins : BitVec 16) : Dev :=
  let x := d.coltE e
  let w := x.ex
  let msb := wMsbf w
  let cfg := d.rd (Reg.COLT_CFG e)
  let out := decide (wDact w ≠ 2)
  let inn := decide (wDact w ≠ 1)
  let o := if msb then x.tsr.getLsbD 31 else x.tsr.getLsbD 0
  let i : Word := if pins.getLsbD (getF cfg F.COLT_CFG_DIN) then 1 else 0
  let d1 := d.setColt e { x with
    shifting := x.shifting - 1
    tsr := if out then (if msb then x.tsr.rotateLeft 1 else x.tsr.rotateRight 1) else x.tsr
    outN := if out then satInc 63 x.outN else x.outN
    rsr := if inn then (if msb then (x.rsr <<< (1 : Nat)) ||| i else (x.rsr >>> (1 : Nat)) ||| (i <<< (31 : Nat)))
      else x.rsr
    inN := if inn then satInc 63 x.inN else x.inN }
  if out then d1.drivePin e (getF cfg F.COLT_CFG_DOUT) (some o) else d1

/-- The oldest TX entry to TSR. -/
def loadTx (d : Dev) (e : Nat) : Dev :=
  let x := d.coltE e
  match x.tx with
  | v :: l => (d.setColt e { x with tsr := v, tx := l, outN := 0, blocked := false }).txRise e x.tx.length
      l.length
  | [] => d

/-- RSR to the RX FIFO. -/
def storeRx (d : Dev) (e : Nat) : Dev :=
  let x := d.coltE e
  (d.setColt e { x with rx := x.rx ++ [x.rsr], rsr := 0, inN := 0, blocked := false }).rxRise e x.rx.length
    (x.rx.length + 1)

/-- TX not empty, RX not full, as the engine sees them. -/
def txHas (d : Dev) (e : Nat) : Bool :=
  let x := d.coltE e
  !x.tx.isEmpty && decide (d.seen x.txOld x.tx.length ≠ 0)

def rxRoom (d : Dev) (e : Nat) : Bool :=
  let x := d.coltE e
  decide (x.rx.length < 4) && decide (d.seen x.rxOld x.rx.length < 4)

/-- A blocking transfer tried (R292). -/
def transfer (d : Dev) (e : Nat) : Dev :=
  if wDact (d.coltE e).ex = 4 then (if d.txHas e then d.loadTx e else d)
  else (if d.rxRoom e then d.storeRx e else d)

/-- The data action of a state word at its cycle 0. -/
def dataAction (d : Dev) (e : Nat) (w : BitVec 64) : Dev :=
  let x := d.coltE e
  let rl := d.rd (Reg.COLT_RELOAD e)
  match wDact w with
  | 1 | 2 | 3 => d.setColt e { x with shifting := wDn w + 1 }
  | 4 | 6 => d.setColt e { x with blocked := true }
  | 5 =>
    if d.txHas e then d.loadTx e
    else (d.setColt e { x with outN := 0 }).coltFlag e F.COLT_FLAG_TXUND
  | 7 =>
    if d.rxRoom e then d.storeRx e
    else (d.setColt e { x with rsr := 0, inN := 0 }).coltFlag e F.COLT_FLAG_RXOVR
  | 8 => d.setColt e { x with ca := getF rl F.COLT_RELOAD_CAR }
  | 9 => d.setColt e { x with cb := getF rl F.COLT_RELOAD_CBR }
  | 0xA => d.setColt e { x with ca := x.ca - 1 }
  | 0xB => d.setColt e { x with cb := x.cb - 1 }
  | 0xC => d.wr (Reg.COLT_RELOAD e) x.tsr
  | 0xD => d.setColt e { x with
      rsr := (x.rsr <<< (16 : Nat)) ||| BitVec.ofNat 32 x.ca, inN := min 63 (x.inN + 16) }
  | _ => d

/-! ### Execution (R290) -/

/-- The state code of an engine that is not stopped. -/
def coltState (d : Dev) (e code : Nat) : Dev := d.setF (Reg.COLT_STAT e) F.COLT_STAT_STATE code

/-- The injection that may be taken in this cycle: its upper write came in an earlier one (R300). -/
def usable (d : Dev) (x : Colt) : Option (BitVec 64) :=
  match x.inj with
  | some (w, c) => if c < d.sysCycle then some w else none
  | none => none

/-- The word of a table entry as a fetch sees it: a commit in this SYS cycle is not seen (R299). -/
def tabWord (d : Dev) (e i : Nat) : BitVec 64 :=
  let w := stateWord (d.rd (Reg.COLT_TAB_LO e i)) (d.rd (Reg.COLT_TAB_HI e i))
  match (d.coltE e).commit with
  | some (c, l) => if c = d.sysCycle then (sparseFind l i).getD w else w
  | none => w

/-- The engine leaves its state; the next engine cycle enters another. -/
def leave (d : Dev) (e pc : Nat) : Dev :=
  (d.setColt e { d.coltE e with
    pc := pc, atEntry := true, waiting := false, tests := 0, blocked := false }).coltState e 1

/-- Cycle 0 of a state (R290): the fetch, or a pending injection in its place; a malformed word stops the
engine (corners DEDUCED, log 46). -/
def coltEntry (d : Dev) (e : Nat) : Dev :=
  let x := d.coltE e
  let j := d.usable x
  let w := j.getD (d.tabWord e x.pc)
  let d1 := d.setColt e { x with
    ex := w, atEntry := false, waiting := false, tests := 0, shifting := 0, blocked := false
    injExec := j.isSome, inj := if j.isSome then none else x.inj }
  if badWord w then (d1.coltHalt e 1).coltFlag e F.COLT_FLAG_BADWORD
  else
    let d2 := ((d1.coltState e 1).pinAction e w).flagOp e w
    let d3 := if wIrq w then d2.coltFlag e F.COLT_FLAG_SIRQ else d2
    let d4 := if wMreq w then d3.rxLine e else d3
    d4.dataAction e w

/-- The wait begins at its first test (R288): the pins of its first cycle, a counter to be loaded (corners DEDUCED, log
46). -/
def waitBegin (d : Dev) (e : Nat) (pins : BitVec 16) : Dev :=
  let x := d.coltE e
  if x.waiting then d
  else
    let rl := d.rd (Reg.COLT_RELOAD e)
    let arg := wArg x.ex
    let load := decide (wWait x.ex = 3) && decide (arg / 2 % 2 = 1)
    d.setColt e { x with
      waiting := true, edgeSeen := false, lastPins := pins
      ca := if load && decide (arg % 2 = 0) then getF rl F.COLT_RELOAD_CAR else x.ca
      cb := if load && decide (arg % 2 = 1) then getF rl F.COLT_RELOAD_CBR else x.cb }

/-- One evaluation of the wait condition (R288): whether it holds, and the state after (corners DEDUCED, log 46). -/
def waitTest (d : Dev) (e : Nat) (pins : BitVec 16) : Bool × Dev :=
  let x := d.coltE e
  let w := x.ex
  let arg := wArg w
  let pol := wPol w
  match wWait w with
  | 0 => (true, d)
  | 1 => (pins.getLsbD (arg % 16) == pol, d)
  | 2 =>
    let k := arg % 16
    let edge := x.edgeSeen || (pins.getLsbD k == pol && x.lastPins.getLsbD k != pol)
    (edge, d.setColt e { x with edgeSeen := edge, lastPins := pins })
  | 3 =>
    if arg % 2 = 0 then (decide (x.ca ≤ 1), d.setColt e { x with ca := x.ca - 1 })
    else (decide (x.cb ≤ 1), d.setColt e { x with cb := x.cb - 1 })
  | 4 =>
    let tx := d.seen x.txOld x.tx.length
    let rx := d.seen x.rxOld x.rx.length
    (match arg % 4 with
     | 0 => decide (tx ≠ 0)
     | 1 => decide (rx < 4)
     | 2 => decide (tx = 0)
     | _ => decide (rx ≠ 0), d)
  | 5 => (x.trigp, if x.trigp then d.setColt e { x with trigp := false } else d)
  | 6 => (BitVec.getLsbD d.gflagStart (flagBit e (arg % 8)) == pol, d)
  | _ => (false, d)

/-- One test from the last data cycle on (R290, R300): an injection beats a match, a match a timeout. -/
def coltTest (d : Dev) (e : Nat) (pins : BitVec 16) : Dev :=
  let x := d.coltE e
  if (d.usable x).isSome then d.leave e x.pc
  else
    let r := (d.waitBegin e pins).waitTest e pins
    let w := x.ex
    let n := x.tests + 1
    if r.1 then r.2.leave e (nextM w)
    else if wTmo w ≠ 0 ∧ n = wTmo w then r.2.leave e (nextT w)
    else (r.2.setColt e { r.2.coltE e with tests := n }).coltState e 2

/-- A TRIG test of this SYS cycle that fails is remembered: a trigger of the cycle still counts for it (R301). -/
def testSeen (d : Dev) (e : Nat) (pins : BitVec 16) : Dev :=
  let x := d.coltE e
  let d1 := d.coltTest e pins
  if decide (wWait x.ex = 5) && !x.trigp && (d.usable x).isNone then
    d1.setColt e { d1.coltE e with trigFail := some d.sysCycle }
  else d1

/-- PACE of an engine: 0, an engine cycle makes each shift bit. -/
def paced (d : Dev) (e : Nat) : Bool := decide (d.f (Reg.COLT_MODE e) F.COLT_MODE_PACE ≠ 0)

/-- The data cycle of a state that is entered (R290, R292, R294). -/
def coltData (d : Dev) (e : Nat) (pins : BitVec 16) : Dev :=
  let x := d.coltE e
  if x.blocked then
    if (d.usable x).isSome then d.leave e x.pc
    else
      let d1 := d.transfer e
      if (d1.coltE e).blocked then d1.coltState e 3 else d1.testSeen e pins
  else if x.shifting = 0 then d.testSeen e pins
  else if d.paced e then
    if x.pace then
      let d1 := (d.setColt e { x with pace := false }).shiftBit e pins
      if (d1.coltE e).shifting = 0 then d1.testSeen e pins else d1.coltState e 3
    else d.coltState e 3
  else
    let d1 := d.shiftBit e pins
    if (d1.coltE e).shifting = 0 then d1.testSeen e pins else d1.coltState e 1

/-- Whether an engine runs: not stopped, and not frozen (R298). -/
def coltRuns (d : Dev) (e : Nat) : Bool :=
  !d.coltStopped e && decide (d.mode = .operate ∨ d.mode = .service)

/-- SYS cycles of an engine cycle (R283). -/
def divCyc (d : Dev) (e : Nat) : Nat := d.f (Reg.COLT_CFG e) F.COLT_CFG_DIV + 1

/-- The engine cycle after the one due at a SYS cycle. -/
def cycleAfter (next now div : Nat) : Nat := next + ((now - next) / div + 1) * div

/-- One engine cycle where one is due (R283, R290); `pins` are the levels its tests and samples see (corners
DEDUCED, log 46). -/
def engineCycle (d : Dev) (e : Nat) (pins : BitVec 16) : Dev :=
  let x := d.coltE e
  if d.coltRuns e && decide (x.nextC ≤ d.sysCycle) then
    let d0 := (d.setColt e { x with nextC := cycleAfter x.nextC d.sysCycle (d.divCyc e) }).pinsSeen pins
    let d1 := if (d0.coltE e).atEntry then d0.coltEntry e else d0
    if d1.coltStopped e then d1 else d1.coltData e pins
  else d

/-- The engine as it stood before a STOP of this SYS cycle, which acts in the next one (R297). -/
def beforeStop (d : Dev) (e : Nat) : Option Dev :=
  let x := d.coltE e
  match x.stop with
  | some s =>
    if s.cyc = d.sysCycle then
      some ((d.setColt e { x with
        atEntry := s.atEntry, shifting := s.shifting, blocked := s.blocked, waiting := s.waiting, tests := s.tests
        pace := s.pace, trigp := s.trigp }).coltState e s.state)
    else none
  | none => none

/-- STOP (R297): the engine's cycle of the same SYS cycle is still made, and its pins end at their safe levels
(R301) (corners DEDUCED, log 46). -/
def coltStop (d : Dev) (e : Nat) : Dev :=
  let x := d.coltE e
  let d1 := if d.coltStopped e then d else d.setColt e { x with
    stop := some ⟨d.sysCycle, d.f (Reg.COLT_STAT e) F.COLT_STAT_STATE, x.atEntry, x.shifting, x.blocked, x.waiting,
      x.tests, x.pace, x.trigp⟩ }
  d1.coltHalt e 0

/-- COLT_ENGINE_CYCLE of an engine. -/
def coltCycle (d : Dev) (e : Nat) (pins : BitVec 16) : Dev :=
  match d.beforeStop e with
  | some d0 =>
    let d1 := d0.engineCycle e pins
    if d1.coltStopped e then d1 else d1.coltHalt e 0
  | none => d.engineCycle e pins

/-- The level of an engine's pacing source, the one that an edge leads to (R294): a pin, or a PWM output as PWM_STAT.LVL
shows it. -/
def paceLevel (d : Dev) (e : Nat) (pins : BitVec 16) : Bool :=
  let w := d.rd (Reg.COLT_MODE e)
  let k := getF w F.COLT_MODE_PIDX
  if getB w F.COLT_MODE_PSRC then (d.pwmLevel k).getD ((Config.freeWord d.freeCtr).getLsbD 0)
  else pins.getLsbD (k % 16)

/-- Whether an edge to the level that stands paces an engine: PACE selects rising or falling edges. -/
def paceEdge (d : Dev) (e : Nat) (pins : BitVec 16) : Bool :=
  d.paced e && (d.paceLevel e pins == decide (d.f (Reg.COLT_MODE e) F.COLT_MODE_PACE = 1))

/-- A pacing edge (R294): the bit that waits for it, or the latch. -/
def coltPace (d : Dev) (e : Nat) (pins : BitVec 16) : Dev :=
  let x := d.coltE e
  if d.coltRuns e && d.paceEdge e pins then
    if !x.atEntry && !x.blocked && decide (x.shifting ≠ 0) then
      let d1 := (d.pinsSeen pins).shiftBit e pins
      if (d1.coltE e).shifting = 0 then d1.coltState e 1 else d1
    else if x.pace then d.coltFlag e F.COLT_FLAG_PACE_OVR
    else d.setColt e { x with pace := true }
  else d

/-! ### Commands (R295, R297, R299, R300) -/

/-- A trigger (R295, R301): those of one SYS cycle count as one; one that follows a failed TRIG test of its cycle makes that
test match; one in the cycle of a START or a STOP is cleared by it. -/
def coltTrig (d : Dev) (e : Nat) : Dev :=
  let x := d.coltE e
  let c := d.sysCycle
  if x.startC = some c ∨ x.trigT = some c ∨ (x.stop.map (·.cyc)) = some c then d
  else if x.trigFail = some c ∧ d.coltStopped e = false then
    (d.setColt e { x with trigT := some c, trigFail := none }).leave e (nextM x.ex)
  else if x.trigp then d.coltFlag e F.COLT_FLAG_TRIG_OVR
  else d.setColt e { x with trigp := true, trigT := some c }

/-- START (R297): the first engine cycle is the next SYS cycle; an engine that stops in this cycle is not yet STOPPED. -/
def coltBegin (d : Dev) (e : Nat) : Dev :=
  let x := d.coltE e
  if d.coltStopped e && decide ((x.stop.map (·.cyc)) ≠ some d.sysCycle) then
    let rl := d.rd (Reg.COLT_RELOAD e)
    let d1 := d.setColt e { x with
      pc := d.f (Reg.COLT_CFG e) F.COLT_CFG_ENTRY, atEntry := true, shifting := 0, blocked := false
      waiting := false, tests := 0, ca := getF rl F.COLT_RELOAD_CAR, cb := getF rl F.COLT_RELOAD_CBR
      tsr := 0, rsr := 0, outN := 0, inN := 0, trigp := false, pace := false, inj := none
      injExec := false, nextC := d.sysCycle + 1, startC := some d.sysCycle, froze := none }
    let d2 := d1.setGflag 0 0 (BitVec.ofNat 32 (3 * 2 ^ (4 + 2 * e))) 0
    let w := d.rd (Reg.COLT_FIFOCFG e)
    let d3 := if getB w F.COLT_FIFOCFG_TXREQ &&
        decide (waterMark (getF w F.COLT_FIFOCFG_TXWM) ≤ 4 - x.tx.length) then d2.send (.mule (18 + e) 0)
      else d2
    d3.coltState e 1
  else d

/-- HALT holds the divider of an engine (R298). -/
def coltFreeze (d : Dev) : Dev :=
  (List.range 8).foldl
    (fun d e => if d.coltStopped e then d else
      d.setColt e { d.coltE e with froze := some ((d.coltE e).nextC - d.sysCycle) }) d

/-- After HALT an engine goes on in the engine cycle in which it froze (R298). -/
def coltThaw (d : Dev) : Dev :=
  (List.range 8).foldl
    (fun d e =>
      let x := d.coltE e
      match x.froze with
      | some n => d.setColt e { x with nextC := d.sysCycle + n, froze := none }
      | none => d) d

/-- FLUSH (R297). -/
def coltFlush (d : Dev) (e : Nat) : Dev :=
  let x := d.coltE e
  (d.setColt e { x with
    tx := [], rx := [], txOld := d.before x.txOld x.tx.length, rxOld := d.before x.rxOld x.rx.length }).txRise
    e x.tx.length 0

/-- A write of COLT_INJHI (R300) (corners DEDUCED, log 46). -/
def coltInj (d : Dev) (e : Nat) (v : Word) : Dev :=
  let x := d.coltE e
  let w := stateWord (d.rd (Reg.COLT_INJLO e)) v
  if d.coltStopped e then d.coltFlag e F.COLT_FLAG_INJ_DENIED
  else if x.inj.isSome || badWord w then d.busErr.coltFlag e F.COLT_FLAG_INJ_DENIED
  else d.setColt e { x with inj := some (w, d.sysCycle) }

/-- A write of the lower word of an entry (R299) (corners DEDUCED, log 46). -/
def tabStage (d : Dev) (e i : Nat) (v : Word) : Dev :=
  d.setColt e { d.coltE e with stage := some (i, v) }

/-- The entries committed in this SYS cycle. -/
def committed (d : Dev) (e : Nat) : List (Nat × BitVec 64) :=
  match (d.coltE e).commit with
  | some (c, l) => if c = d.sysCycle then l else []
  | none => []

/-- A write of the upper word commits the entry (R299). -/
def tabCommit (d : Dev) (e i : Nat) (v : Word) : Dev :=
  let x := d.coltE e
  let lo := d.rd (Reg.COLT_TAB_LO e i)
  let new := match x.stage with
    | some (j, w) => if j = i then w else lo
    | none => lo
  ((d.wr (Reg.COLT_TAB_LO e i) new).wr (Reg.COLT_TAB_HI e i) v).setColt e { x with
    stage := none, commit := some (d.sysCycle, sparseInsert (d.committed e) i (d.tabWord e i)) }

/-- READY (R286, R297): owned pins safe, engines with AUTO started. -/
def coltReady (d : Dev) : Dev :=
  (List.range 8).foldl
    (fun d e =>
      let d1 := (d.coltPins e).foldl pinSafe d
      if d1.bit (Reg.COLT_MODE e) F.COLT_MODE_AUTO then d1.coltBegin e else d1) d

/-! ### Views -/

/-- COLT_STAT of an engine. -/
def coltStatView (d : Dev) (e : Nat) : Word :=
  let x := d.coltE e
  let st := d.f (Reg.COLT_STAT e) F.COLT_STAT_STATE
  let st' := if st ≠ 0 ∧ d.mode = .halt then 4 else st
  BitVec.ofNat 32 (st' * 2 ^ 29 + bnat x.inj.isSome * 2 ^ 28 + bnat x.injExec * 2 ^ 27 +
    bnat x.trigp * 2 ^ 26 + bnat x.pace * 2 ^ 25 + x.tx.length * 2 ^ 21 + x.rx.length * 2 ^ 18 +
    x.outN * 2 ^ 12 + x.inN * 2 ^ 6 + x.pc)

/-- COLT_SUM. -/
def coltSumView (d : Dev) : Word :=
  let run := maskOf 8 fun e => !d.coltStopped e
  let flg := maskOf 8 fun e => decide (getF (d.rd (Reg.COLT_FLAG e)) ⟨9, 0⟩ ≠ 0)
  run ||| (flg <<< (8 : Nat))

end Dev

/-! ### The commands -/

/-- COLT_START (R297). -/
def execColtStart (t : Tick) (_m : Master) (e : Fin 8) (s : State) : Out :=
  s.onDev t fun d => d.onWrite (Reg.COLT_CTRL e.val) fun d => d.coltBegin e.val

/-- COLT_STOP (R297). -/
def execColtStop (t : Tick) (_m : Master) (e : Fin 8) (s : State) : Out :=
  s.onDev t fun d => d.onWrite (Reg.COLT_CTRL e.val) fun d => d.coltStop e.val

/-- COLT_FLUSH (R297). -/
def execColtFlush (t : Tick) (_m : Master) (e : Fin 8) (s : State) : Out :=
  s.onDev t fun d => d.onWrite (Reg.COLT_CTRL e.val) fun d => d.coltFlush e.val

/-- COLT_ENGINE_CYCLE (R290). -/
def execColtEngineCycle (t : Tick) (e : Fin 8) (pins : BitVec 16) (s : State) : Out :=
  s.onDev t fun d => d.coltCycle e.val pins

/-- COLT_PACE_EDGE (R294). -/
def execColtPaceEdge (t : Tick) (e : Fin 8) (pins : BitVec 16) (s : State) : Out :=
  s.onDev t fun d => d.coltPace e.val pins

/-- COLT_TRIGGER (R295). -/
def execColtTrigger (t : Tick) (e : Fin 8) (s : State) : Out :=
  s.onDev t fun d => (d.unsend (.colt e.val)).coltTrig e.val

/-- COLT_INJECT (R300). -/
def execColtInject (t : Tick) (_m : Master) (e : Fin 8) (v : Word) (s : State) : Out :=
  s.onDev t fun d => d.onWrite (Reg.COLT_INJHI e.val) fun d => d.coltInj e.val v

/-- COLT_TABLE_COMMIT (R299). -/
def execColtTableCommit (t : Tick) (_m : Master) (e : Fin 8) (i : Fin 64) (v : Word) (s : State) : Out :=
  s.onDev t fun d => d.onWrite (Reg.COLT_TAB_HI e.val i.val) fun d => d.tabCommit e.val i.val v

/-- COLT_TABLE_STAGE (R299). -/
def execColtTableStage (t : Tick) (_m : Master) (e : Fin 8) (i : Fin 64) (v : Word) (s : State) : Out :=
  s.onDev t fun d => d.onWrite (Reg.COLT_TAB_LO e.val i.val) fun d => d.tabStage e.val i.val v

/-- COLT_TX_PUSH (R292). -/
def execColtTxPush (t : Tick) (_m : Master) (e : Fin 8) (v : Word) (s : State) : Out :=
  s.onDev t fun d => d.onWrite (Reg.COLT_TXFIFO e.val) fun d => d.txPush e.val v

/-- COLT_RX_POP (R292). -/
def execColtRxPop (t : Tick) (_m : Master) (e : Fin 8) (s : State) : Out :=
  s.onDev t fun d =>
    let r := d.rxPop e.val
    d.onRead (Reg.COLT_RXFIFO e.val) r.1 fun _ => r.2.okay r.1

/-- COLT_FLAG_SET (R296). -/
def execColtFlagSet (t : Tick) (_m : Master) (v : Word) (s : State) : Out :=
  s.onDev t fun d => d.onWrite Reg.COLT_GFLAG_SET fun d =>
    d.setGflag 0 (v &&& 0xFFFFF) 0 0

/-- COLT_FLAG_CLEAR (R296). -/
def execColtFlagClear (t : Tick) (_m : Master) (v : Word) (s : State) : Out :=
  s.onDev t fun d => d.onWrite Reg.COLT_GFLAG_CLR fun d =>
    d.setGflag 0 0 (v &&& 0xFFFFF) 0

end Sys2Proof.Machine
end

