-- ==== Sys2Proof/Machine/DmdCheck.lean ====
section
/-! DEFINITION. The checks of a demand set (R189 to R191, R205) over a configuration that is read through a
function, so that a commit, a transaction and the image use the same ones. -/

namespace Sys2Proof.Machine

open Sys2Proof

namespace Dmd

/-- What the checks judge: the half, the register words, the demand words by slot and word number, and
the check speed in AU per tick. -/
structure View where
  h : Half
  rd : Nat → Word
  dm : Nat → Nat → Word
  w : Rat

/-- A failure: its code, the reported channel, its slot or the failing slot (R192). -/
abbrev Fail := Nat × Option Nat × Option Nat

/-- The check speed (R190): `speed` is ANG_SPEED, which reads 0 in IDLE, SEEK and SAFE. -/
def checkSpeed (rd : Nat → Word) (h : Half) (speed : Word) : Rat :=
  let cs := rd (Reg.DMD_CHKSPD h)
  let spd := roundAway (Dev.rpmSpeed (ofN (getF cs F.DMD_CHKSPD_SPD)) * pow2Q 24)
  ((max (speed.toNat : Int) spd : Int) : Rat) / pow2Q 24 *
    ofN (16 + getF cs F.DMD_CHKSPD_SPDMARG) / 16

/-- One shot or spark of a channel: its values, its start and its duration in ticks (R190). -/
structure Shot where
  c : Nat
  v : Vals
  s : Nat
  d : Nat

namespace View

/-- The cycle length in AU. -/
def cyc (x : View) : Nat := if getB (x.rd (Reg.WHL_WCFG x.h)) F.WHL_WCFG_CYC720 then 2 * rev else rev

/-- A speed that divides. -/
def wd (x : View) : Rat := if x.w ≤ 0 then 1 else x.w

/-- The cycle time in ticks. -/
def tc (x : View) : Nat := max 1 (roundAway (ofN x.cyc / x.wd)).toNat

/-- A fraction within the cycle. -/
def modCyc (x : View) (q : Rat) : Rat :=
  let c := ofN (max 1 x.cyc)
  q - c * ((q / c).floor : Rat)

/-- The effective duration of a channel's occurrence in ticks (R190). -/
def dur (x : View) (v : Vals) : Nat :=
  if v.endAngle then
    (roundAway (x.modCyc (ofN v.endVal - ofN v.anchor - (v.offset : Rat) * x.w) / x.wd)).toNat
  else v.endVal

/-- The start of a channel's occurrence in ticks after cycle angle 0 (R190). -/
def start (x : View) (v : Vals) : Nat :=
  ((roundAway (ofN v.anchor / x.wd) + v.offset) % (x.tc : Int)).toNat

/-- The control word of a channel. -/
def ctrl (x : View) (c : Nat) : Word := x.rd (Reg.EVC_CTRL x.h c)

/-- The occurrences of the enabled channels of one action that R159 issues, channels ascending. -/
def shots (x : View) (action : Nat) : List Shot :=
  (List.range 256).filterMap fun c =>
    let w := x.ctrl c
    if getB w F.EVC_CTRL_EN && decide (getF w F.EVC_CTRL_ACTION = action) then
      let v := valsOf x.rd x.dm x.h c
      let d := x.dur v
      if v.off || decide (d = 0) then none else some ⟨c, v, x.start v, d⟩
    else none

/-- What is reported of a channel: the channel and its slot. -/
def report (x : View) (code c : Nat) : Fail := (code, some c, slotOf (x.ctrl c))

/-- The lowest channel that names a slot. -/
def namer (x : View) (n : Nat) : Option Nat :=
  (List.range 256).find? fun c => decide (slotOf (x.ctrl c) = some n)

/-- A committed slot that fails RANGE by itself. -/
def badSlot (x : View) (n : Nat) : Bool :=
  let a := x.dm n 0
  let e := x.dm n 2
  let kind := getB e F.DMD_END_KIND
  decide (x.cyc ≤ a.toNat) ||
    (kind && decide (x.cyc ≤ getF e ⟨30, 0⟩)) ||
    decide ((x.dm n 3 &&& 0xFEF0) ≠ 0) || decide (x.dm n 6 ≠ 0) || decide (x.dm n 7 ≠ 0)

/-- 0x20 RANGE: the committed slots ascending, then the channels. -/
def range (x : View) (slots : List Nat) : Option Fail :=
  match slots.find? x.badSlot with
  | some n => some (0x20, x.namer n, some n)
  | none =>
    ((List.range 256).find? fun c =>
      match slotOf (x.ctrl c) with
      | some n => slots.contains n && !hasEnd (getF (x.ctrl c) F.EVC_CTRL_ACTION) &&
          decide (x.dm n 2 ≠ 0)
      | none => false).map fun c => (0x20, (slotOf (x.ctrl c)).bind x.namer, slotOf (x.ctrl c))

/-- 0x21 PROFILE. -/
def profile (x : View) (l : List Shot) : Option Fail :=
  (l.find? fun s => !getB (x.rd (Reg.DRV_PCFG x.h s.v.profile)) F.DRV_PCFG_VALID).map
    fun s => x.report 0x21 s.c

/-- The cylinder of a low-side. -/
def cylOf (x : View) (n : Nat) : Nat := getF (x.rd (Reg.DMD_LSCFG x.h n)) F.DMD_LSCFG_CYL

/-- The first shot at which a running sum per key exceeds its limit. -/
def overSum (key amount : Shot → Nat) (top : Rat) : List (Nat × Nat) → List Shot → Option Shot
  | _, [] => none
  | acc, s :: l =>
    let n := sparseGet 0 acc (key s) + amount s
    if top < ofN n then some s else overSum key amount top (sparseInsert acc (key s) n) l

/-- 0x22 SHOTS. -/
def shotsMax (x : View) (l : List Shot) : Option Fail :=
  (overSum (fun s => x.cylOf s.v.target) (fun _ => 1)
    (ofN (getF (x.rd (Reg.DMD_CYLLIM x.h)) F.DMD_CYLLIM_MAXSHOTS)) [] l).map fun s => x.report 0x22 s.c

/-- The ORDER test along one low-side: `r`, `d` of the shot before. -/
def orderFrom (tc sep s1 : Nat) (first : Nat) : Nat → Nat → List Shot → Option Nat
  | r, d, [] => if tc < r + d + sep then some first else none
  | r, d, s :: l =>
    let r' := (s.s + tc - s1 % tc) % tc
    if r' < r + d + sep then some s.c else orderFrom tc sep s1 first r' s.d l

/-- 0x23 ORDER, low-sides ascending. -/
def order (x : View) (l : List Shot) : Option Fail :=
  ((List.range 12).findSome? fun n =>
    match l.filter fun s => decide (s.v.target = n) with
    | [] => none
    | s :: r =>
      orderFrom x.tc (40 * getF (x.rd (Reg.DMD_LSCFG x.h n)) F.DMD_LSCFG_MINSEP) s.s s.c 0 s.d r).map
    (x.report 0x23)

/-- A shot put in its place by start, ties by channel number. -/
def putShot (s : Shot) : List Shot → List Shot
  | [] => [s]
  | t :: l => if s.s < t.s ∨ (s.s = t.s ∧ s.c < t.c) then s :: t :: l else t :: putShot s l

/-- The first shot of a sorted list that starts too early after the one before it. -/
def gapFrom (gap : Nat) : Shot → List Shot → Option Shot
  | _, [] => none
  | p, s :: l => if s.s < p.s + p.d + gap then some s else gapFrom gap s l

/-- 0x24 OVERLAP, banks ascending, cyclically. -/
def overlap (x : View) (l : List Shot) : Option Fail :=
  ((List.range 6).findSome? fun b =>
    let gap := 40 * getF (x.rd (Reg.DRV_BANKLIM x.h b)) F.DRV_BANKLIM_GAP
    match (l.filter fun s => decide (s.v.target / 2 = b)).foldl (fun acc s => putShot s acc) [] with
    | [] => none
    | s :: r => gapFrom gap s (r ++ [{ s with s := s.s + x.tc }])).map fun s => x.report 0x24 s.c

/-- Q of a shot in µC (R200, R205). -/
def charge (x : View) (s : Shot) : Nat :=
  let p := s.v.profile
  if getB (x.rd (Reg.DRV_PCFG x.h p)) F.DRV_PCFG_BOOST_EN then
    let pb := x.rd (Reg.DRV_PBOOST x.h p)
    let cfg := x.rd (Reg.DRV_BANKCFG x.h (s.v.target / 2))
    let gain := [5, 10, 20, 20].getD (getF cfg F.DRV_BANKCFG_GAIN) 20
    let rsh := max 1 (getF cfg F.DRV_BANKCFG_RSHUNT)
    (roundAway (ofN (getF pb F.DRV_PBOOST_LEVEL * getF pb F.DRV_PBOOST_TMAX) * 3200 /
      ofN (1024 * gain * rsh))).toNat
  else 0

/-- 0x25 BOOST: skipped while QRATE is 0. -/
def boost (x : View) (l : List Shot) : Option Fail :=
  let q := getF (x.rd (Reg.DMD_BOOSTLIM x.h)) F.DMD_BOOSTLIM_QRATE
  if q = 0 then none
  else (overSum (fun _ => 0) x.charge (ofN (q * x.tc) / 400000) [] l).map fun s => x.report 0x25 s.c

/-- 0x26 DURATION: each shot tested, then added to its cylinder (corners DEDUCED, log 35). -/
def durFrom (x : View) (lo hi top : Nat) : List (Nat × Nat) → List Shot → Option Nat
  | _, [] => none
  | acc, s :: l =>
    let k := x.cylOf s.v.target
    let n := sparseGet 0 acc k + s.d
    if s.d < lo ∨ hi < s.d ∨ top < n then some s.c else durFrom x lo hi top (sparseInsert acc k n) l

/-- 0x26 DURATION. -/
def duration (x : View) (l : List Shot) : Option Fail :=
  let lim := x.rd (Reg.DMD_SHOTLIM x.h)
  (x.durFrom (40 * getF lim F.DMD_SHOTLIM_SHOTMIN) (400 * getF lim F.DMD_SHOTLIM_SHOTMAX)
    (400 * getF (x.rd (Reg.DMD_CYLLIM x.h)) F.DMD_CYLLIM_TOTAL) [] l).map (x.report 0x26)

/-- 0x27 DWELL. -/
def dwell (x : View) (l : List Shot) : Option Fail :=
  let lim := x.rd (Reg.DMD_DWELL x.h)
  (l.find? fun s => decide (s.d < 400 * getF lim F.DMD_DWELL_DWMIN) ||
    decide (400 * getF lim F.DMD_DWELL_DWMAX < s.d)).map fun s => x.report 0x27 s.c

/-- The checks that do not depend on speed, 0x20 to 0x22. -/
def slowChecks (x : View) (slots : List Nat) : Option Fail :=
  let l := x.shots 6
  ((x.range slots).or (x.profile l)).or (x.shotsMax l)

/-- All eight checks in the order of their codes; the first failure ends them (R189). -/
def checks (x : View) (slots : List Nat) : Option Fail :=
  let l := x.shots 6
  ((((x.slowChecks slots).or (x.order l)).or (x.overlap l)).or ((x.boost l).or (x.duration l))).or
    (x.dwell (x.shots 5))

end View

end Dmd

end Sys2Proof.Machine
end

