-- ==== Sys2Proof/Machine/Demands.lean ====
section
/-! DEFINITION. Demand slots and atomic commits (R180 to R195, R415). -/

namespace Sys2Proof.Machine

open Sys2Proof

namespace Dev

/-- A write to the bits of a register that its row lets a bus write set directly. -/
def rwWrite (d : Dev) (a : Nat) (v : Word) : Dev :=
  match regAt a with
  | some (some r) => let k := BitVec.ofNat 32 r.rw; d.wr a ((d.rd a &&& ~~~k) ||| (v &&& k))
  | _ => d

/-- The slots of a group mask, ascending. -/
def groupSlots (g : Byte) : List Nat := (List.range 128).filter fun n => g.getLsbD (n / 16)

/-- The half as it would stand after the switch of a commit (R189). -/
def dmdView (d : Dev) (h : Half) (c : Commit) : Dmd.View :=
  { h := h, rd := d.rd
    dm := fun n w => d.rd ((if c.groups.getLsbD (n / 16) then Reg.DMD_ANGLE h n else Reg.DMD_ANGLE_ACT h n) +
      4 * w)
    w := Dmd.checkSpeed d.rd h c.speed }

/-- A half's receive side of the cross-link is valid (R373). -/
def xlkUp (d : Dev) (h : Half) : Bool :=
  match h with
  | .a => d.xlkA
  | .b => d.xlkB

/-- The crossing of a commit to the other half in ticks (R16, R184) (DESIGN CHOICE, log 4). -/
def xlkTk : Nat := 4

/-- The groups of a half that are locked now (R184). -/
def lockedGroups (d : Dev) (h : Half) : Byte :=
  match (d.half h).commit with
  | some c => if c.lockT ≤ d.now then c.groups else 0
  | none => 0

/-- DMD_STAT: of a commit that has not reached the half yet nothing is seen (R184). -/
def dmdStatView (d : Dev) (h : Half) : Word :=
  let w := d.rd (Reg.DMD_STAT h)
  match (d.half h).commit with
  | some c =>
    if c.lockT ≤ d.now then w
    else putF (putF (putB w F.DMD_STAT_XH false) F.DMD_STAT_LOCKED 0) F.DMD_STAT_STATE 0
  | none => w

/-- The first condition that rejects a COMMIT on arrival (R415) (corners DEDUCED, log 37). -/
def arrivalCode (d : Dev) (h : Half) (groups xgroups : Byte) (apply : Nat) : Option Nat :=
  let cross := decide (xgroups ≠ 0)
  let lo := d.rd (Reg.DMD_WHEN_LO h)
  if groups = 0 ∧ xgroups = 0 then some 0x10
  else if (d.half h).commit.isSome || (cross && (d.half h.other).commit.isSome) then some 0x11
  else if !d.operating then some 0x12
  else if d.absent h || (cross && d.absent h.other) then some 0x13
  else if apply = 2 ∧ d.issuing h = false then some 0x14
  else if cross && !(d.xlkUp .a && d.xlkUp .b) then some 0x15
  else if apply = 2 ∧ d.cycLen h ≤ lo.toNat then some 0x18
  else if apply = 3 then some 0x19
  else none

/-- COMMIT (R183 to R186, R415). -/
def commit (d : Dev) (h : Half) (groups xgroups : Byte) (apply : Nat) : Dev :=
  let cross := decide (xgroups ≠ 0)
  match d.arrivalCode h groups xgroups apply with
  | some code =>
    let d1 := d.writeResult h code none none false cross
    if cross && decide (code ≠ 0x11) && decide (d.grade = .tzn5120) then
      d1.writeResult h.other code none none false cross
    else d1
  | none =>
    let waits := d.ctxWrites h || (cross && d.ctxWrites h.other)
    let lo := d.rd (Reg.DMD_WHEN_LO h)
    let hi := d.rd (Reg.DMD_WHEN_HI h)
    let c : Commit :=
      { groups := groups, lockT := d.now, cross := cross, lead := true, apply := apply
        tick := lo.toNat + hi.toNat * 2 ^ 32
        target := if apply = 2 then d.passageAfter h lo.toNat else 0
        speed := d.rd (Reg.ANG_SPEED h), waits := waits, checkEnd := none, fail := none, checked := false
        late := false, reached := false, fixedT := none
        ends := match d.link.hbValidT with | some t => decide (t ≤ d.now) | none => false }
    let d1 := d.setCommit h (some c)
    if cross then
      d1.setCommit h.other (some { c with
        groups := xgroups, lockT := d.now + xlkTk, lead := false, speed := d.rd (Reg.ANG_SPEED h.other) })
    else d1

/-- The commit of a lead half has passed its checks: PENDING, with the switch that its apply point gives
(R185, R186). -/
def toPending (d : Dev) (h : Half) : Dev :=
  match (d.half h).commit with
  | none => d
  | some c =>
    let now := d.now
    let g : Commit → Commit := fun x =>
      if c.apply = 0 then { x with checked := true, fixedT := some (if c.cross then now + 8 else now + 1) }
      else if c.apply = 1 then
        { x with checked := true, late := decide (c.tick < now), fixedT := some (max c.tick now) }
      else
        let before := interpTo (d.model h) (now - 1) (d.track h)
        let at' : Rat := (c.target : Rat)
        if d.phi h < at' then { x with checked := true }
        else if (before.phi : Rat) / pow2Q 24 < at' then { x with checked := true, reached := true }
        else { x with checked := true, late := true, target := d.nextTarget h c.target }
    (d.commitHalves h).foldl (fun d k => d.onCommit k g) d

/-- The checks of one half of a commit end; once those of every involved half have, they are joined: the
failure of the lead half is reported first (R186, R189) (corners DEDUCED, log 37). -/
def dmdChecked (d : Dev) (h : Half) : Dev :=
  match (d.half h).commit, d.leadOf h with
  | some c, some l =>
    if c.waits || c.checkEnd.isSome then d
    else
      let d1 := d.onCommit h fun x => { x with
        checkEnd := some d.now, fail := (d.dmdView h c).checks (groupSlots c.groups) }
      let hs := d1.commitHalves l
      let cs := hs.filterMap fun k => (d1.half k).commit.map fun x => (k, x)
      if cs.all fun e => e.2.checkEnd.isSome then
        match cs.findSome? fun e => e.2.fail.map fun f => (e.1, f) with
        | some (k, f) => d1.endCommit l f.1 f.2.1 f.2.2 k
        | none => d1.toPending l
      else d1
  | _, _ => d

/-- The lead half fixes the common tick T (R186). -/
def fixTime (d : Dev) (h : Half) : Dev :=
  match (d.half h).commit with
  | some c =>
    if c.lead && c.cross && c.checked && c.fixedT.isNone && decide (c.apply = 2) then
      let x := d.track h
      let p := absTime x.tPrev ((d.model h).predict (c.target : Rat) none).1 / 65536
      if p ≤ d.now + 160 then
        (d.commitHalves h).foldl (fun d k => d.onCommit k fun c => { c with fixedT := some (max p d.now) }) d
      else d
    else d
  | none => d

/-- The committed groups of a half become active at once (R180, R182), after what is due on the old values (R179, R182):
the channels of changed slots are chosen again; a commit after the return of the heartbeat ends the fuel cut (R194). -/
def switchHalf (d : Dev) (h : Half) : Dev :=
  match (d.half h).commit with
  | none => d
  | some c =>
    let slots := groupSlots c.groups
    let st := fun n w => d.rd (Reg.DMD_ANGLE h n + 4 * w)
    let ac := fun n w => d.rd (Reg.DMD_ANGLE_ACT h n + 4 * w)
    let changed := slots.filter fun n =>
      decide (st n 0 ≠ ac n 0) || decide (st n 1 ≠ ac n 1) || decide (st n 2 ≠ ac n 2) ||
        decide (getF (st n 3) F.DMD_FLAG_PROFILE ≠ getF (ac n 3) F.DMD_FLAG_PROFILE)
    let d1 := slots.foldl
      (fun d n => (List.range 6).foldl (fun d w => d.wr (Reg.DMD_ANGLE_ACT h n + 4 * w) (st n w)) d) (d.beforeSwitch h)
    let d2 := if c.ends then d1.setB (Reg.DMD_STAT h) F.DMD_STAT_FUELCUT false else d1
    ((d2.half h).chans.map (·.1)).foldl
      (fun d k => match d.dslot h k with
        | some n => if changed.contains n then d.rechoose h k else d
        | none => d) d2

/-- The apply point of the commit that a half leads is reached (R185, R186). -/
def dmdDue (d : Dev) (l : Half) : Bool :=
  (d.half l).commit.any fun c => c.checked && (match c.fixedT with
    | some t => decide (t ≤ d.now)
    | none => decide (c.apply = 2) && !c.cross && (c.reached || decide ((c.target : Rat) ≤ d.phi l)))

/-- A tooth pass runs in a half that the commit of a lead half involves (R21, R186). -/
def dmdPass (d : Dev) (l : Half) : Bool := (d.commitHalves l).any fun k => (d.track k).passing

/-- The apply point of a commit is reached (R21, R185, R186, R193): the switch, or its deferral while a
tooth pass runs. -/
def dmdSwitched (d : Dev) (h : Half) : Dev :=
  match d.leadOf h with
  | none => d
  | some l =>
    if !d.dmdDue l then d
    else if d.dmdPass l then d.onCommit l fun c => { c with reached := true }
    else
      let late := (d.half l).commit.any (·.late)
      ((d.commitHalves l).foldl switchHalf d).endCommit l (bnat late) none none .a

/-- The switches that a tooth pass has deferred are made at its end (R21). -/
def dmdDeferred (d : Dev) : Dev :=
  [Half.a, Half.b].foldl
    (fun d h => if (d.half h).commit.any fun c => c.lead && c.reached then d.dmdSwitched h else d) d

/-- ABORT (R187): only at the half that leads the commit; in the switch cycle it comes too late. -/
def abort (d : Dev) (h : Half) : Dev :=
  if d.leadOf h = some h ∧ (d.dmdDue h && !d.dmdPass h) = false then d.endCommit h 0x17 none none .a else d

/-- A staged write (R184): a locked group discards it. The two words of a slot past its six are reserved (R381). -/
def stage (d : Dev) (h : Half) (n w : Nat) (v : Word) : Dev :=
  if (d.lockedGroups h).getLsbD (n / 16) && decide (w < 6) then
    d.busErr.mark (Reg.DMD_FLAGS h) F.DMD_FLAGS_STG_LOCKED
  else d.rwWrite (Reg.DMD_ANGLE h n + 4 * w) v

/-- A loss of the cross-link ends a cross-half commit whose switch is not fixed in time (R186). -/
def xlkCommits (d : Dev) : Dev :=
  [Half.a, Half.b].foldl
    (fun d h => match (d.half h).commit with
      | some c => if c.lead && c.cross && c.fixedT.isNone then d.endCommit h 0x15 none none .a else d
      | none => d) d

end Dev

/-! ### The commands -/

/-- DMD_COMMIT (R183, R415). -/
def execDmdCommit (t : Tick) (_m : Master) (h : Half) (groups xgroups : Byte) (when : BitVec 2) (s : State) :
    Out :=
  s.onDev t fun d => d.onWrite (Reg.DMD_CMT h) fun d => d.commit h groups xgroups when.toNat

/-- DMD_ABORT (R187). -/
def execDmdAbort (t : Tick) (_m : Master) (h : Half) (s : State) : Out :=
  s.onDev t fun d => d.onWrite (Reg.DMD_CMT h) fun d => d.abort h

/-- STAGED_SLOT_WRITE (R180, R184). -/
def execStagedSlotWrite (t : Tick) (_m : Master) (h : Half) (n : Fin 128) (w : Fin 8) (v : Word)
    (s : State) : Out :=
  s.onDev t fun d => d.onWrite (Reg.DMD_ANGLE h n.val + 4 * w.val) fun d => d.stage h n.val w.val v

/-- DMD_CHECKS_END (R189 to R191). -/
def execDmdChecksEnd (t : Tick) (h : Half) (s : State) : Out := s.onDev t fun d => d.dmdChecked h

/-- CROSS_HALF_TIME_FIX (R186). -/
def execCrossHalfTimeFix (t : Tick) (h : Half) (s : State) : Out := s.onDev t fun d => d.fixTime h

/-- DMD_SWITCH (R182, R185, R186, R193). -/
def execDmdSwitch (t : Tick) (h : Half) (s : State) : Out := s.onDev t fun d => d.dmdSwitched h

end Sys2Proof.Machine
end

