-- ==== Sys2Proof/Machine/Irq.lean ====
section
/-! DEFINITION. The interrupt controller (R316 to R326). -/

namespace Sys2Proof.Machine

open Sys2Proof

namespace Dev

/-- The interrupt controller changed. -/
def onIrq (d : Dev) (g : Irq → Irq) : Dev := { d with irq := g d.irq }

/-- The bit of a source. -/
def srcBit (n : Nat) : BitVec 256 := BitVec.ofNat 256 (2 ^ n)

/-- A reserved source of a half, by its Half A number (R317). -/
def halfReserved (n : Nat) : Bool :=
  decide (0x25 ≤ n ∧ n ≤ 0x27) || decide (n = 0x37) || decide (n = 0x3E) || decide (n = 0x3F) ||
    decide (0x49 ≤ n ∧ n ≤ 0x4B) || decide (0x53 ≤ n)

/-- The sources that can become pending (R316, R317). -/
def validSrc (d : Dev) (n : Nat) : Bool :=
  if n < 0x60 then !halfReserved n
  else if n < 0xC0 then decide (d.grade = .tzn5120) && !halfReserved (n - 0x60)
  else decide (n ≠ 0xCF) && decide (n < 0x100)

/-- The target and the priority of a source (R318). -/
def srcTgt (d : Dev) (n : Nat) : Nat := d.f (Reg.IRQ_SRCCFG n) F.IRQ_SRCCFG_TGT
def srcPrio (d : Dev) (n : Nat) : Nat := d.f (Reg.IRQ_SRCCFG n) F.IRQ_SRCCFG_PRIO

/-- A candidate of a target (R318). -/
def candidate (d : Dev) (t n : Nat) : Bool :=
  d.irq.pend.getLsbD n && d.irq.en.getLsbD n && decide (d.srcTgt n = t)

/-- TGT_MASK and TGT_SLEEP of a target (R323, R324). -/
def tgtMask (d : Dev) (t : Nat) : Bool := d.bit (Reg.IRQ_TGTCTL t) F.IRQ_TGTCTL_MASK
def tgtSleep (d : Dev) (t : Nat) : Bool := d.bit (Reg.IRQ_TGTCTL t) F.IRQ_TGTCTL_SLEEP

/-- The sources that a test accepts, in winner order: higher priority first, then lower number (R318). -/
def winners (d : Dev) (p : Nat → Bool) : List Nat :=
  let l := (List.range 256).filter p
  ([3, 2, 1, 0] : List Nat).flatMap fun q => l.filter fun n => decide (d.srcPrio n = q)

/-- The priorities of the active sources of a pin target, as PRIO + 1; 0 where there is none (R321). -/
def running (d : Dev) (t : Nat) : Nat :=
  (d.irq.active.filter fun a => decide (a.1 = t)).foldl (fun m a => max m (a.2.2 + 1)) 0

/-- A source that is active at a target. -/
def isActive (d : Dev) (n : Nat) : Bool := d.irq.active.any fun a => decide (a.2.1 = n)

/-- An eligible candidate of a pin target (R321, R322). -/
def eligible (d : Dev) (t n : Nat) : Bool :=
  d.candidate t n && decide (d.running t < d.srcPrio n + 1) && !d.isActive n

/-- The winning eligible candidate of a pin target. -/
def winner (d : Dev) (t : Nat) : Option Nat := (d.winners (d.eligible t)).head?

/-- IRQt_N driven low (R321). -/
def irqLow (d : Dev) (t : Nat) : Bool := !d.tgtMask t && (d.winner t).isSome

/-- A candidate of a message target that has not been sent since it rose (R325) (corners DEDUCED, log 48). -/
def unsentCand (d : Dev) (t n : Nat) : Bool := d.candidate t n && !d.irq.sent.getLsbD n

/-- The queued messages of a target. -/
def qlvl (d : Dev) (t : Nat) : Nat := (d.irq.queue.filter fun q => decide (q.tgt = t)).length

/-- One message queued, if its target has room (R325). -/
def queueMsg (t : Nat) (d : Dev) (n : Nat) : Dev :=
  if d.qlvl t < 8 then
    let q := sparseGet 0 d.irq.seqs t
    d.onIrq fun i => { i with
      queue := i.queue ++ [⟨n, d.srcPrio n, t, q % 65536, d.now / 2⟩]
      sent := i.sent ||| srcBit n
      seqs := sparseSet 0 i.seqs t (q + 1) }
  else d

/-- The messages of a target that this SYS cycle queued and whose sources are still its candidates taken back, to be
queued again with those that follow in the cycle: one cycle queues in winner order (R325) (corners DEDUCED, log 48). -/
def unqueue (d : Dev) (t : Nat) : Dev :=
  let mine := d.irq.queue.filter fun q => decide (q.tgt = t ∧ q.cyc = d.now / 2)
  let stay := mine.filter fun q => !d.candidate t q.src
  let first := sparseGet 0 d.irq.seqs t - mine.length
  d.onIrq fun i => { i with
    queue := (i.queue.filter fun q => !decide (q.tgt = t ∧ q.cyc = d.now / 2)) ++
      stay.zipIdx.map fun p => { p.1 with seq := (first + p.2) % 65536 }
    sent := mine.foldl (fun w q => if d.candidate t q.src then w &&& ~~~(srcBit q.src) else w) i.sent
    seqs := sparseSet 0 i.seqs t (first + stay.length) }

/-- The messages that are due at one target (corners DEDUCED, log 48). -/
def queueTgt (d : Dev) (t : Nat) : Dev :=
  if d.tgtMask t then d
  else
    let d1 := d.unqueue t
    (d1.winners (d1.unsentCand t)).foldl (queueMsg t) d1

/-- A sleeping target wakes the host (R324). -/
def tgtWakes (d : Dev) (t : Nat) : Bool := d.tgtSleep t && (List.range 256).any (d.candidate t)

/-- What follows a change of the controller's state: messages are queued (R325), WAKE_OUT follows (R324). -/
def settleIrq (d : Dev) : Dev :=
  let d1 := ([2, 3, 4, 5] : List Nat).foldl queueTgt d
  { d1 with wakeOut := (List.range 6).any d1.tgtWakes }

/-- A source becomes pending (R316, R320). -/
def setPend (d : Dev) (n : Nat) : Dev :=
  if d.validSrc n then
    d.onIrq fun i => { i with
      pend := i.pend ||| srcBit n
      sent := if i.pend.getLsbD n then i.sent else i.sent &&& ~~~(srcBit n) }
  else d

/-- The sources raised by hardware in this SYS cycle. -/
def freshNow (d : Dev) : BitVec 256 :=
  match d.irq.fresh with
  | some (c, w) => if c = d.now / 2 then w else 0
  | none => 0

/-- A raising reaches the controller (R316): from the end of step 3 on. -/
def irqRaise (d : Dev) (n : Nat) : Dev :=
  if d.busRun then
    let d1 := d.setPend n
    (d1.onIrq fun i => { i with fresh := some (d.now / 2, d.freshNow ||| srcBit n) }).settleIrq
  else d

/-- Pending bits cleared; a source raised in this very cycle stays pending (R8, R320). -/
def clearPend (d : Dev) (w : BitVec 256) : Dev :=
  let k := d.freshNow
  d.onIrq fun i => { i with pend := i.pend &&& ~~~(w &&& ~~~k) }

/-- The word of sources 32k to 32k + 31, put in its place. -/
def srcWord (k : Nat) (v : Word) : BitVec 256 := BitVec.ofNat 256 (v.toNat * 2 ^ (32 * k))

/-- Word k of a source mask. -/
def maskWord (w : BitVec 256) (k : Nat) : Word := BitVec.ofNat 32 (w.toNat / 2 ^ (32 * k))

/-- A write of IRQ_PEND_SETk (R320). -/
def pendSet (d : Dev) (k : Nat) (v : Word) : Dev :=
  ((bitsOf v 32).foldl (fun d j => d.setPend (32 * k + j)) d).settleIrq

/-- A write of IRQ_PEND_CLRk (R320). -/
def pendClr (d : Dev) (k : Nat) (v : Word) : Dev := (d.clearPend (srcWord k v)).settleIrq

/-- A write of IRQ_EN_SETk; sources that cannot become pending are left out (R316). -/
def enSet (d : Dev) (k : Nat) (v : Word) : Dev :=
  ((bitsOf v 32).foldl
    (fun d j => if d.validSrc (32 * k + j) then d.onIrq fun i => { i with en := i.en ||| srcBit (32 * k + j) }
      else d) d).settleIrq

/-- A write of IRQ_EN_CLRk. -/
def enClr (d : Dev) (k : Nat) (v : Word) : Dev :=
  (d.onIrq fun i => { i with en := i.en &&& ~~~(srcWord k v) }).settleIrq

/-- A claim (R322): the word read, and the state after. -/
def claim (d : Dev) (t : Nat) : Word × Dev :=
  if d.tgtMask t then (0xFFFFFFFF, d)
  else
    match d.winner t with
    | none => (0xFFFFFFFF, d)
    | some n =>
      (BitVec.ofNat 32 n,
        ((d.clearPend (srcBit n)).onIrq fun i => { i with active := i.active ++ [(t, n, d.srcPrio n)] }).settleIrq)

/-- A completion (R322): only the active source of the highest priority. -/
def complete' (d : Dev) (t n : Nat) : Dev :=
  match d.irq.active.find? fun a => decide (a.1 = t ∧ a.2.2 + 1 = d.running t) with
  | some a =>
    if a.2.1 = n then (d.onIrq fun i => { i with active := i.active.erase a }).settleIrq
    else d.mark (Reg.IRQ_TGTSTAT t) F.IRQ_TGTSTAT_CMPL_ERR
  | none => d.mark (Reg.IRQ_TGTSTAT t) F.IRQ_TGTSTAT_CMPL_ERR

/-- The oldest queued message that a test accepts, taken off the queue; room may queue further ones. -/
def takeMsg (d : Dev) (p : IrqMsg → Bool) : Option (IrqMsg × Dev) :=
  (d.irq.queue.find? p).map fun q =>
    (q, (d.onIrq fun i => { i with queue := i.queue.erase q }).settleIrq)

/-- IRQ_TGTSTATt (corners DEDUCED, log 48). -/
def tgtStatView (d : Dev) (t : Nat) : Word :=
  let msg := decide (2 ≤ t)
  let q := d.qlvl t
  let sentN := sparseGet 0 d.irq.seqs t - q
  let act := d.irq.active.filter fun a => decide (a.1 = t)
  let actM := (maskOf 4 fun p => act.any fun a => decide (a.2.2 = p)).toNat
  let elig := if msg then (List.range 256).any (d.unsentCand t) else (d.winner t).isSome
  BitVec.ofNat 32 ((if msg ∧ sentN ≠ 0 then (sentN - 1) % 65536 else 0) * 65536 + q * 256 + actM * 16 +
    bnat (d.bit (Reg.IRQ_TGTSTAT t) F.IRQ_TGTSTAT_CMPL_ERR) * 8 + bnat (d.tgtWakes t) * 4 + bnat elig * 2 +
    bnat (!msg && d.irqLow t))

end Dev

/-! ### The commands -/

/-- IRQ_SOURCE_RAISE (R316). -/
def execIrqSourceRaise (t : Tick) (n : Byte) (s : State) : Out :=
  s.onDev t fun d => (d.onIrq fun i => { i with raised := i.raised.erase n.toNat }).irqRaise n.toNat

/-- IRQ_PEND_SET (R320). -/
def execIrqPendSet (t : Tick) (_m : Master) (k : Fin 8) (v : Word) (s : State) : Out :=
  s.onDev t fun d => d.onWrite (Reg.IRQ_PEND_SET k.val) fun d => d.pendSet k.val v

/-- IRQ_PEND_CLEAR (R320). -/
def execIrqPendClear (t : Tick) (_m : Master) (k : Fin 8) (v : Word) (s : State) : Out :=
  s.onDev t fun d => d.onWrite (Reg.IRQ_PEND_CLR k.val) fun d => d.pendClr k.val v

/-- IRQ_ENABLE_SET (R320). -/
def execIrqEnableSet (t : Tick) (_m : Master) (k : Fin 8) (v : Word) (s : State) : Out :=
  s.onDev t fun d => d.onWrite (Reg.IRQ_EN_SET k.val) fun d => d.enSet k.val v

/-- IRQ_ENABLE_CLEAR (R320). -/
def execIrqEnableClear (t : Tick) (_m : Master) (k : Fin 8) (v : Word) (s : State) : Out :=
  s.onDev t fun d => d.onWrite (Reg.IRQ_EN_CLR k.val) fun d => d.enClr k.val v

/-- IRQ_CLAIM (R322). -/
def execIrqClaim (t : Tick) (_m : Master) (g : Fin 2) (s : State) : Out :=
  s.onDev t fun d =>
    let r := d.claim g.val
    d.onRead (Reg.IRQ_CLAIM g.val) r.1 fun _ => r.2.okay r.1

/-- IRQ_COMPLETE (R322). -/
def execIrqComplete (t : Tick) (_m : Master) (g : Fin 2) (v : Word) (s : State) : Out :=
  s.onDev t fun d => d.onWrite (Reg.IRQ_COMPLETE g.val) fun d =>
    d.complete' g.val (getF v F.IRQ_COMPLETE_SRC)

end Sys2Proof.Machine
end

