-- ==== Sys2Proof/Machine/Sent.lean ====
section
/-! DEFINITION. The SENT receivers (R273 to R281). Lengths are in SYS cycles of two ticks. -/

namespace Sys2Proof.Machine

open Sys2Proof

/-- A frame's tick, with 16 fraction bits of a SYS cycle (R275) (corners DEDUCED, log 45). -/
def sentTick (cal : Nat) : Nat := cal * 65536 / 56

/-- The length of an interval in ticks. -/
def sentTicks (cal len : Nat) : Rat := ofN (len * 65536) / ofN (max 1 (sentTick cal))

/-- A nibble of 11.5 up to 27.5 ticks (R275). -/
def sentNibble (cal len : Nat) : Option Nat :=
  let n := sentTicks cal len
  if (23 : Rat) / 2 ≤ n ∧ n < (55 : Rat) / 2 then some ((roundUp n).toNat - 12) else none

/-- The number that bits spell, first bit highest. -/
def bitsNum (l : List Bool) : Nat := l.foldl (fun n b => 2 * n + bnat b) 0

/-- Bits `i` to `i + n - 1` of a list of bits, 0 where there is none. -/
def cut (l : List Bool) (i n : Nat) : List Bool := (List.range n).map fun j => l.getD (i + j) false

/-- Two bit lists taken in turn, the first list's bit first. -/
def weave (a b : List Bool) : List Bool := (a.zip b).flatMap fun p => [p.1, p.2]

/-- A complete serial message (R280): its register word, or none where its CRC is wrong. `b3` and `b2` are
the bits of its frames; the enhanced bit positions are those of SAE J2716 (PRESUMED, log 12). -/
def serialWord (enhanced legacy : Bool) (b3 b2 : List Bool) : Option Word :=
  if enhanced then
    let crc := bitsNum (cut b2 0 6)
    let good := decide (sentCrc6 (weave (cut b2 6 12) (cut b3 6 12)) = crc)
    let data := bitsNum (cut b2 6 12)
    let hi := bitsNum (cut b3 8 4)
    let lo := bitsNum (cut b3 13 4)
    if !good then none
    else if b3.getD 7 false then some (BitVec.ofNat 32 (0xC0000000 + hi * 0x10000 + lo * 0x1000 + data))
    else some (BitVec.ofNat 32 (0x80000000 + (hi * 16 + lo) * 0x10000 + data))
  else
    let nib := fun i => bitsNum (cut b2 (4 * i) 4)
    if sentCrc legacy [nib 0, nib 1, nib 2] = nib 3 then
      some (BitVec.ofNat 32 (0x40000000 + nib 0 * 0x10000 + nib 1 * 16 + nib 2))
    else none

/-- What one frame makes of the serial bits collected (R280): the bits kept, whether a message in progress
was abandoned, the complete message's bits. An enhanced message is in progress once its start of six ones
and a zero is complete (corners DEDUCED, log 45). -/
def serialStep (enhanced : Bool) (l : List (Bool × Bool)) (b : Bool × Bool) :
    List (Bool × Bool) × Bool × Option (List (Bool × Bool)) :=
  let n := l.length
  let start : List (Bool × Bool) := if b.1 then [b] else []
  if enhanced then
    if n < 6 then (if b.1 then (l ++ [b], false, none) else ([], false, none))
    else if n = 6 then (if b.1 then (l.drop 1 ++ [b], false, none) else (l ++ [b], false, none))
    else if (n = 12 ∨ n = 17) ∧ b.1 = true then (start, true, none)
    else if n = 17 then ([], false, some (l ++ [b]))
    else (l ++ [b], false, none)
  else if n = 0 then (start, false, none)
  else if b.1 then (start, true, none)
  else if n = 15 then ([], false, some (l ++ [b]))
  else (l ++ [b], false, none)

/-- Whether a serial message is in progress. -/
def serialBusy (enhanced : Bool) (l : List (Bool × Bool)) : Bool :=
  if enhanced then decide (6 < l.length) else !l.isEmpty

namespace Dev

/-- A receiver's hidden entry. -/
def snt (d : Dev) (r : Nat) : Sent := sparseGet Init.sent d.sent r

/-- A receiver's hidden entry replaced. -/
def setSnt (d : Dev) (r : Nat) (x : Sent) : Dev := { d with sent := sparseSet Init.sent d.sent r x }

/-- A field of a receiver's configuration. -/
def sntF (d : Dev) (r : Nat) (x : Fld) : Nat := d.f (Reg.SNT_CFG r) x

/-- Whether a receiver runs (R281). -/
def sntRuns (d : Dev) (r : Nat) : Bool :=
  decide (d.mode = .operate ∨ d.mode = .halt ∨ d.mode = .service) && d.bit (Reg.SNT_CFG r) F.SNT_CFG_EN

/-- The receiver hunts: SYNC clear (R278). -/
def sntHunts (d : Dev) (r : Nat) : Bool := !d.bit (Reg.SNT_STAT r) F.SNT_STAT_SYNC

/-- Enhanced serial messages selected. -/
def sntEnh (d : Dev) (r : Nat) : Bool := decide (d.sntF r F.SNT_CFG_SERIAL = 2)

/-- A frame is discarded for a failing check (R278, R280): its flag and the count only where the receiver
was in sync; the receiver hunts (corners DEDUCED, log 45). -/
def sntFail (d : Dev) (r : Nat) (x : Fld) : Dev :=
  let st := Reg.SNT_STAT r
  let e := d.snt r
  let d1 := if d.sntHunts r then d else (d.flag st x (0xE8 + r)).incF (Reg.SNT_CNT r) F.SNT_CNT_ERRORS
  let d2 := if serialBusy (d.sntEnh r) e.serial then d1.mark st F.SNT_STAT_SER_ABT else d1
  (d2.setB st F.SNT_STAT_SYNC false).setSnt r { e with
    pos := none, nibbles := [], prevCal := none, serial := [] }

/-- A serial message written (R280). -/
def serWrite (d : Dev) (r : Nat) (w : Word) (time : Nat) : Dev :=
  let st := Reg.SNT_STAT r
  let old := d.rd (Reg.SNT_SER r)
  let d1 := (d.wr (Reg.SNT_SER r) w).wr (Reg.SNT_SERTIME r) (lo32 time)
  let d2 := if d1.bit st F.SNT_STAT_SER_NEW then d1.mark st F.SNT_STAT_SER_OVR
    else d1.setB st F.SNT_STAT_SER_NEW true
  let d3 := if d2.bit (Reg.SNT_CFG r) F.SNT_CFG_IE then d2.raise (0xE8 + r) else d2
  d3.setSnt r { d3.snt r with oldSer := old, serT := some d.now }

/-- The serial bits of a good frame (R280) (PRESUMED, log 12). -/
def serialTake (d : Dev) (r status time : Nat) : Dev :=
  let sel := d.sntF r F.SNT_CFG_SERIAL
  if sel = 1 ∨ sel = 2 then
    let enh := d.sntEnh r
    let e := d.snt r
    let q := serialStep enh e.serial (decide (status / 8 % 2 = 1), decide (status / 4 % 2 = 1))
    let d1 := d.setSnt r { e with serial := q.1 }
    let d2 := if q.2.1 then d1.mark (Reg.SNT_STAT r) F.SNT_STAT_SER_ABT else d1
    match q.2.2 with
    | none => d2
    | some l =>
      match serialWord enh (d.bit (Reg.SNT_CFG r) F.SNT_CFG_CRCMODE) (l.map (·.1)) (l.map (·.2)) with
      | some w => d2.serWrite r w time
      | none => d2.mark (Reg.SNT_STAT r) F.SNT_STAT_SER_CRC
  else d

/-- A good frame written (R277). -/
def frameWrite (d : Dev) (r : Nat) : Dev :=
  let st := Reg.SNT_STAT r
  let e := d.snt r
  let word := (e.nibbles.take 7).foldl (fun n x => 16 * n + x) 0
  let old := d.rd (Reg.SNT_DATA r)
  let d1 := ((d.wr (Reg.SNT_DATA r) (BitVec.ofNat 32 word)).wr (Reg.SNT_CAL r)
    (BitVec.ofNat 32 e.cal)).wr (Reg.SNT_TIME r) (lo32 e.calStart)
  let d2 := if d1.bit st F.SNT_STAT_NEW then d1.mark st F.SNT_STAT_OVR
    else d1.setB st F.SNT_STAT_NEW true
  let d3 := (d2.setB st F.SNT_STAT_SYNC true).incF (Reg.SNT_CNT r) F.SNT_CNT_FRAMES
  let d4 := if d3.bit (Reg.SNT_CFG r) F.SNT_CFG_IE then d3.raise (0xE8 + r) else d3
  let d5 := if d4.bit (Reg.SNT_CFG r) F.SNT_CFG_MREQ then d4.send (.mule (12 + r) 0) else d4
  (d5.setSnt r { e with
    pos := none, nibbles := [], prevCal := some e.cal, oldData := old, dataT := some d.now }).serialTake r
      (e.nibbles.getD 0 0) e.calStart

/-- The frame's last interval ended (R275, R276): its length against FLEN and against the calibration
pulse. `pause` is the pause in ticks, 0 without one; `total` the frame's length (corners DEDUCED, log 45). -/
def frameEnd (d : Dev) (r total : Nat) (pause : Rat) : Dev :=
  let e := d.snt r
  let ticks := 56 + (e.nibbles.foldl (fun n x => n + x + 12) 0 : Nat) + (roundUp pause).toNat
  let tk := sentTick e.cal
  let whole := (roundUp (sentTicks e.cal total)).toNat
  if decide (d.sntF r F.SNT_CFG_PAUSE = 2) && decide (whole ≠ d.f (Reg.SNT_FLEN r) F.SNT_FLEN_FLEN) then
    d.sntFail r F.SNT_STAT_PAUSE_ERR
  else if decide (d.sntF r F.SNT_CFG_CALCHK = 2) &&
      decide (ticks * tk < 64 * (max (total * 65536) (ticks * tk) - min (total * 65536) (ticks * tk))) then
    d.sntFail r F.SNT_STAT_CAL_ERR
  else d.frameWrite r

/-- A calibration pulse (R275): from 42 to 70 times NOMTICK, of 20 SYS cycles (corners DEDUCED, log 45). -/
def calIn (d : Dev) (r len : Nat) : Bool :=
  let n := 20 * d.sntF r F.SNT_CFG_NOMTICK
  decide (42 * n ≤ len) && decide (len ≤ 70 * n)

/-- An interval where a calibration pulse is due (R275). Out of range, a receiver that hunts goes on; one in
sync discards the frame (corners DEDUCED, log 45). -/
def calInterval (d : Dev) (r t0 len : Nat) : Dev :=
  let e := d.snt r
  if !d.calIn r len then (if d.sntHunts r then d else d.sntFail r F.SNT_STAT_CAL_ERR)
  else
    let bad := decide (d.sntF r F.SNT_CFG_CALCHK = 1) &&
      match e.prevCal with
      | some p => decide (p < 64 * (max len p - min len p))
      | none => false
    if bad then d.sntFail r F.SNT_STAT_CAL_ERR
    else d.setSnt r { e with pos := some 0, calStart := t0, cal := len, nibbles := [] }

/-- One of the eight nibbles (R275, R277). -/
def nibInterval (d : Dev) (r n len cycles : Nat) : Dev :=
  let e := d.snt r
  match sentNibble e.cal len with
  | none => d.sntFail r F.SNT_STAT_NIB_ERR
  | some v =>
    let l := e.nibbles ++ [v]
    let d1 := d.setSnt r { e with pos := some (n + 1), nibbles := l }
    if n < 7 then d1
    else if sentCrc (d.bit (Reg.SNT_CFG r) F.SNT_CFG_CRCMODE) ((l.drop 1).take 6) ≠ v then
      d1.sntFail r F.SNT_STAT_CRC_ERR
    else if d.sntF r F.SNT_CFG_PAUSE = 0 then d1.frameEnd r (cycles - e.calStart / 2) 0
    else d1

/-- The pause pulse (R276). -/
def pauseInterval (d : Dev) (r len cycles : Nat) : Dev :=
  let e := d.snt r
  let n := sentTicks e.cal len
  if n < 12 ∨ 768 < n then d.sntFail r F.SNT_STAT_PAUSE_ERR
  else d.frameEnd r (cycles - e.calStart / 2) n

/-- A falling edge at a tick (R274), which is passed on if the input holds its new level for FILT SYS cycles, `holds`, or
with FILT 0: it ends the running interval. -/
def sntEdge (d : Dev) (r t : Nat) (holds : Bool) : Dev :=
  if d.sntRuns r && (holds || decide (d.sntF r F.SNT_CFG_FILT = 0)) then
    let e := d.snt r
    let d1 := d.setSnt r { e with lastEdge := some t }
    match e.lastEdge with
    | none => d1
    | some t0 =>
      let len := t / 2 - t0 / 2
      match e.pos with
      | none => d1.calInterval r t0 len
      | some n => if n < 8 then d1.nibInterval r n len (t / 2) else d1.pauseInterval r len (t / 2)
  else d

/-- An interval grows past the largest length allowed at its position (R278); what follows it begins at the
next edge. -/
def sntTimeout (d : Dev) (r : Nat) : Dev :=
  let e := d.snt r
  match e.lastEdge with
  | none => d
  | some t0 =>
    let len := d.now / 2 - t0 / 2
    let fault : Option Fld := match e.pos with
      | none =>
        if !d.sntHunts r && decide (70 * 20 * d.sntF r F.SNT_CFG_NOMTICK < len) then
          some F.SNT_STAT_CAL_ERR else none
      | some n =>
        if n < 8 then
          if (55 : Rat) / 2 ≤ sentTicks e.cal len then some F.SNT_STAT_NIB_ERR else none
        else if (768 : Rat) < sentTicks e.cal len then some F.SNT_STAT_PAUSE_ERR else none
    match fault with
    | some x => if d.sntRuns r then
        let d1 := d.sntFail r x
        d1.setSnt r { d1.snt r with lastEdge := none }
      else d
    | none => d

/-- A read of SNT_DATA (R279): the word, and the state after. A frame written in this very SYS cycle is not
yet seen. -/
def sntRead (d : Dev) (r : Nat) : Word × Dev :=
  let e := d.snt r
  if e.dataT.map (· / 2) = some (d.now / 2) then (e.oldData, d)
  else (d.rd (Reg.SNT_DATA r), d.setB (Reg.SNT_STAT r) F.SNT_STAT_NEW false)

/-- A read of SNT_SER (R279). -/
def serRead (d : Dev) (r : Nat) : Word × Dev :=
  let e := d.snt r
  if e.serT.map (· / 2) = some (d.now / 2) then (e.oldSer, d)
  else (d.rd (Reg.SNT_SER r), d.setB (Reg.SNT_STAT r) F.SNT_STAT_SER_NEW false)

/-- A changed configuration of a receiver takes effect (R281). -/
def sntChanged (d : Dev) (r : Nat) : Dev :=
  (d.setB (Reg.SNT_STAT r) F.SNT_STAT_SYNC false).setSnt r { d.snt r with
    lastEdge := none, pos := none, nibbles := [], prevCal := none, serial := [] }

end Dev

/-! ### The commands -/

/-- SENT_EDGE (R274 to R280). -/
def execSentEdge (t : Tick) (e : SentFall) (s : State) : Out :=
  s.onDev t fun d => d.sntEdge e.line.val t.toNat e.holds

/-- SENT_INTERVAL_TIMEOUT (R278). -/
def execSentIntervalTimeout (t : Tick) (r : Fin 6) (s : State) : Out :=
  s.onDev t fun d => d.sntTimeout r.val

/-- SENT_DATA_READ (R279). -/
def execSentDataRead (t : Tick) (_m : Master) (r : Fin 6) (s : State) : Out :=
  s.onDev t fun d =>
    let q := d.sntRead r.val
    d.onRead (Reg.SNT_DATA r.val) q.1 fun _ => q.2.okay q.1

/-- SENT_SERIAL_READ (R279). -/
def execSentSerialRead (t : Tick) (_m : Master) (r : Fin 6) (s : State) : Out :=
  s.onDev t fun d =>
    let q := d.serRead r.val
    d.onRead (Reg.SNT_SER r.val) q.1 fun _ => q.2.okay q.1

end Sys2Proof.Machine
end

