-- ==== Sys2Proof/Machine/Timer.lean ====
section
/-! DEFINITION. The time base port and the one-shot timers (R235 to R241). -/

namespace Sys2Proof.Machine

open Sys2Proof

namespace Dev

/-- The code of an arm source (R237). -/
def armCode : ArmSource → Nat
  | .event => 1
  | .compare => 2
  | .timer => 3

/-- An armed timer fires (R238); its trigger starts (R239) (corners DEDUCED, log 40). -/
def timerFires (d : Dev) (n : Nat) (x : TmrArm) : Dev :=
  let a := Reg.TMR_STAT n
  let d1 := ((d.setB a F.TMR_STAT_ARMED false).mark a F.TMR_STAT_FIRED).incF a F.TMR_STAT_FIRES
  let d2 := if x.late then d1.mark a F.TMR_STAT_LATE else d1
  let d3 := { d2 with fireT := sparseErase d2.fireT n, firedT := sparseInsert d2.firedT n ⟨d.now, x, d.rd a⟩ }
  let d4 := match d3.timerTrigger n x.fire with | some m => d3.send m | none => d3
  if d4.bit (Reg.TMR_CTRL n) F.TMR_CTRL_IE then d4.raise (0xC4 + n / 8) else d4

/-- A timer whose fire tick is reached fires (R238) (corners DEDUCED, log 40). -/
def timerDue (d : Dev) (n : Nat) : Dev :=
  match sparseFind d.fireT n with
  | some x => if x.due ≤ d.now then d.timerFires n x else d
  | none => d

/-- The arm that a timer took in the present cycle, fired since or not. -/
def armedNow (d : Dev) (n : Nat) : Option TmrArm :=
  ((sparseFind d.fireT n).filter fun x => decide (x.armed = d.now)).or
    (((d.firedNow n).map (·.arm)).filter fun x => decide (x.armed = d.now))

/-- An arm takes effect (R237, R238, R241): a timer due in this cycle fires first; of two arm sources in one cycle the
later one of the table of R237 decides. A fire tick already reached fires in this cycle with LATE, one cycle later where
another timer armed it or the timer has fired in this cycle (corners DEDUCED, log 40). -/
def timerArm (d : Dev) (n src tick : Nat) : Dev :=
  let before := d.armedNow n
  if before.any fun x => decide (src < x.src) then d
  else
    let d0 := if before.isSome then d.unfire n else d.timerDue n
    let lo := (d0.rd (Reg.TMR_CMP_LO n)).toNat
    let fire := if d0.bit (Reg.TMR_CTRL n) F.TMR_CTRL_MODE then tick + lo
      else lo + (d0.rd (Reg.TMR_CMP_HI n)).toNat * 2 ^ 32
    let a := Reg.TMR_STAT n
    let late := decide (fire ≤ d0.now)
    let due := if late && (decide (src = 3) || (d0.firedNow n).isSome) then d0.now + 1 else fire
    let d1 := ((d0.wr (Reg.TMR_FIRE n) (lo32 fire)).setF a F.TMR_STAT_SRC src).setB a F.TMR_STAT_ARMED true
    { d1 with fireT := sparseInsert d1.fireT n ⟨due, late, fire, src, d0.now⟩ }.timerDue n

/-- A timer disarmed by a write (R241): one due in this cycle fires first. -/
def timerOff (d : Dev) (n : Nat) : Dev :=
  let d0 := d.timerDue n
  { d0.setB (Reg.TMR_STAT n) F.TMR_STAT_ARMED false with fireT := sparseErase d0.fireT n }

/-- TMR_ARMk: the ARMED state of its timers. -/
def armView (d : Dev) (k : Nat) : Word :=
  maskOf 32 fun j => d.bit (Reg.TMR_STAT (32 * k + j)) F.TMR_STAT_ARMED

/-- TMR_GFLAG. -/
def gflagView (d : Dev) : Word :=
  maskOf 8 fun g => (List.range 8).any fun j =>
    d.bit (Reg.TMR_CTRL (8 * g + j)) F.TMR_CTRL_IE && d.bit (Reg.TMR_STAT (8 * g + j)) F.TMR_STAT_FIRED

/-- A read of TMB_LO by a port (R236): the low half, the high half latched for that port. -/
def tmbRead (d : Dev) (m : Master) : Dev :=
  { d with tmbLatch := sparseSet 0 d.tmbLatch (portNo m) (hi32 d.now) }

end Dev

/-! ### The commands -/

/-- TIME_BASE_READ (R236). -/
def execTimeBaseRead (t : Tick) (m : Master) (s : State) : Out :=
  s.onDev t fun d => d.onRead Reg.TMB_LO (Dev.lo32 d.now) fun d => d.tmbRead m

/-- TIMER_ARM_WRITE (R237). -/
def execTimerArmWrite (t : Tick) (_m : Master) (k : Fin 2) (v : Word) (s : State) : Out :=
  s.onDev t fun d => d.onWrite (Reg.TMR_ARM k.val) fun d =>
    (bitsOf v 32).foldl (fun d j => d.timerArm (32 * k.val + j) 0 d.now) d

/-- TIMER_ARM_REQUEST (R237): the arm tick is the source's own. -/
def execTimerArmRequest (t : Tick) (n : Fin 64) (src : ArmSource) (tick : Tick) (s : State) : Out :=
  s.onDev t fun d =>
    (d.unsend (.timer n.val src tick.toNat)).timerArm n.val (Dev.armCode src) tick.toNat

/-- TIMER_DISARM (R237, R241). -/
def execTimerDisarm (t : Tick) (_m : Master) (k : Fin 2) (v : Word) (s : State) : Out :=
  s.onDev t fun d => d.onWrite (Reg.TMR_DISARM k.val) fun d =>
    (bitsOf v 32).foldl (fun d j => d.timerOff (32 * k.val + j)) d

/-- TIMER_FIRE (R238). -/
def execTimerFire (t : Tick) (n : Fin 64) (s : State) : Out := s.onDev t fun d => d.timerDue n.val

end Sys2Proof.Machine
end

