-- ==== Sys2Proof/Machine/Wheel.lean ====
section
/-! DEFINITION. The wheel and sync unit: hand-over of crank and cam edges, crank sync, cam phase, windows,
source loss, LIMP, rundown and park, resync (R28, R29, R86 to R92, R105 to R123, R154, R155). -/

namespace Sys2Proof.Machine

open Sys2Proof

namespace Dev

/-! ### The acceptance window -/

/-- The window factors of the entry after cycle edge k, kept for the pending edge (R105, R123). -/
def windowOf (d : Dev) (h : Half) (k : Nat) (x : Track) : Track :=
  let c := d.wClass h (k + 1)
  { x with lo := d.winLo h c, hi := d.winHi h c }

/-- The expected interval e = t_exp − t_prev (R106). -/
def expInterval (x : Track) : Rat := ofN x.tExp / 65536 - ofN x.tPrev

/-- Where an edge falls in the window (R107): below LO, inside, above HI. -/
inductive Fit where
  | below
  | inside
  | above
  deriving DecidableEq, Repr

/-- The window test of R107 on the timestamps and factors. -/
def fit (x : Track) (lo hi : Rat) (t : Nat) : Fit :=
  let e := expInterval x
  let dt := ofN t - ofN x.tPrev
  if dt < lo * e then .below else if hi * e < dt then .above else .inside

/-- The index of WHL_POS. -/
def setIndex (d : Dev) (h : Half) (k : Nat) : Dev :=
  (d.onHalf h fun s => { s with wheel := { s.wheel with k := k } }).setF (Reg.WHL_POS h)
    F.WHL_POS_INDEX k

/-- CLASS of WHL_STAT. -/
def setClass (d : Dev) (h : Half) (c : Nat) : Dev := d.setF (Reg.WHL_STAT h) F.WHL_STAT_CLASS c

/-- The cycle edge index after the present one. -/
def nextIndex (d : Dev) (h : Half) : Nat := ((d.half h).wheel.k + 1) % max 1 (d.edges h)

/-- A sync loss found on the primary path (R118, R365). -/
def lose (y : DevMem) (h : Half) (reason cam t : Nat) : DevMem :=
  let idx := y.1.nextIndex h
  loseSync (y.dev fun d => d.primaryLoses h) h reason idx cam t

/-- An edge below LO on a non-gap interval (R107, R108): counted; a count above MAXREJ is NOISE (corners DEDUCED, log 29). -/
def rejectEdge (y : DevMem) (h : Half) (t : Nat) : DevMem :=
  let d := y.1
  let n := d.f (Reg.WHL_CNT h) F.WHL_CNT_REJREV + 1
  let d1 := (((d.setF (Reg.WHL_CNT h) F.WHL_CNT_REJREV (min n 15)).satF (Reg.WHL_CNT h)
    F.WHL_CNT_REJTOT).flagH h (Reg.WHL_STAT h) F.WHL_STAT_REJ 0x36).onHalf h fun s => { s with
      wheel := { s.wheel with rejected := true }
      learn := { s.learn with segBad := true } }
  if d1.f (Reg.WHL_SYNCCFG h) F.WHL_SYNCCFG_MAXREJ < n then lose (d1, y.2) h 4 0 t else (d1, y.2)

/-! ### An accepted edge -/

/-- The observer and φ at an accepted crank edge (R126 to R129, R132, R137): its unwrapped corrected angle lies where
the edge was expected. The band chosen governs the next update (corners DEDUCED, log 30). -/
def trackEdge (d : Dev) (m : List Host.Cell) (h : Half) (k t : Nat) (early : Bool) : Dev :=
  let old := (d.interp h).track h
  let x0 := observe old (nearest (d.cycLen h) (d.edgeAng m h k) (old.ak + old.dk)) t true true
  let x1 := { x0 with ripple := x0.next.getD x0.ripple, next := none }
  let x2 := d.windowOf h k { x1 with band := d.selectBand h x1.band x1.omega, dk := d.dEdge m h k }
  let x3 := d.loadGuard h (d.loadGains h x2)
  ((d.expectNext h (d.dTab h k) x3).restart h old early).publish h

/-- An accepted crank edge in PHASE, RUN or crank-based LIMP (R107, R126, R141, R150, R153): `p` is its
period, `late` its treatment as LATE, `early` as EARLY. -/
def acceptCrank (y : DevMem) (h : Half) (t : Nat) (p : Option Nat) (late early : Bool) : DevMem :=
  let d := y.1
  let x := (d.interp h).track h
  let k := d.nextIndex h
  let i := k % max 1 (d.nent h)
  let ref := decide (d.refEnt h = some i)
  let phase := decide (d.hmode h = .phase)
  let mark := ref && (phase || decide (k < d.nent h))
  let d1 := if i = 0 then d.setF (Reg.WHL_CNT h) F.WHL_CNT_REJREV 0 else d
  let d2 := (d1.trackEdge y.2 h k t early).setIndex h k
  let d3 := (d2.overrange h (t - x.tPrev)).onHalf h fun s =>
    { s with
      wheel := { s.wheel with camSince := 0 }
      track := { s.track with passing := d.issuing h } }
  let y1 := learnEdge (d3, y.2) h x k t late
  let y2 := match p with
    | some p => logPeriod y1 h (bnat mark) p
    | none => y1
  let y3 := y2.dev fun d =>
    let d1 := if mark && !phase then d.cycleMark h else d
    if phase then d1 else d1.segEdge y2.2 h k t
  let y4 := y3.dev fun d => d.primaryAccepts h
  if y4.1.tracking h && y4.1.slow h then enterRundown y4 h else y4

/-! ### Crank edges in PHASE, RUN and crank-based LIMP -/

/-- The classification of R107 and what follows from it (corners DEDUCED, log 30). -/
def classify (y : DevMem) (h : Half) (t : Nat) (p : Option Nat) : DevMem :=
  let d := y.1.interp h
  let x := d.track h
  let gap := d.wGap h (d.half h).wheel.k
  match fit x x.lo x.hi t with
  | .below => if gap then lose y h 2 0 t else rejectEdge (y.dev fun d => d.setClass h 4) h t
  | .above => if gap then lose y h 3 0 t else lose y h 1 0 t
  | .inside =>
    let late := decide (x.clamp ≤ x.phi)
    let early := !late && decide ((x.phi : Rat) / pow2Q 24 < x.ak + x.dk)
    let cls := if gap then 1 else if late then 3 else if early then 2 else 0
    acceptCrank (y.dev fun d => d.setClass h cls) h t p late (early && !gap)

/-! ### SEEK -/

/-- NCAND, CONFIRMING and CONF follow the candidates (R112); an n above 511 shows its low nine bits (DESIGN CHOICE, log
75). -/
def candStat (d : Dev) (h : Half) : Dev :=
  let cs := (d.half h).wheel.cands
  ((d.setF (Reg.WHL_STAT h) F.WHL_STAT_NCAND (min cs.length 15)).setB (Reg.WHL_STAT h)
    F.WHL_STAT_CONFIRMING (!cs.isEmpty)).setF (Reg.WHL_POS h) F.WHL_POS_CONF
      (cs.foldl (fun n c => max n c.n) 0)

/-- CONF of R111 (corners DEDUCED, log 29). -/
def confirmN (d : Dev) (h : Half) : Nat :=
  let c := d.f (Reg.WHL_SYNCCFG h) F.WHL_SYNCCFG_CONFIRM
  if c = 0 then d.nent h else c

/-- The window test of an edge in SEEK against an expected entry (R110). -/
def seekFits (d : Dev) (h : Half) (i : Nat) (ratio : Rat) (p1 p : Nat) : Bool :=
  let e := ratio * ofN p1
  let c := d.wClass h i
  decide (d.winLo h c * e ≤ ofN p) && decide (ofN p ≤ d.winHi h c * e)

/-- A candidate after an edge (R110): removed, or moved to its next entry; the period of its own gap is
kept when it passes that gap once more (corners DEDUCED, log 29). -/
def stepCand (d : Dev) (h : Half) (p1 p : Nat) (c : Cand) : Option Cand :=
  let n := max 1 (d.nent h)
  let a := (c.next + n - 1) % n
  let ratio := ofN (d.dTab h a) / ofN (max 1 (d.dTab h (d.predEnt h a)))
  if d.seekFits h c.next ratio p1 p then
    some ⟨(c.next + 1) % n, c.n + 1, if (c.n + 1) % n = 0 then p else c.gapP⟩
  else none

/-- The candidates that an edge adds: the entries whose gap it may close (R110) (corners DEDUCED, log 29). -/
def newCands (d : Dev) (h : Half) (p1 p : Nat) (have' : List Cand) : List Cand :=
  let n := max 1 (d.nent h)
  (List.range (d.nent h)).foldl
    (fun acc g =>
      let ratio := ofN (d.dTab h g) / ofN (max 1 (d.dTab h (d.predEnt h g)))
      let i := (g + 2) % n
      if d.wGap h g && d.seekFits h ((g + 1) % n) ratio p1 p &&
          !(have' ++ acc).any (fun c => decide (c.next = i)) then
        acc ++ [⟨i, 0, p⟩]
      else acc) []

/-- The observer at crank sync (R129): the syncing edge at cycle edge k, the speed from gap g and its
period (corners DEDUCED, log 29). -/
def startTrack (d : Dev) (m : List Host.Cell) (h : Half) (k g gapP t : Nat) : Dev :=
  let ak := d.edgeAng m h k
  let om := satSpeed (obs (ofN (d.dTab h g) / ofN (max 1 gapP)))
  let x0 : Track := { Init.track with
    theta := ak, omega := om, tPrev := t, ak := ak, ripple := (d.track h).ripple,
    atT := d.now, base := d.now, fill := ak }
  let x1 := d.windowOf h k { x0 with band := d.selectBand h 0 om, dk := d.dEdge m h k }
  let m0 := roundAway ((ak + om * (ofN d.now - ofN t)) * pow2Q 24)
  let x2 := d.loadGuard h (d.loadGains h { x1 with m := m0, phi := m0 })
  ((d.expectNext h (d.dTab h k) x2).trackStat h).publish h

/-- Crank sync with the edge at cycle edge k (R111, R129): PHASE, or RUN where the cycle phase is known.
`mem`: by valid phase memory (R120). Where the index compare of this edge brings the half to SAFE, that is the one
transition it takes (R29) (corners DEDUCED, log 28). -/
def crankSync (y : DevMem) (h : Half) (k g gapP t : Nat) (mem : Bool) : DevMem :=
  let d := (y.1.startTrack y.2 h k g gapP t).setIndex h k
  let d0 := (d.onHalf h fun s => { s with
    wheel := { s.wheel with
      cands := [], v0 := 0, v1 := 0, camSince := 0, camSeen := [], crkGood := 0, rejected := false
      pmFirst := false } }).primaryAccepts h
  if d0.hmode h = .seek then
    (logMark (d0.raiseH h 0x30, y.2) h 0x02 k).dev fun d =>
      let d1 := if mem || !d.cyc720 h then d.enterRun h else ((d.enterMode h .phase).segStop h).ascHeld h
      d1.overrange h 1600
  else (d0, y.2)

/-- A measured forward edge in SEEK (R110, R111, R120). -/
def seekEdge (y : DevMem) (h : Half) (t p1 p : Nat) : DevMem :=
  let d := y.1
  let w := (d.half h).wheel
  let n := max 1 (d.nent h)
  let kept := w.cands.filterMap (d.stepCand h p1 p)
  let new := d.newCands h p1 p kept
  let all := kept ++ new
  let conf := if kept.isEmpty then d.confirmN h else w.conf
  let d1 := ((d.onHalf h fun s => { s with wheel := { s.wheel with cands := all, conf := conf } }).setClass
    h (if new.isEmpty then 0 else 1)).candStat h
  let pm := Reg.SYS_PMSTAT h
  if w.pmFirst && d.bit pm F.SYS_PMSTAT_VALID && !new.isEmpty then
    let kexp := (((d.f pm F.SYS_PMSTAT_TOOTH : Int) + w.net) % (max 1 (d.edges h) : Nat)).toNat
    let d2 := d1.onHalf h fun s => { s with wheel := { s.wheel with pmFirst := false } }
    if new.any fun c => decide ((c.next + n - 1) % n = kexp % n) then
      crankSync (d2.setB pm F.SYS_PMSTAT_USED true, y.2) h kexp (d.predEnt h kexp) p t true
    else (d2.setB pm F.SYS_PMSTAT_DISCARDED true, y.2)
  else
    match all with
    | [c] =>
      if conf ≤ c.n then
        let gc := (c.next + n - 1 + n - c.n % n) % n
        crankSync (d1, y.2) h ((gc + c.n % n) % max 1 (d.edges h)) (d.predEnt h gc) c.gapP t false
      else (d1, y.2)
    | _ => (d1, y.2)

/-! ### RUNDOWN -/

/-- A handed-over crank edge in RUNDOWN (R154): the index moves by one, φ takes the corrected angle, the
speed is that of the last interval. -/
def rundownEdge (y : DevMem) (h : Half) (t : Nat) (rev : Bool) (p : Option Nat) : DevMem :=
  let d := y.1
  let l := max 1 (d.edges h)
  let k0 := (d.half h).wheel.k
  let k := if rev then (k0 + l - 1) % l else (k0 + 1) % l
  let a := d.edgeAng y.2 h k
  let di := if rev then d.dEdge y.2 h k else d.dEdge y.2 h k0
  let f24 := roundAway (a * pow2Q 24)
  let x := d.track h
  let om := match p with | some p => satSpeed (obs (di / ofN (max 1 p))) | none => x.omega
  let d1 := (d.setIndex h k).setTrack h { x with
    theta := a, ak := a, phi := f24, m := f24, omega := om, alpha := 0, tPrev := t }
  let sp := (roundAway (om * pow2Q 24)).toNat
  let rpm := (roundAway (16 * ofN sp * 100000000 / (3 * pow2Q 37))).toNat
  let d2 := ((d1.wr (Reg.ANG_SPEED h) (BitVec.ofNat 32 sp)).wr (Reg.ANG_RPM h)
    (BitVec.ofNat 32 (min rpm 0xFFFFF))).wr (Reg.ANG_ACCEL h) 0
  match p with
  | some p => logPeriod (d2, y.2) h (if rev then 2 else 0) p
  | none => (d2, y.2)

/-! ### Crank edges in cam-based LIMP -/

/-- A crank edge in cam-based LIMP (R117): logged; CAMLOSS consecutive ones within class 0 of the interval
that the cam angle gives report the crank's return (corners DEDUCED, log 29). -/
def limpCrank (y : DevMem) (h : Half) (p : Option Nat) : DevMem :=
  match p with
  | none => y
  | some p =>
    let y1 := logPeriod y h 0 p
    y1.dev fun d =>
      let x := (d.interp h).track h
      let a := wrapA rev ((x.phi : Rat) / pow2Q 24)
      let near := (List.range (d.nent h)).foldl
        (fun (b : Nat × Nat) i =>
          let w := d.wAng h i
          let q := (a + rev - w % rev) % rev
          let q := min q (rev - q)
          if q < b.2 then (i, q) else b) (0, rev)
      let e := if x.omega ≤ 0 then 0 else ofN (d.dTab h (d.predEnt h near.1)) / x.omega
      let good := decide (d.winLo h 0 * e ≤ ofN p) && decide (ofN p ≤ d.winHi h 0 * e)
      let n := if good then (d.half h).wheel.crkGood + 1 else 0
      let d1 := d.onHalf h fun s => { s with wheel := { s.wheel with crkGood := n } }
      if d1.f (Reg.WHL_CAMCFG h) F.WHL_CAMCFG_CAMLOSS ≤ n then
        d1.setB (Reg.ANG_STAT h) F.ANG_STAT_CRK_RET true
      else d1

/-! ### The hand-over of a crank edge -/

/-- The start-up regime is in force (R89). -/
def startUp (d : Dev) (h : Half) : Bool := !d.bit (Reg.SNS_STAT h) F.SNS_STAT_REGIME

/-- A validated edge in the mode of its half (R28, R29, R107, R110, R154). -/
def crankInMode (y : DevMem) (h : Half) (t : Nat) (rev chg : Bool) (p : Option Nat) : DevMem :=
  let d := y.1
  let y0 := if chg then
      match d.hmode h with
      | .idle | .safe | .off => y
      | _ => logMark y h 0x04 (bnat rev)
    else y
  let keep := fun (p1 : Option Nat) (y : DevMem) => y.dev fun d => d.onHalf h fun s =>
    { s with wheel := { s.wheel with p1 := p1 } }
  match d.hmode h with
  | .off | .safe => keep p y0
  | .idle => keep none (enterSeek y0 h)
  | .seek =>
    let y1 := if chg then
        y0.dev fun d => (d.onHalf h fun s => { s with wheel := { s.wheel with cands := [] } }).candStat h
      else y0
    match p with
    | none => keep none (y1.dev fun d => d.setClass h 0)
    | some n =>
      let y2 := logPeriod y1 h (if rev then 2 else 0) n
      if rev then keep p y2
      else
        match (d.half h).wheel.p1 with
        | none => keep p (y2.dev fun d => d.setClass h 0)
        | some p1 => seekEdge (keep p y2) h t p1 n
  | .rundown => keep p (rundownEdge y0 h t rev p)
  | .limp =>
    if rev then keep p (rundownEdge (enterRundown y0 h) h t rev p)
    else if d.bit (Reg.ANG_STAT h) F.ANG_STAT_LIMP_SRC then keep p (limpCrank y0 h p)
    else keep p (classify y0 h t p)
  | .phase | .run =>
    if rev then keep p (rundownEdge (enterRundown y0 h) h t rev p)
    else keep p (classify y0 h t p)

/-- A qualified edge is validated under the regime in force and handed over (R86 to R89, R91). -/
def handCrank (y : DevMem) (h : Half) (e : CrankEdge) : DevMem :=
  let d := y.1
  let s := (d.half h).sense
  let su := d.startUp h
  if e.illegal then
    y.dev fun d =>
      let d1 := (d.flagH h (Reg.SNS_STAT h) F.SNS_STAT_ILLEGAL 0x20).satF (Reg.SNS_CNT h) F.SNS_CNT_ILLEGALS
      if su then d1.snsFault h else d1
  else
    let y0 := if e.ambiguous then
        y.dev fun d => d.flagH h (Reg.SNS_STAT h) F.SNS_STAT_DIR_AMB 0x21
      else y
    let minInt := 4 * d.f (Reg.SNS_MININT h) F.SNS_MININT_MIN_INT
    let soon := match s.lastT with
      | some t => su && decide (e.t - t < minInt)
      | none => false
    if soon then y0.dev fun d => d.minintFault h
    else
      let rev := if e.ambiguous then s.lastRev else e.reverse
      let chg := s.lastT.isSome && (rev != s.lastRev)
      let p : Option Nat := match s.lastT with
        | some t => if chg || decide (d.hmode h = .idle) then none else some (e.t - t)
        | none => none
      let lvl := d.bit (Reg.SNS_CFG (d.crankCfg h)) F.SNS_CFG_CRK_POL
      let y1 := y0.dev fun d =>
        let d1 := d.capture h 0 e.t lvl rev
        let d2 := if chg then d1.flagH h (Reg.SNS_STAT h) F.SNS_STAT_DIRCHG 0x23 else d1
        let d3 := (d2.setB (Reg.SNS_STAT h) F.SNS_STAT_DIR rev).setB (Reg.ANG_STAT h) F.ANG_STAT_DIR rev
        let d4 := match p with
          | some p => d3.setF (Reg.ANG_PERIOD h) F.ANG_PERIOD_PERIOD (min p 0x3FFFFFFF)
          | none => d3
        d4.onHalf h fun s => { s with
          sense := { s.sense with lastT := some e.t, lastRev := rev, handT := some d.now }
          wheel := { s.wheel with net := s.wheel.net + (if rev then -1 else 1) } }
      let k0 := (d.half h).wheel.k
      let y2 := crankInMode y1 h e.t rev chg p
      if rev then y2
      else
        y2.dev fun d =>
          let k := (d.half h).wheel.k
          let n := d.nent h
          let took := decide (k ≠ k0) || decide (d.edges h = 1)
          d.crkoEdge h (took && d.tracking h && decide (d.refEnt h = some (k % max 1 n)) &&
            (decide (d.hmode h = .phase) || decide (k < n)))

/-- A qualified crank edge is handed over (R84, R86 to R89): the oldest one that waits, once its time has come. -/
def handover (y : DevMem) (h : Half) : DevMem :=
  match (y.1.half h).sense.edges with
  | [] => y
  | e :: rest =>
    if e.due ≤ y.1.now then
      handCrank (y.dev fun d => d.onSense h fun s => { s with edges := rest, handT := some d.now }) h e
    else y

/-- Every crank edge whose time has come is handed over (R122). -/
def handovers (y : DevMem) (h : Half) : DevMem :=
  Nat.repeat (fun y => handover y h) (y.1.half h).sense.edges.length y

/-! ### Cam edges -/

/-- The passage of an entry of a cam with a level that lies within TOL of an unwrapped angle, the nearest one (R113,
R115). -/
def camNear (d : Dev) (h : Half) (c : Nat) (x : Int) (level : Bool) : Option Int :=
  (d.camEntries h c).foldl
    (fun (b : Option Int) e =>
      let u := nextPassage (d.cycLen h) e.2.1 ((x : Rat) - ofN (d.cycLen h) / 2)
      let near := e.2.2 == level && decide ((u - x).natAbs ≤ d.tol h)
      match b with
      | some v => if near && decide ((u - x).natAbs < (v - x).natAbs) then some u else b
      | none => if near then some u else none) none

/-- Whether a cam has an entry of a level within TOL of an angle. -/
def camMatches (d : Dev) (h : Half) (c a : Nat) (level : Bool) : Bool := (d.camNear h c a level).isSome

/-- An edge has matched the entry of a cam at a passage (R115). -/
def camSaw (d : Dev) (h : Half) (c : Nat) (u : Option Int) : Dev :=
  match u with
  | some u => d.onHalf h fun s => { s with wheel := { s.wheel with
      camSeen := if s.wheel.camSeen.contains (c, u) then s.wheel.camSeen else s.wheel.camSeen ++ [(c, u)] } }
  | none => d

/-- A cam error (R113, R115): the count, the flag. -/
def camErr (d : Dev) (h : Half) (c : Nat) : Dev :=
  (d.satF (Reg.WHL_CAMERR h) ⟨8 * c + 7, 8 * c⟩).flagH h (Reg.WHL_STAT h) F.WHL_STAT_CAMERR 0x33

/-- CAMLOST of a cam. -/
def camLost (d : Dev) (h : Half) (c : Nat) : Bool := d.bit (Reg.WHL_STAT h) ⟨24 + c, 24 + c⟩

/-- Every phase cam is lost: the cam source is lost (R115). -/
def camsLost (d : Dev) (h : Half) : Bool :=
  let ph := d.f (Reg.WHL_CAMCFG h) F.WHL_CAMCFG_PHCAM
  decide (ph ≠ 0) && (List.range 4).all fun c => !d.phaseCam h c || d.camLost h c

/-- A consecutive count of a cam. -/
def camCount (l : List (Nat × Nat)) (c : Nat) : Nat := sparseGet 0 l c

/-- A cam error in RUN or LIMP (R115): CAMLOSS of them lose the cam; all phase cams lost in RUN enters
crank-based LIMP. -/
def camBadEdge (y : DevMem) (h : Half) (c : Nat) : DevMem :=
  let d := y.1
  let n := camCount (d.half h).wheel.camBad c + 1
  let d1 := (d.camErr h c).onHalf h fun s => { s with wheel := { s.wheel with
    camBad := sparseSet 0 s.wheel.camBad c n, camGood := sparseErase s.wheel.camGood c } }
  if d.f (Reg.WHL_CAMCFG h) F.WHL_CAMCFG_CAMLOSS ≤ n && !d.camLost h c then
    let d2 := d1.flagH h (Reg.WHL_STAT h) ⟨24 + c, 24 + c⟩ 0x34
    if d2.camsLost h && decide (d2.hmode h = .run) then enterLimp (d2, y.2) h false else (d2, y.2)
  else (d1, y.2)

/-- A good edge of a phase cam (R115): a lost cam returns after CAMLOSS of them. -/
def camGoodEdge (d : Dev) (h : Half) (c : Nat) : Dev :=
  let lost := d.camLost h c
  let n := if lost then camCount (d.half h).wheel.camGood c + 1 else 0
  let d1 := d.onHalf h fun s => { s with wheel := { s.wheel with
    camBad := sparseErase s.wheel.camBad c, camGood := sparseSet 0 s.wheel.camGood c n } }
  if lost && decide (d.f (Reg.WHL_CAMCFG h) F.WHL_CAMCFG_CAMLOSS ≤ n) then
    let d2 := (d1.setB (Reg.WHL_STAT h) ⟨24 + c, 24 + c⟩ false).onHalf h fun s =>
      { s with wheel := { s.wheel with camGood := sparseErase s.wheel.camGood c } }
    if d2.hmode h = .limp then d2.setB (Reg.ANG_STAT h) F.ANG_STAT_CAM_RET true else d2
  else d1

/-- The H1 decision (R113, R129, R132): the angle and the index move by one revolution, the corrections
with them. -/
def moveRev (d : Dev) (m : List Host.Cell) (h : Half) : Dev :=
  let d0 := d.interp h
  let k0 := (d0.half h).wheel.k
  let k := (k0 + d0.nent h) % max 1 (d0.edges h)
  let x := d0.track h
  let up : Int := rev * 2 ^ 24
  let x1 := { x with
    theta := x.theta + ofN rev, ak := nearest (d0.cycLen h) (d0.edgeAng m h k) (x.ak + ofN rev)
    dk := d0.dEdge m h k, m := x.m + up, phi := x.phi + up, fill := x.fill + ofN rev }
  ((d0.expectNext h (d0.dTab h k) x1).setIndex h k).trackStat h

/-- A phase cam edge in PHASE votes (R113); it counts for R116, and what it matches for the watch of R115 (corners
DEDUCED, log 28). -/
def camVote (y : DevMem) (h : Half) (c : Nat) (level : Bool) : DevMem :=
  let d := y.1
  let w := (d.half h).wheel
  let a := (d.phi h).floor
  let u0 := d.camNear h c a level
  let u1 := d.camNear h c (a + rev) level
  let m0 := u0.isSome
  let m1 := u1.isSome
  let v0 := if m0 && !m1 then w.v0 + 1 else w.v0
  let v1 := if m1 && !m0 then w.v1 + 1 else w.v1
  let d1 := if !m0 && !m1 then d.camErr h c else d
  let clash := decide (0 < v0) && decide (0 < v1)
  let d2 := if clash then d1.camErr h c else d1
  let v0 := if clash then 0 else v0
  let v1 := if clash then 0 else v1
  let d3 := ((d2.camSaw h c u0).camSaw h c u1).onHalf h fun s => { s with wheel := { s.wheel with
    v0 := v0, v1 := v1, camSince := s.wheel.camSince + 1 } }
  let ndec := d.f (Reg.WHL_CAMCFG h) F.WHL_CAMCFG_NDEC
  if ndec ≤ v0 then (d3.enterRun h, y.2)
  else if ndec ≤ v1 then
    let d4 := d3.moveRev y.2 h
    (logMark (d4, y.2) h 0x03 (d4.half h).wheel.k).dev fun d => d.enterRun h
  else (d3, y.2)

/-- Cam-based LIMP is possible (R116, R117). -/
def limpCamOk (d : Dev) (h : Half) : Bool :=
  let c := d.f (Reg.WHL_CAMCFG h) F.WHL_CAMCFG_LIMPCAM
  decide (d.hmode h = .run) && d.bit (Reg.WHL_SYNCCFG h) F.WHL_SYNCCFG_LIMP_CRK &&
    !d.camLost h c && decide (2 ≤ (d.camEntries h c).length)

/-- A phase cam edge in RUN or crank-based LIMP is checked (R115, R116) (corners DEDUCED, log 28). -/
def camCheck (y : DevMem) (h : Half) (c t : Nat) (level : Bool) : DevMem :=
  let d := (y.1.interp h).onHalf h fun s =>
    { s with wheel := { s.wheel with camSince := s.wheel.camSince + 1 } }
  let x := d.track h
  let a := (d.phi h).floor
  let u0 := d.camNear h c a level
  let m0 := u0.isSome
  let m1 := d.cyc720 h && (d.camNear h c (a + rev) level).isSome
  let lost := decide (x.clamp ≤ x.phi) &&
    decide (d.f (Reg.WHL_SYNCCFG h) F.WHL_SYNCCFG_CRKLOSS ≤ (d.half h).wheel.camSince)
  if lost && !d.limpCamOk h then lose (d, y.2) h 6 0 t
  else if !m0 && m1 then lose (d, y.2) h 5 c t
  else if lost then enterLimp (d, y.2) h true
  else if m0 then ((d.camGoodEdge h c).camSaw h c u0, y.2)
  else camBadEdge (d, y.2) h c

/-- The entry of a list of cam entries that follows the one at a table index, cyclically (corners DEDUCED, log 28). -/
def camAfter (l : List (Nat × Nat × Bool)) (j : Nat) : Option (Nat × Nat × Bool) :=
  match l.find? fun e => decide (j < e.1) with
  | some e => some e
  | none => l.head?

/-- The angle from one cam entry to another within the cycle, a whole cycle where they are one. -/
def camSpan (cyc : Nat) (a b : Nat) : Nat := let q := (b + cyc - a % cyc) % cyc; if q = 0 then cyc else q

/-- The first LIMPCAM edge after entry sets t_prev and θ (R131): at the entry of its level nearest φ. -/
def limpStart (d : Dev) (h : Half) (c t : Nat) (level : Bool) : Dev :=
  let d0 := d.interp h
  let old := d0.track h
  let cyc := max 1 (d0.cycLen h)
  let phi : Rat := (old.phi : Rat) / pow2Q 24
  let es := d0.camEntries h c
  let best := (es.filter fun e => e.2.2 == level).foldl
    (fun (b : Option (Nat × Nat × Nat)) e =>
      let q := (wrapA cyc phi + cyc - e.2.1 % cyc) % cyc
      let q := min q (cyc - q)
      match b with
      | some (_, _, q0) => if q < q0 then some (e.1, e.2.1, q) else b
      | none => some (e.1, e.2.1, q)) none
  match best with
  | none => d0
  | some (j, ang, _) =>
    let u := nextPassage cyc ang (phi - ofN (cyc / 2))
    let span := match camAfter es j with
      | some e => camSpan cyc ang e.2.1
      | none => cyc
    let x := d0.loadGuard h { old with
      theta := (u : Rat), ak := (u : Rat), dk := ofN span, tPrev := t, lo := d0.winLo h 0,
      hi := d0.winHi h 0 }
    let d1 := d0.onHalf h fun s => { s with
      wheel := { s.wheel with limpFirst := false, limpEntry := j } }
    (d1.expectNext h span x).restart h old false

/-- A LIMPCAM edge in cam-based LIMP takes the place of a crank tooth (R117, R131). -/
def limpEdge (y : DevMem) (h : Half) (c t : Nat) (level : Bool) : DevMem :=
  let d := y.1.interp h
  let w := (d.half h).wheel
  if w.limpFirst then (d.limpStart h c t level, y.2)
  else
    let old := d.track h
    let cyc := max 1 (d.cycLen h)
    let es := d.camEntries h c
    match fit old old.lo old.hi t, camAfter es w.limpEntry with
    | .below, _ => rejectEdge (d, y.2) h t
    | .above, _ => lose (d, y.2) h 7 c t
    | .inside, none => (d, y.2)
    | .inside, some (j, ang, _) =>
      let late := decide (old.clamp ≤ old.phi)
      let early := !late && decide ((old.phi : Rat) / pow2Q 24 < old.ak + old.dk)
      let span := match camAfter es j with
        | some e => camSpan cyc ang e.2.1
        | none => cyc
      let x1 := observe old (old.ak + old.dk) t false true
      let x2 := d.loadGuard h (d.loadGains h { x1 with
        band := d.selectBand h x1.band x1.omega, dk := ofN span, lo := d.winLo h 0, hi := d.winHi h 0 })
      let d1 := ((d.expectNext h span x2).restart h old early).publish h
      let first := decide (es.head?.map (·.1) = some j)
      let d2 := if first then d1.setF (Reg.WHL_CNT h) F.WHL_CNT_REJREV 0 else d1
      let d3 := (d2.overrange h (t - old.tPrev)).onHalf h fun s => { s with
        wheel := { s.wheel with limpEntry := j, rejected := false }
        track := { s.track with passing := true } }
      let y1 : DevMem := (d3.primaryAccepts h, y.2)
      if y1.1.tracking h && y1.1.slow h then enterRundown y1 h else y1

/-- The LIMPCAM edges stand for crank teeth (R117). -/
def camDrives (d : Dev) (h : Half) : Bool := decide (d.hmode h = .limp) && d.bit (Reg.ANG_STAT h) F.ANG_STAT_LIMP_SRC

/-- A qualified cam edge is captured and used (R91, R113 to R117). -/
def handCam (y : DevMem) (h : Half) (c t : Nat) (level : Bool) : DevMem :=
  let y1 := y.dev fun d => d.capture h (2 + c) t level false
  let d := y1.1
  match d.hmode h with
  | .phase => if d.phaseCam h c then camVote y1 h c level else y1
  | .run => if d.phaseCam h c then camCheck y1 h c t level else y1
  | .limp =>
    if d.camDrives h then
      if d.f (Reg.WHL_CAMCFG h) F.WHL_CAMCFG_LIMPCAM = c then
        limpEdge (y1.dev fun d => d.onSense h fun s => { s with handT := some d.now }) h c t level
      else y1
    else if d.phaseCam h c then camCheck y1 h c t level
    else y1
  | _ => y1

/-- The oldest waiting edge of a cam is handed over, once its time has come. -/
def handCamOf (y : DevMem) (h : Half) (c : Nat) : DevMem :=
  match (y.1.half h).sense.cams.find? fun e => decide (e.cam = c) with
  | none => y
  | some e =>
    if e.due ≤ y.1.now then
      handCam (y.dev fun d => d.onSense h fun s => { s with cams := s.cams.erase e }) h c e.t e.level
    else y

/-- The hand-over of a cam (R122): crank edges of the cycle come first, then the cams in the order of their numbers. -/
def handoverCam (y : DevMem) (h : Half) (c : Nat) : DevMem :=
  (List.range (c + 1)).foldl (fun y c => handCamOf y h c) (handovers y h)

/-- The next timed entry of a cam after a passage, as its own passage. -/
def camNext (d : Dev) (h : Half) (c : Nat) (u : Int) : Option Int :=
  (d.camEntries h c).foldl
    (fun (b : Option Int) e =>
      let v := nextPassage (d.cycLen h) e.2.1 ((u : Rat) + 1)
      match b with
      | some w => some (min v w)
      | none => some v) none

/-- The watch of a cam moved to its next entry that no edge has matched; what lies behind is forgotten (R115). -/
def camWatchOn (d : Dev) (h : Half) (c : Nat) (u : Option Int) : Dev :=
  let w := (d.half h).wheel
  let skip := fun (v : Option Int) => match v with
    | some v => if w.camSeen.contains (c, v) then d.camNext h c v else some v
    | none => none
  let v := Nat.repeat skip w.camSeen.length u
  d.onHalf h fun s => { s with wheel := { s.wheel with
    camAt := match v with
      | some v => sparseInsert s.wheel.camAt c v
      | none => sparseErase s.wheel.camAt c
    camSeen := s.wheel.camSeen.filter fun e => match v with
      | some v => decide (e.1 ≠ c ∨ v ≤ e.2)
      | none => decide (e.1 ≠ c) } }

/-- A missing cam edge (R115): φ has passed the watched entry's angle + TOL with no matching edge. -/
def camMissing (y : DevMem) (h : Half) (c : Nat) : DevMem :=
  let d := y.1.camWatchOn h c (sparseFind (y.1.half h).wheel.camAt c)
  let crank := (decide (d.hmode h = .run) || decide (d.hmode h = .limp)) && !d.camDrives h
  match sparseFind (d.half h).wheel.camAt c with
  | some u =>
    if crank && d.phaseCam h c && decide (((u + d.tol h : Int) : Rat) < d.phi h) then
      camBadEdge (d.camWatchOn h c (d.camNext h c u), y.2) h c
    else (d, y.2)
  | none => (d, y.2)

/-! ### Stall, park, resync -/

/-- The park report (R155). -/
def park (y : DevMem) (h : Half) : DevMem :=
  let d := y.1
  let w := (d.half h).wheel
  let s := (d.half h).sense
  let d1 := (((d.wr (Reg.ANG_PARK h) (BitVec.ofNat 32 (wrapA (d.cycLen h) (d.edgeAng y.2 h w.k)))).wr
    (Reg.ANG_PARKIDX h) (BitVec.ofNat 32 (w.k % 512 + bnat s.lastRev * 0x10000 + bnat w.phk * 2 ^ 30 +
      2 ^ 31))).wr (Reg.ANG_PARKTIME h) (lo32 (s.lastT.getD 0))).raiseH h 0x38
  (logMark (d1, y.2) h 0x08 w.k).dev fun d => d.enterMode h .idle

/-- The stall timeout has passed since the last edge that counts (R28, R155): the last accepted one while the half tracks,
the last handed-over one in SEEK and RUNDOWN. An edge of this HALF cycle goes first (R122) (corners DEDUCED, log 28). -/
def stalled (d : Dev) (h : Half) : Bool :=
  let s := (d.half h).sense
  let last := if d.tracking h then some (d.track h).tPrev else s.lastT
  decide (s.handT ≠ some d.now) &&
    match last with
    | some t => decide (t + 400000 * d.f (Reg.ANG_STOPCFG h) F.ANG_STOPCFG_STALL ≤ d.now)
    | none => true

/-- No accepted edge for the stall timeout (R28). -/
def stall (y : DevMem) (h : Half) : DevMem :=
  if !y.1.stalled h then y
  else match y.1.hmode h with
  | .seek => y.dev fun d =>
      (d.enterMode h .idle).onHalf h fun s => { s with wheel := { s.wheel with pmFirst := false } }
  | .phase | .run | .limp => enterRundown y h
  | .rundown => park y h
  | _ => y

/-- The time since the last accepted edge exceeds the interval divided by the rundown speed (R154) (corners DEDUCED, log
32). -/
def tooSlow (d : Dev) (h : Half) : Bool :=
  let span := if d.camDrives h then (d.track h).dk else ofN (d.dTab h (d.half h).wheel.k)
  let rd := rpmSpeed (ofN (d.f (Reg.ANG_STOPCFG h) F.ANG_STOPCFG_RDSPD))
  d.tracking h && decide (span < (ofN d.now - ofN (d.track h).tPrev) * rd)

/-- A resync is permitted (R28, R119, R373). -/
def resyncOk (d : Dev) (h : Half) : Bool :=
  decide (d.hmode h = .safe) && !d.devSafe && decide ((d.half h).reactT ≠ some d.now) && d.endingsDone h &&
    (d.bit (Reg.WHL_SYNCCFG h) F.WHL_SYNCCFG_AUTO || d.bit (Reg.WHL_STAT h) F.WHL_STAT_RESYNC_PERM) &&
    !(decide (h = .b) && d.bit (Reg.XLK_STAT h) F.XLK_STAT_GRACE_OUT && d.bit (Reg.XLK_STAT h)
      F.XLK_STAT_LOST)

end Dev

/-! ### The commands -/

/-- CRANK_EDGE_HANDOVER (R84 to R92, R107 to R111, R154) (corners DEDUCED, log 30). -/
def execCrankEdgeHandover (t : Tick) (h : Half) (s : State) : Out :=
  s.onBoth t fun d m => if d.capturing h then Dev.handovers (d, m) h else (d, m)

/-- CAM_EDGE_HANDOVER (R91, R113 to R117). -/
def execCamEdgeHandover (t : Tick) (h : Half) (c : Fin 4) (s : State) : Out :=
  s.onBoth t fun d m => if d.capturing h then Dev.handoverCam (d, m) h c.val else (d, m)

/-- CAM_MISSING_EDGE (R115). -/
def execCamMissingEdge (t : Tick) (h : Half) (c : Fin 4) (s : State) : Out :=
  s.onBoth t fun d m => Dev.camMissing (d, m) h c.val

/-- STALL_TIMEOUT (R28, R122, R155): the edges of the cycle are processed first. -/
def execStallTimeout (t : Tick) (h : Half) (s : State) : Out :=
  s.onBoth t fun d m => Dev.stall (Dev.handoverCam (d, m) h 3) h

/-- RUNDOWN_SPEED_TIMEOUT (R122, R154): the edges of the cycle are processed first. -/
def execRundownSpeedTimeout (t : Tick) (h : Half) (s : State) : Out :=
  s.onBoth t fun d m =>
    let y := Dev.handoverCam (d, m) h 3
    if y.1.tooSlow h then Dev.enterRundown y h else y

/-- RESYNC_PERMIT (R119): other values, and writes in any other mode, are ignored. -/
def execResyncPermit (t : Tick) (_m : Master) (h : Half) (v : Word) (s : State) : Out :=
  s.onDev t fun d => d.onWrite (Reg.WHL_RESYNC h) fun d =>
    if v = 0x5359 ∧ d.hmode h = .safe then d.setB (Reg.WHL_STAT h) F.WHL_STAT_RESYNC_PERM true else d

/-- RESYNC (R28, R119): a permit is used by exactly one transition. -/
def execResync (t : Tick) (h : Half) (s : State) : Out :=
  s.onBoth t fun d m =>
    if d.resyncOk h then
      Dev.enterSeek (d.setB (Reg.WHL_STAT h) F.WHL_STAT_RESYNC_PERM false, m) h
    else (d, m)

/-- WHL_COUNT_CLEAR (WHL_CNTCLR): LOSSES, REJTOT and the cam error counts. -/
def execWhlCountClear (t : Tick) (_m : Master) (h : Half) (_v : Word) (s : State) : Out :=
  s.onDev t fun d => d.onWrite (Reg.WHL_CNTCLR h) fun d =>
    [F.WHL_CAMERR_ERR0, F.WHL_CAMERR_ERR1, F.WHL_CAMERR_ERR2, F.WHL_CAMERR_ERR3].foldl
      (fun d x => d.clrCount (Reg.WHL_CAMERR h) x)
      ((d.clrCount (Reg.WHL_CNT h) F.WHL_CNT_LOSSES).clrCount (Reg.WHL_CNT h) F.WHL_CNT_REJTOT)

end Sys2Proof.Machine
end

