-- ==== Sys2Proof/Machine/Tooth.lean ====
section
/-! DEFINITION. The evaluator lanes, the clamp and catch-up events, the learned tables and the angle read
(R18 to R21, R130, R133, R135 to R147, R171, R414). -/

namespace Sys2Proof.Machine

open Sys2Proof

namespace Dev

/-! ### The tooth pass and the pre-pass -/

/-- The prediction that the tooth pass gives a channel (R18, R414): a + b × r, or both Newton steps on
the new state where the pre-pass left no coefficients. -/
def passChan (d : Dev) (h : Half) (c : Nat) : Dev :=
  let x := d.chan h c
  let k := d.track h
  match d.angleTarget h c with
  | none => d
  | some _ =>
    match x.coef with
    | some (a, b) =>
      (d.setChan h c { x with coef := none }).setPred h c (absTime k.tPrev (a + b * k.resid - ofN k.tPrev))
    | none => d.evaluate h c true

/-- The end of a tooth pass (R19, R130, R171): all predictions switch at once, then every pending start
is tested, and the pre-pass starts with the gains then in force (corners DEDUCED, log 35). -/
def passEnd (d : Dev) (h : Half) : Dev :=
  let x := d.track h
  if x.passing then
    let d1 := ((d.half h).chans.map (·.1)).foldl (fun d c => d.passChan h c) d
    let d2 := d1.setTrack h (d1.loadGains h { d1.track h with passing := false, prepass := true })
    d2.lateTests h x.jumped (x.catching && x.early)
  else d

/-- The coefficients of a channel for the next tooth pass (R18, R414), counted as absolute times. -/
def prepassChan (d : Dev) (h : Half) (c : Nat) : Dev :=
  let x := d.chan h c
  let k := d.track h
  match d.angleTarget h c with
  | none => d
  | some a =>
    let te : Rat := ofN k.tExp / 65536
    let e := expInterval k
    let md : Model := ⟨k.ak + k.dk, k.omegaExp, k.alpha, ofN (d.cycLen h), k.ripple⟩
    let e := if e = 0 then 1 else e
    let kb : Rat × Rat × Rat × Rat :=
      (k.omegaExp * (1 - ofN k.kt / 1024), -(ofN k.kw / 1024) * k.omegaExp / e,
        -2 * (ofN k.ka / 4096) * k.omegaExp / (e * e), 1)
    let seed := match x.pred with
      | some p => ofN p / 65536 - te
      | none => if k.omegaExp ≤ 0 then 0 else ((a : Rat) - md.theta) / k.omegaExp
    let r := md.coefs (a : Rat) seed kb
    let d1 := d.setChan h c { x with coef := some (te + r.1.1, r.1.2) }
    if r.2 then d1.mark (Reg.ANG_STAT h) F.ANG_STAT_LINFB else d1

/-- The end of the pre-pass (R18). -/
def prepassEnd (d : Dev) (h : Half) : Dev :=
  let x := d.track h
  if x.prepass && d.issuing h then
    ((d.half h).chans.map (·.1)).foldl (fun d c => d.prepassChan h c)
      (d.setTrack h { x with prepass := false })
  else d

/-- An evaluation in the lanes' idle cycles completes (R20, R135, R171, R173). -/
def evalDone (d : Dev) (h : Half) (c : Nat) : Dev :=
  if d.issuing h then
    let d1 := d.evaluate h c true
    let d2 := d1.setChan h c { d1.chan h c with coef := none }
    (d2.fixPassed h c).lateTest h c false false
  else d

/-! ### The clamp and the catch-up -/

/-- φ reaches the clamp (R138). -/
def clampReach (d : Dev) (h : Half) : Dev :=
  let d1 := d.interp h
  let x := d1.track h
  if d.tracking h && decide (x.clamp ≤ x.phi) then d1.clampAt h else d1

/-- A catch-up past 25,600 tk jumps the remainder (R139, R140, R153, R171), unless φ has met m or the clamp. -/
def catchTimeout (d : Dev) (h : Half) : Dev :=
  let d1 := d.interp h
  let x := d1.track h
  if d.tracking h && x.catching && decide (x.cuStart + 25600 ≤ d.now) then
    let d2 := (d1.setTrack h { x with catching := false }).jump h (max x.phi (min x.m x.clamp))
    let d3 := ((d2.flagH h (Reg.ANG_STAT h) F.ANG_STAT_CU_TMO 0x3A).trackStat h).onHalf h fun s =>
      { s with learn := { s.learn with segBad := true } }
    let d4 := if x.clamp ≤ (d3.track h).phi then d3.clampAt h else d3
    let late := ((d4.half h).chans.filter fun e => e.2.lateAt.isSome).map (·.1)
    late.foldl (fun d c => d.lateTest h c true false) d4
  else d1

/-- φ has met m or the clamp and the catch-up ends (R139). -/
def catchEnd (d : Dev) (h : Half) : Dev :=
  let d1 := d.interp h
  let x := d1.track h
  if d.tracking h && !x.catching then
    let d2 := d1.trackStat h
    if x.clamp ≤ x.phi then d2.clampAt h else d2
  else d1

/-! ### Learned tables -/

/-- The means of both tables removed (R146) (corners DEDUCED, log 31). -/
def adjustTables (y : DevMem) (h : Half) : DevMem :=
  let d := y.1
  let l := d.edges h
  let ks := List.range l
  let mw := roundAway ((ks.foldl (fun a k => a + wErr y.2 h k) 0 : Int) / ofN (max 1 l))
  let m1 := ks.foldl (fun m k => setW m h k (clampI (-32768) 32767 (wErr m h k - mw))) y.2
  let sp := ks.foldl (fun a k => a + (pRip y.2 h k : Rat) * d.dEdge y.2 h k) (0 : Rat)
  let mp := roundAway (sp / ofN (max 1 (d.cycLen h)))
  let m2 := ks.foldl (fun m k => setP m h k (clampI (-(2 ^ 31)) (2 ^ 31 - 1) (pRip m h k - mp))) m1
  (d, if mw = 0 ∧ mp = 0 then y.2 else m2)

/-- The tables derived from P, used from the next accepted edge (R131, R133). -/
def derive (y : DevMem) (h : Half) : DevMem :=
  let d := y.1
  if d.bit (Reg.ANG_STAT h) F.ANG_STAT_LIMP_SRC then y
  else y.dev fun d => d.setTrack h { d.track h with next := some (deriveRipple d y.2 h) }

/-- W, its count and its flag cleared (R147). -/
def clearW (y : DevMem) (h : Half) : DevMem :=
  let d := y.1
  let d1 := ((d.setF (Reg.ANG_LEARNCNT h) F.ANG_LEARNCNT_WE_CYC 0).setB (Reg.ANG_LEARNSTAT h)
    F.ANG_LEARNSTAT_WE_CONV false).onHalf h fun s => { s with learn := { s.learn with weAll := false } }
  (d1, Memory.clear y.2 (learnBase h) 0x400)

/-- P, its count and its flag cleared; the profile acts as 0 from now on (R147). -/
def clearP (y : DevMem) (h : Half) : DevMem :=
  let d := y.1
  let d1 := ((d.setF (Reg.ANG_LEARNCNT h) F.ANG_LEARNCNT_RIP_CYC 0).setB (Reg.ANG_LEARNSTAT h)
    F.ANG_LEARNSTAT_RIP_CONV false).onHalf h fun s => { s with
      learn := { s.learn with ripAll := false }
      track := { s.track with ripple := [], next := none } }
  (d1, Memory.clear y.2 (learnBase h + 0x400) 0x800)

/-- A write of ANG_LEARNCTL: the enables, and the clears of R147. -/
def learnCtl (y : DevMem) (h : Half) (v : Word) : DevMem :=
  let a := Reg.ANG_LEARNCTL h
  let y0 := y.dev fun d =>
    (d.setB a F.ANG_LEARNCTL_WE_EN (getB v F.ANG_LEARNCTL_WE_EN)).setB a F.ANG_LEARNCTL_RIP_EN
      (getB v F.ANG_LEARNCTL_RIP_EN)
  let y1 := if getB v F.ANG_LEARNCTL_WE_CLR then clearW y0 h else y0
  if getB v F.ANG_LEARNCTL_RIP_CLR then clearP y1 h else y1

/-- A write access that may change RAM: the effect, or a bus error. -/
def onWriteMem (y : DevMem) (a : Nat) (g : DevMem → DevMem) : DevMem :=
  if y.1.reach a true then g (y.1.okay 0, y.2) else (y.1.busErr, y.2)

/-- Whether a direct write to word j of the learned tables takes effect (R143): the half in IDLE or SAFE
and learning of that table off. -/
def learnWritable (d : Dev) (h : Half) (j : Nat) : Bool :=
  (d.idleOrSafe h || decide (d.hmode h = .off)) &&
    !(d.bit (Reg.ANG_LEARNCTL h)
      (if j < 256 then F.ANG_LEARNCTL_WE_EN else F.ANG_LEARNCTL_RIP_EN))

/-- A direct write to word j of the learned tables (R143). -/
def learnWrite (y : DevMem) (h : Half) (j : Nat) (v : Word) : DevMem :=
  if y.1.learnWritable h j then (y.1, Memory.setWord y.2 (learnBase h + 4 * j) v)
  else (y.1.busErr, y.2)

/-- ANG_ANGLE (R142): φ, or the angle of the last edge in RUNDOWN; in the cycle of a jump φ before it. -/
def angleNow (d : Dev) (h : Half) : Word :=
  let p : Rat := match (d.track h).jumpOld with
    | some (t, p) => if t = d.now then (p : Rat) / pow2Q 24 else d.phi h
    | none => d.phi h
  BitVec.ofNat 32 (wrapA (d.cycLen h) p)

/-- The key of a master's latch of a half. -/
def latchKey (h : Half) (m : Master) : Nat := 64 * halfNo h + portNo m

end Dev

/-! ### The commands -/

/-- PRE_PASS_END (R18, R414). -/
def execPrePassEnd (t : Tick) (h : Half) (s : State) : Out := s.onDev t fun d => d.prepassEnd h

/-- CHANNEL_EVALUATION_DONE (R20, R173). -/
def execChannelEvaluationDone (t : Tick) (h : Half) (c : Fin 256) (s : State) : Out :=
  s.onDev t fun d => d.evalDone h c.val

/-- CLAMP_REACHED (R137, R138). -/
def execClampReached (t : Tick) (h : Half) (s : State) : Out := s.onDev t fun d => d.clampReach h

/-- CATCHUP_TIMEOUT (R139). -/
def execCatchupTimeout (t : Tick) (h : Half) (s : State) : Out := s.onDev t fun d => d.catchTimeout h

/-- CATCHUP_END (R139). -/
def execCatchupEnd (t : Tick) (h : Half) (s : State) : Out := s.onDev t fun d => d.catchEnd h

/-- LEARNED_TABLE_ADJUST (R146). -/
def execLearnedTableAdjust (t : Tick) (h : Half) (s : State) : Out :=
  s.onBoth t fun d m => Dev.adjustTables (d, m) h

/-- RIPPLE_DERIVATION (R133). -/
def execRippleDerivation (t : Tick) (h : Half) (s : State) : Out :=
  s.onBoth t fun d m => Dev.derive (d, m) h

/-- WE_CLEAR (R147): the write of ANG_LEARNCTL. -/
def execWeClear (t : Tick) (_m : Master) (h : Half) (v : Word) (s : State) : Out :=
  s.onBoth t fun d m => Dev.onWriteMem (d, m) (Reg.ANG_LEARNCTL h) fun y => Dev.learnCtl y h v

/-- RIP_CLEAR (R147): the write of ANG_LEARNCTL. -/
def execRipClear (t : Tick) (_m : Master) (h : Half) (v : Word) (s : State) : Out :=
  s.onBoth t fun d m => Dev.onWriteMem (d, m) (Reg.ANG_LEARNCTL h) fun y => Dev.learnCtl y h v

/-- LEARNED_TABLE_WRITE (R143). -/
def execLearnedTableWrite (t : Tick) (_m : Master) (h : Half) (j : Fin 768) (v : Word) (s : State) : Out :=
  s.onBoth t fun d m => Dev.onWriteMem (d, m) (learnBase h + 4 * j.val) fun y => Dev.learnWrite y h j.val v

/-- ANGLE_READ (R142). -/
def execAngleRead (t : Tick) (m : Master) (h : Half) (s : State) : Out :=
  s.onDev t fun d => d.onRead (Reg.ANG_ANGLE h) (d.angleNow h) fun d =>
    { d with angLatch := sparseSet 0 d.angLatch (Dev.latchKey h m) (Dev.lo32 d.now) }

end Sys2Proof.Machine
end

