-- ==== Sys2Proof/Machine/Legal.lean ====
section
/-! DEFINITION. The legal values of registers, as code 0x12 FIELD of a transaction and check 0x34 of the
image test them (R59, R65, R77, R80, and the field tables of the blocks): reserved bits, ranges of single
words, and the rules that join words. -/

namespace Sys2Proof.Machine

open Sys2Proof

namespace Legal

/-- A field lies between bounds (corners DEDUCED, log 25). -/
def within (v : Word) (x : Fld) (lo hi : Nat) : Bool := decide (lo ≤ getF v x ∧ getF v x ≤ hi)

/-- A field does not hold a code. -/
def isNot (v : Word) (x : Fld) (n : Nat) : Bool := decide (getF v x ≠ n)

/-- Every `w`-bit field of the first `n` fields of a word passes a test. -/
def fields (v : Word) (w n : Nat) (p : Nat → Bool) : Bool :=
  (List.range n).all fun i => p (getF v ⟨w * i + w - 1, w * i⟩)

/-- An offset lies on word 0 of one of `n` units of a register array; its unit number. -/
def unit (o base stride n : Nat) : Option Nat :=
  if base ≤ o ∧ (o - base) % stride = 0 ∧ (o - base) / stride < n then some ((o - base) / stride) else none

/-- The bits of a register that no field names; GROUP of EVC_CTRL and the two fixed reactions of SAF_REACT
are named (corners DEDUCED, log 22). -/
def reserved (a : Nat) (r : RegRow) : Word :=
  let ro : Nat :=
    if a = Reg.SAF_REACT then 0xF00000
    else match halfOffset a with
      | some (_, o) => if 0x10000 ≤ o ∧ o < 0x12000 ∧ o % 32 = 0 then 0xF0000000 else 0
      | none => 0
  ~~~(BitVec.ofNat 32 (r.rw ||| r.w1c ||| r.w1s ||| r.wo ||| r.tx ||| ro))

/-- An input code of R254 that is not reserved. -/
def inputCode (n : Nat) : Bool := decide (n ≤ 0xB ∨ n = 0x10 ∨ n = 0x11 ∨ (0x20 ≤ n ∧ n ≤ 0x29))

/-- The number of targets of an event action (R157). -/
def targets (action : Nat) : Nat :=
  match action with
  | 0 => 1
  | 1 | 2 | 3 | 4 => 16
  | 5 | 6 => 12
  | 7 | 0xD => 16
  | 8 | 9 | 0xA | 0xB => 64
  | 0xC => 8
  | _ => 0

/-- The number of destinations of a timer trigger (R239). -/
def destinations (trig : Nat) : Nat := [1, 16, 64, 64, 16, 8, 1, 64].getD trig 0

/-- EVC_CTRL (R157, R158, R174): the image judges DSLOT by check 0x44 (corners DEDUCED, log 25). -/
def eventCtrl (image : Bool) (v : Word) : Bool :=
  isNot v F.EVC_CTRL_LIMP 3 &&
    (image || decide (getF v F.EVC_CTRL_DSLOT ≤ 127) || !isNot v F.EVC_CTRL_DSLOT 0xFF) &&
    decide (getF v F.EVC_CTRL_TARGET < targets (getF v F.EVC_CTRL_ACTION))

/-- The words of the SNS, ASC, CRKO and WHL registers. -/
def sensorWord (image : Bool) (h : Half) (o : Nat) (v : Word) : Bool :=
  if o = 0x0 then isNot v F.SNS_CFG_DIRSRC 3 &&
    fields (BitVec.ofNat 32 (getF v F.SNS_CFG_CAM_EDGE)) 2 4 fun n => decide (n ≠ 3)
  else if o = 0x4 then fields v 6 5 fun n => decide (10 ≤ n ∧ n ≤ 60)
  else if o = 0xC then
    within v F.SNS_DIRCFG_QWIN 1 63 && within v F.SNS_DIRCFG_FWD_MAX 1 255 &&
      decide (getF v F.SNS_DIRCFG_FWD_MAX < getF v F.SNS_DIRCFG_REV_MIN)
  else if o = 0x18 then decide (h = .b) || decide (v = 0)
  else if (unit o 0x100 32 8).isSome then
    !(within v F.ASC_CTRL_ACTION 1 2) || within v F.ASC_CTRL_TARGET 0 15
  else if o = 0x1000 then
    within v F.WHL_WCFG_NENT 0 (if getB v F.WHL_WCFG_CYC720 then 256 else 512)
  else if o = 0x1004 then fields v 8 4 fun n => decide (n % 8 ≤ 5)
  else if o = 0x1008 then within v F.WHL_SYNCCFG_CRKLOSS 1 7
  else if o = 0x100C then within v F.WHL_CAMCFG_CAMLOSS 1 15 && within v F.WHL_CAMCFG_NDEC 1 15
  else if o = 0x1010 then image || fields v 8 4 fun n => decide (n ≤ 32)
  else true

/-- The words of the ANG registers. -/
def angleWord (o : Nat) (v : Word) : Bool :=
  if o = 0x2004 then within v F.ANG_CFG_GUARD 0 64
  else if o = 0x2034 then
    within v F.ANG_STOPCFG_STALL 10 2500 && within v F.ANG_STOPCFG_RDSPD 8 1000
  else if (unit o 0x2044 8 8).isSome then
    within v F.ANG_BANDG_KT 512 1024 && within v F.ANG_BANDG_KW 0 1024
  else if o = 0x20A4 then
    within v F.ANG_LEARNCFG_WE_SHIFT 2 12 && within v F.ANG_LEARNCFG_RIP_SHIFT 2 12
  else if o = 0x20A8 ∨ o = 0x20AC then decide (getF v F.ANG_WEBAND_LO < getF v F.ANG_WEBAND_HI)
  else if o = 0x20C0 then within v F.ANG_SEGCFG_NSEG 0 32
  else true

/-- The words of the demand limits, the drive, boost, ignition and angle output registers. -/
def outputWord (o : Nat) (v : Word) : Bool :=
  if o = 0x16024 then within v F.DMD_CHKSPD_SPD 1 24000
  else if o = 0x1602C then within v F.DMD_CYLLIM_MAXSHOTS 1 8
  else if (unit o 0x16040 4 12).isSome then within v F.DMD_LSCFG_CYL 0 11
  else if (unit o 0x22040 16 6).isSome then
    within v F.DRV_BANKCFG_MINCHOP 20 255 && within v F.DRV_BANKCFG_RSHUNT 10 1000 &&
      isNot v F.DRV_BANKCFG_GAIN 3
  else if (unit o 0x22118 32 16).isSome then within v F.DRV_PHYD_HYD_SHIFT 0 8
  else if o = 0x23004 then within v F.BST_VCFG_START 0 312 && within v F.BST_VCFG_TARGET 0 312
  else if o = 0x23008 then
    within v F.BST_PROT_UVTIME 1 15 && within v F.BST_PROT_OV 0 312 && within v F.BST_PROT_UV 0 312
  else if o = 0x2300C then within v F.BST_ILIM_ILIM 1 255
  else if (unit o 0x21000 16 12).isSome then within v F.IGN_CFG_TMAX 1 255
  else if (unit o 0x20000 4 16).isSome then isNot v F.GAO_CFG_SAFE 3
  else true

/-- The words of the ADC, ACC, GDR and XLK registers. -/
def inputWord (h : Half) (o : Nat) (v : Word) : Bool :=
  if o = 0x24000 ∨ o = 0x24004 then within v F.ADC_CFG_LEN 1 32
  else if o = 0x24008 then inputCode (getF v F.ADC_PLCFG_PL_CH)
  else if o = 0x24010 ∨ o = 0x24014 then within v F.ADC_KNK_GAIN 0 5
  else if (unit o 0x24100 4 64).isSome ∨ (unit o 0x24200 4 16).isSome then
    inputCode (getF v F.ADC_SEQ_INPUT)
  else if (unit o 0x25000 64 64).isSome then
    isNot v F.ACC_CFG_SRCK 3 && isNot v F.ACC_CFG_WMODE 3 &&
      (isNot v F.ACC_CFG_SRCK 2 || within v F.ACC_CFG_SRCI 0 15)
  else if o = 0x30000 then within v F.GDR_CFG_GLAG 1 15 && within v F.GDR_CFG_PWIN 8 255
  else if o = 0x31000 then decide (h = .b) || decide (v = 0)
  else true

/-- A word of a half's registers. -/
def halfWord (image : Bool) (h : Half) (o : Nat) (v : Word) : Bool :=
  if o < 0x2000 then sensorWord image h o v
  else if o < 0x10000 then angleWord o v
  else if o < 0x14000 then !(decide (o % 32 = 0) && decide (o < 0x12000)) || eventCtrl image v
  else if o < 0x24000 then outputWord o v
  else inputWord h o v

/-- A word of the timers, PWM channels, SENT receivers and Colt engines. -/
def unitWord (a : Nat) (v : Word) : Bool :=
  match unit a 0x30100 32 64 with
  | some n =>
    isNot v F.TMR_CTRL_LINK 3 &&
      decide (getF v F.TMR_CTRL_TGT < destinations (getF v F.TMR_CTRL_TRIG)) &&
      !(decide (getF v F.TMR_CTRL_TRIG = 7) && decide (getF v F.TMR_CTRL_TGT = n))
  | none =>
    if (unit a 0x40000 32 32).isSome then isNot v F.PWM_CFG_SAFE 3
    else if (unit a 0x40004 32 32).isSome then within v F.PWM_PER_PER 2 0x7FFFFFF
    else if (unit a 0x40400 16 16).isSome then isNot v F.PWM_PAIRCFG_LINK 3
    else if (unit a 0x60000 64 6).isSome then
      isNot v F.SNT_CFG_SERIAL 3 && isNot v F.SNT_CFG_CALCHK 3 && isNot v F.SNT_CFG_PAUSE 3 &&
        (!getB v F.SNT_CFG_EN || within v F.SNT_CFG_NOMTICK 30 900)
    else if (unit a 0x50000 64 8).isSome then isNot v F.COLT_CFG_LINK 3
    else if (unit a 0x50004 64 8).isSome then
      isNot v F.COLT_MODE_PACE 3 && (getB v F.COLT_MODE_PSRC || within v F.COLT_MODE_PIDX 0 15)
    else if a = Reg.COLT_PINSAFE then fields v 2 16 fun n => decide (n ≠ 3)
    else true

/-- A word of the Mule, the interrupt controller, the link, the flash port and the safety block. -/
def systemWord (a : Nat) (v : Word) : Bool :=
  if (unit a 0x20000 64 16).isSome then within v F.MULE_CFG_SRC 0 45
  else if (unit a 0x2002C 64 16).isSome then
    isNot v F.MULE_SCTL_DMODE 3 && isNot v F.MULE_SCTL_SMODE 3 && within v F.MULE_SCTL_DRSZ 0 9 &&
      within v F.MULE_SCTL_SRSZ 0 9
  else if (unit a 0x10400 4 256).isSome then within v F.IRQ_SRCCFG_TGT 0 5
  else if a = Reg.LNK_HBCFG then decide (getF v F.LNK_HBCFG_HB_MIN < getF v F.LNK_HBCFG_HB_MAX)
  else if a = Reg.LNK_HLCFG then isNot v F.LNK_HLCFG_HBPORT 3 && within v F.LNK_HLCFG_HL_MS 1 1000
  else if (unit a 0x70040 16 4).isSome then
    let size := 2 ^ getF v F.LNK_STRCFG_RSZ
    let base := getF v F.LNK_STRCFG_BASE
    within v F.LNK_STRCFG_RSZ 0 9 && decide (base % size = 0) && decide (base + size ≤ 512)
  else if a = Reg.NVL_PCTL then within v F.NVL_PCTL_NRD 0 56 && within v F.NVL_PCTL_NWR 0 56
  else if a = Reg.SAF_REACT then
    (List.range 13).all fun k => decide (k = 10 ∨ k = 11) || isNot v ⟨2 * k + 1, 2 * k⟩ 0
  else if a = Reg.SAF_CFG then within v F.SAF_CFG_TLIM 125 185 && within v F.SAF_CFG_HOLD 1 255
  else true

/-- Reserved bits are 0 and every field of the word lies in its range. -/
def word (image : Bool) (a : Nat) (r : RegRow) (v : Word) : Bool :=
  decide (v &&& reserved a r = 0) &&
    match halfOffset a with
    | some (h, o) => halfWord image h o v
    | none => unitWord a v && systemWord a v

/-! ### Rules that join words (R77): judged on a whole configuration -/

/-- The cycle length of a half. -/
def cyc (rd : Nat → Word) (h : Half) : Nat :=
  if getB (rd (Reg.WHL_WCFG h)) F.WHL_WCFG_CYC720 then 2 * rev else rev

/-- ASC_STEP of compare n (R93); 0 marks an unused compare (corners DEDUCED, log 25). -/
def stepRule (rd : Nat → Word) (h : Half) (n : Nat) : Bool :=
  let s := getF (rd (Reg.ASC_STEP h n)) F.ASC_STEP_STEP
  decide (s = 0) || (decide (1024 ≤ s) && decide (cyc rd h % s = 0))

/-- ASC_ANCHOR of compare n lies within the cycle. -/
def anchorRule (rd : Nat → Word) (h : Half) (n : Nat) : Bool :=
  decide (getF (rd (Reg.ASC_ANCHOR h n)) F.ASC_ANCHOR_ANCHOR < cyc rd h)

/-- EVC_ANGLE of channel c lies within the cycle. -/
def eventAngle (rd : Nat → Word) (h : Half) (c : Nat) : Bool :=
  decide (getF (rd (Reg.EVC_ANGLE h c)) F.EVC_ANGLE_ANGLE < cyc rd h)

/-- The end angle of channel c lies within the cycle (EVC_END) (corners DEDUCED, log 35). -/
def endAngle (rd : Nat → Word) (h : Half) (c : Nat) : Bool :=
  let e := rd (Reg.EVC_END h c)
  !getB e F.EVC_END_KIND || decide (getF e F.EVC_END_VAL < cyc rd h)

/-- EVC_END and EVC_AUX of channel c fit its action (R157, EVC_END, EVC_AUX). -/
def eventRule (rd : Nat → Word) (h : Half) (c : Nat) : Bool :=
  let act := getF (rd (Reg.EVC_CTRL h c)) F.EVC_CTRL_ACTION
  let e := rd (Reg.EVC_END h c)
  let x := rd (Reg.EVC_AUX h c)
  (hasEnd act || decide (e = 0)) && endAngle rd h c &&
    within x F.EVC_AUX_PARAM 0 (if act = 4 then 1 else 0) &&
    (decide (act = 6) || within x F.EVC_AUX_PROFILE 0 0)

/-- UPPER of bands 0 to 6 rises strictly (R128). -/
def bandRule (rd : Nat → Word) (h : Half) : Bool :=
  (List.range 6).all fun n =>
    decide (getF (rd (Reg.ANG_BANDL h n)) F.ANG_BANDL_UPPER <
      getF (rd (Reg.ANG_BANDL h (n + 1))) F.ANG_BANDL_UPPER)

/-- ANCHOR of ANG_SEGCFG lies within the cycle. -/
def segRule (rd : Nat → Word) (h : Half) : Bool :=
  decide (getF (rd (Reg.ANG_SEGCFG h)) F.ANG_SEGCFG_ANCHOR < cyc rd h)

/-- SPK and RECH are at least 1 with MSN above 0 (R226). -/
def sparkRule (rd : Nat → Word) (h : Half) (k : Nat) : Bool :=
  let ms := rd (Reg.IGN_MS h k)
  decide (getF (rd (Reg.IGN_CFG h k)) F.IGN_CFG_MSN = 0) ||
    (within ms F.IGN_MS_SPK 1 255 && within ms F.IGN_MS_RECH 1 255)

/-- PL_N above 0 needs both converters enabled and ENTm below LENm (R259). -/
def plRule (rd : Nat → Word) (h : Half) : Bool :=
  let p := rd (Reg.ADC_PLCFG h)
  decide (getF p F.ADC_PLCFG_PL_N = 0) ||
    (getB (rd (Reg.ADC_CFG h 0)) F.ADC_CFG_EN && getB (rd (Reg.ADC_CFG h 1)) F.ADC_CFG_EN &&
      decide (getF p F.ADC_PLCFG_ENT0 < getF (rd (Reg.ADC_CFG h 0)) F.ADC_CFG_LEN) &&
      decide (getF p F.ADC_PLCFG_ENT1 < getF (rd (Reg.ADC_CFG h 1)) F.ADC_CFG_LEN))

/-- An entry word names no disabled knock input (R256). -/
def knockRule (rd : Nat → Word) (h : Half) (w : Word) : Bool :=
  let n := getF w F.ADC_SEQ_INPUT
  !decide (n = 0x10 ∨ n = 0x11) || getB (rd (Reg.ADC_KNK h (n - 0x10))) F.ADC_KNK_EN

/-- No entry of a half names a knock input that is disabled. -/
def knockRules (rd : Nat → Word) (h : Half) : Bool :=
  ((List.range 64).all fun e => knockRule rd h (rd (Reg.ADC_SEQ h 0 e))) &&
    (List.range 16).all fun j => knockRule rd h (rd (Reg.ADC_URG h j))

/-- NSAMP is not 0 with WMODE 0x1 or 0x2 (R266). -/
def sampleRule (rd : Nat → Word) (h : Half) (a : Nat) : Bool :=
  !within (rd (Reg.ACC_CFG h a)) F.ACC_CFG_WMODE 1 2 || isNot (rd (Reg.ACC_PARAM h a)) F.ACC_PARAM_NSAMP 0

/-- FLEN lies in its range with PAUSE 0x2 (R281). -/
def frameRule (rd : Nat → Word) (r : Nat) : Bool :=
  isNot (rd (Reg.SNT_CFG r)) F.SNT_CFG_PAUSE 2 || within (rd (Reg.SNT_FLEN r)) F.SNT_FLEN_FLEN 164 1040

/-- The Colt state word of which an address holds one half is not malformed (R289); judged in the image. -/
def stateRule (rd : Nat → Word) (a : Nat) : Bool :=
  let b := a / 8 * 8
  !badWord (rd (b + 4) ++ rd b)

/-- The rules of which the word at an offset of a half is a part (corners DEDUCED, log 23). -/
def halfJoined (rd : Nat → Word) (h : Half) (o : Nat) : Bool :=
  if o < 0x1000 then
    match unit o 0x104 32 8, unit o 0x108 32 8 with
    | some n, _ => stepRule rd h n
    | _, some n => anchorRule rd h n
    | _, _ => true
  else if o = 0x1000 then
    ((List.range 8).all fun n => stepRule rd h n && anchorRule rd h n) && segRule rd h &&
      (List.range 256).all fun c => eventAngle rd h c && endAngle rd h c
  else if (unit o 0x2040 8 7).isSome then bandRule rd h
  else if o = 0x20C0 then segRule rd h
  else if 0x10000 ≤ o ∧ o < 0x12000 then
    let c := (o - 0x10000) / 32
    match o % 32 with
    | 0 | 0xC | 0x14 => eventRule rd h c
    | 4 => eventAngle rd h c
    | _ => true
  else if 0x21000 ≤ o ∧ o < 0x210C0 then sparkRule rd h ((o - 0x21000) / 16)
  else if o = 0x24000 ∨ o = 0x24004 ∨ o = 0x24008 then plRule rd h
  else if o = 0x24010 ∨ o = 0x24014 then knockRules rd h
  else if (unit o 0x24100 4 64).isSome ∨ (unit o 0x24200 4 16).isSome then
    knockRule rd h (rd (Half.base h + o))
  else if 0x25000 ≤ o ∧ o < 0x26000 ∧ o % 64 ≤ 4 then sampleRule rd h ((o - 0x25000) / 64)
  else true

/-- The rules that join the word at an address with others hold (corners DEDUCED, log 23). -/
def joined (image : Bool) (rd : Nat → Word) (a : Nat) : Bool :=
  match halfOffset a with
  | some (h, o) => halfJoined rd h o
  | none =>
    if 0x60000 ≤ a ∧ a < 0x60180 ∧ a % 64 ≤ 4 then frameRule rd ((a - 0x60000) / 64)
    else if image && decide (0x51000 ≤ a ∧ a < 0x52000) then stateRule rd a
    else true

/-! ### Registers that change only in IDLE or SAFE (R74, R85, R123, R233, "Safety architecture") -/

/-- Whether code 0x16 MODE bars a change from `old` to `v` while the halves are idle or safe as told. -/
def modeBars (idle : Half → Bool) (a : Nat) (old v : Word) : Bool :=
  match halfOffset a with
  | some (h, o) =>
    (decide (o = 0x0 ∨ o = 0x18 ∨ o = 0x1000 ∨ o = 0x100C ∨ o = 0x1010 ∨ (0x1200 ≤ o ∧ o < 0x2000)) ||
      (decide (0x20000 ≤ o ∧ o < 0x20040) && (getB v F.GAO_CFG_VSEL != getB old F.GAO_CFG_VSEL))) && !idle h
  | none => decide (a = Reg.SAF_REACT ∨ a = Reg.SAF_CFG) && !(idle .a && idle .b)

end Legal

end Sys2Proof.Machine
end

