-- ==== Sys2Proof/Machine/Mule.lean ====
section
/-! DEFINITION. The channels of the Mule: sets, requests, completion (R303 to R306, R311 to R315), and what
lies at an address (R379 to R385). -/

namespace Sys2Proof.Machine

open Sys2Proof

/-- What an address belongs to (R379, R380). -/
inductive Region where
  | reg
  | image
  | log
  | learned
  | stream
  deriving DecidableEq, Repr

namespace Dev

/-- The region of a mapped address; `none` where nothing is mapped, on a TZN-5110 also in the ranges of
R385. -/
def regionAt (d : Dev) (a : Nat) : Option Region :=
  if d.grade = .tzn5110 ∧ halfBOnly a = true then none
  else if inRange a 0x200000 0x40000 then some .image
  else if inRange a 0x300000 0x10000 then some .log
  else if inRange a 0x310000 0x1800 then some .learned
  else if inRange a 0x340000 0x20000 then some .stream
  else if (regAt (a / 4 * 4)).isSome then some .reg
  else none

/-- Whether a range lies wholly in mapped memory of one kind: both ends do, and no hole lies between. Holes
are at least 1 KB wide and windows end on 1 KB boundaries, so steps of 512 bytes meet every one. -/
def mapped (d : Dev) (a n : Nat) : Bool :=
  let r := d.regionAt a
  r.isSome && decide (d.regionAt (a + n - 1) = r) &&
    (List.range (n / 512 + 1)).all fun i =>
      decide (a + n ≤ a + 512 * i) || decide (d.regionAt (a + 512 * i) = r)

/-- An address in a register region. -/
def isReg (d : Dev) (a : Nat) : Bool := decide (d.regionAt a = some .reg)

/-- A channel's hidden entry. -/
def muleC (d : Dev) (c : Nat) : Mule := sparseGet Init.mule d.mule c

/-- A channel's hidden entry replaced. -/
def setMule (d : Dev) (c : Nat) (x : Mule) : Dev := { d with mule := sparseSet Init.mule d.mule c x }

/-! ### Sets (R303, R304, R309, R310) -/

/-- One side of a set: its mode and the size of its ring. -/
structure Side where
  mode : Nat
  ring : Nat

/-- The source side and the destination side of a set control word. -/
def srcSide (ctl : Word) : Side := ⟨getF ctl F.MULE_SCTL_SMODE, 2 ^ (getF ctl F.MULE_SCTL_SRSZ + 8)⟩
def dstSide (ctl : Word) : Side := ⟨getF ctl F.MULE_SCTL_DMODE, 2 ^ (getF ctl F.MULE_SCTL_DRSZ + 8)⟩

/-- The swap unit in bytes (R310). -/
def swapUnit (ctl : Word) : Nat := [1, 2, 4, 4].getD (getF ctl F.MULE_SCTL_SWAP) 1

/-- Whether a side of a set passes the checks of R304 (corners DEDUCED, log 47). -/
def sideOk (d : Dev) (s : Side) (a n : Nat) : Bool :=
  let reg := d.isReg a
  let aligned := decide (a % 4 = 0 ∧ n % 4 = 0)
  match s.mode with
  | 0 => d.mapped a n && (!reg || aligned)
  | 1 => d.mapped a 1 && reg && aligned
  | 2 => decide (s.ring ≤ 2 ^ 17) && d.mapped (a / s.ring * s.ring) s.ring && (!reg || aligned)
  | _ => false

/-- The checks of a set at its load (R304) (corners DEDUCED, log 47). -/
def setOk (d : Dev) (src dst len : Nat) (ctl : Word) : Bool :=
  decide (len ≠ 0) && decide (len % swapUnit ctl = 0) && d.sideOk (srcSide ctl) src len &&
    d.sideOk (dstSide ctl) dst len

/-- An address moved on by `n` bytes (R307) (corners DEDUCED, log 47). -/
def sideAt (s : Side) (a n : Nat) : Nat :=
  match s.mode with
  | 1 => a
  | 2 => a / s.ring * s.ring + (a % s.ring + n) % s.ring
  | _ => a + n

/-! ### Flags and interrupts (R311, R313) -/

/-- The interrupt source of a channel. -/
def muleRaise (d : Dev) (c : Nat) : Dev := d.raise (0xF0 + c)

/-- A set marked BAD (R304, R313). -/
def muleBad (d : Dev) (c cause : Nat) : Dev :=
  let a := Reg.MULE_FLAG c
  (((d.mark a F.MULE_FLAG_BAD).setF a F.MULE_FLAG_BADC cause).incF (Reg.MULE_SETS c)
    F.MULE_SETS_BADSETS).muleRaise c

/-- The active set of a channel given up: the channel is IDLE. -/
def muleIdle (d : Dev) (c : Nat) : Dev :=
  d.setMule c { d.muleC c with
    active := false, inBurst := false, size := 0, buf := [], done := 0, readback := false }

/-- The active set as the registers show it. -/
def showSet (d : Dev) (c src dst len : Nat) : Dev :=
  ((d.wr (Reg.MULE_ASADDR c) (BitVec.ofNat 32 src)).wr (Reg.MULE_ADADDR c) (BitVec.ofNat 32 dst)).wr
    (Reg.MULE_ALEN c) (BitVec.ofNat 32 len)

/-- The shadow set loaded (R303, R304): a set that fails its checks is BAD and leaves the channel IDLE (corners DEDUCED,
log 47). -/
def muleLoad (d : Dev) (c : Nat) : Dev :=
  let src := (d.rd (Reg.MULE_SSADDR c)).toNat
  let dst := (d.rd (Reg.MULE_SDADDR c)).toNat
  let len := d.f (Reg.MULE_SLEN c) F.MULE_SLEN_LEN
  let ctl := d.rd (Reg.MULE_SCTL c)
  let d1 := ((d.setB (Reg.MULE_STAT c) F.MULE_STAT_VALID false).showSet c src dst len).wr (Reg.MULE_ACTL c) ctl
  if d.setOk src dst len ctl then
    d1.setMule c { d1.muleC c with
      active := true, src := src, dst := dst, len := len, inBurst := false, size := 0, buf := [], done := 0
      readback := false }
  else (d1.muleIdle c).muleBad c 4

/-- The same set again (R303): RING addresses go on, INC and FIX addresses restart. -/
def muleRepeat (d : Dev) (c : Nat) : Dev :=
  let x := d.muleC c
  let ctl := d.rd (Reg.MULE_ACTL c)
  let src := if (srcSide ctl).mode = 2 then (d.rd (Reg.MULE_ASADDR c)).toNat else x.src
  let dst := if (dstSide ctl).mode = 2 then (d.rd (Reg.MULE_ADADDR c)).toNat else x.dst
  (d.showSet c src dst x.len).setMule c { x with
    inBurst := false, size := 0, buf := [], done := 0, readback := false }

/-- What follows the end of a set (R303, R312). -/
def muleNext (d : Dev) (c : Nat) : Dev :=
  let st := Reg.MULE_STAT c
  let d := d.setMule c { d.muleC c with bound := some (d.now / 2, d.bit st F.MULE_STAT_VALID) }
  if d.bit st F.MULE_STAT_STOP_PEND then
    (((d.setB st F.MULE_STAT_STOP_PEND false).setB (Reg.MULE_CFG c) F.MULE_CFG_EN false)).muleIdle c
  else if d.bit st F.MULE_STAT_VALID then d.muleLoad c
  else if d.bit (Reg.MULE_ACTL c) F.MULE_SCTL_REPEAT then d.muleRepeat c
  else d.muleIdle c

/-- A set completed (R311). -/
def muleDone (d : Dev) (c : Nat) : Dev :=
  let d1 := (d.mark (Reg.MULE_FLAG c) F.MULE_FLAG_DONE).incF (Reg.MULE_SETS c) F.MULE_SETS_DONESETS
  let d2 := if d1.bit (Reg.MULE_CFG c) F.MULE_CFG_IE then d1.muleRaise c else d1
  d2.muleNext c

/-- A bus error in a set (R313). -/
def muleError (d : Dev) (c cause : Nat) : Dev := (d.muleBad c cause).muleNext c

/-! ### Commands and requests (R303, R305, R306, R312, R315) -/

/-- Whether the set of a channel ended in this SYS cycle, with or without a load of its shadow set. -/
def endedNow (d : Dev) (c : Nat) (loaded : Bool) : Bool := decide ((d.muleC c).bound = some (d.now / 2, loaded))

/-- COMMIT (R303): the shadow set VALID; an enabled channel that holds no set loads it, and one whose set ended in this
cycle loads it in place of the repeat (R315). -/
def muleCommit (d : Dev) (c : Nat) : Dev :=
  let d1 := d.setB (Reg.MULE_STAT c) F.MULE_STAT_VALID true
  if d.bit (Reg.MULE_CFG c) F.MULE_CFG_EN && (!(d.muleC c).active || d.endedNow c false) then d1.muleLoad c else d1

/-- STOP (R312): in the cycle in which a set ends it takes effect at that end, and a shadow set loaded there is VALID again
(R315). -/
def muleStop (d : Dev) (c : Nat) : Dev :=
  if (d.muleC c).active then
    if d.endedNow c true || d.endedNow c false then
      let d1 := if d.endedNow c true then d.setB (Reg.MULE_STAT c) F.MULE_STAT_VALID true else d
      (d1.setB (Reg.MULE_CFG c) F.MULE_CFG_EN false).muleIdle c
    else d.setB (Reg.MULE_STAT c) F.MULE_STAT_STOP_PEND true
  else d.setB (Reg.MULE_CFG c) F.MULE_CFG_EN false

/-- WITHDRAW. -/
def muleWithdraw (d : Dev) (c : Nat) : Dev := d.setB (Reg.MULE_STAT c) F.MULE_STAT_VALID false

/-- A write of MULE_CFG acts on EN and IE (R303, R315). -/
def muleCfg (d : Dev) (c : Nat) (v : Word) : Dev :=
  let a := Reg.MULE_CFG c
  let d1 := d.setB a F.MULE_CFG_IE (getB v F.MULE_CFG_IE)
  match getB v F.MULE_CFG_EN, d.bit a F.MULE_CFG_EN with
  | true, false =>
    let d2 := d1.setB a F.MULE_CFG_EN true
    if d2.bit (Reg.MULE_STAT c) F.MULE_STAT_VALID && !(d2.muleC c).active then d2.muleLoad c else d2
  | false, true => d1.muleStop c
  | _, _ => d1

/-- The bits of a shadow word that a write sets. -/
def shadowMask (w : Nat) : Word := [0xFFFFFFFF, 0xFFFFFFFF, 0xFFFFF, 0x7FFFF].getD w 0

/-- A write of a shadow word (R303). -/
def muleShadow (d : Dev) (c w : Nat) (v : Word) : Dev :=
  if d.bit (Reg.MULE_STAT c) F.MULE_STAT_VALID then
    d.busErr.mark (Reg.MULE_FLAG c) F.MULE_FLAG_SHW_DENIED
  else d.wr (Reg.MULE_SSADDR c + 4 * w) (v &&& shadowMask w)

/-- One request for one channel (R305, R306); those of one SYS cycle count as one (corners DEDUCED, log 47). -/
def muleReq1 (d : Dev) (c : Nat) : Dev :=
  let x := d.muleC c
  if x.lastReq = some (d.now / 2) then d
  else if x.reqs.length < 15 then
    d.setMule c { x with reqs := x.reqs ++ [d.now / 2], lastReq := some (d.now / 2) }
  else
    ((d.setMule c { x with lastReq := some (d.now / 2) }).mark (Reg.MULE_FLAG c) F.MULE_FLAG_REQ_OVR).muleRaise c

/-- The channels that a source line reaches (R305): the directed lines reach one channel. -/
def muleReach (d : Dev) (src line c : Nat) : Bool :=
  decide (d.f (Reg.MULE_CFG c) F.MULE_CFG_SRC = src) &&
    (!(decide (38 ≤ src ∧ src ≤ 40) || decide (src = 45)) || decide (c = line))

/-- A request line is raised (R305). -/
def muleReq (d : Dev) (src line : Nat) : Dev :=
  ((List.range 16).filter (d.muleReach src line)).foldl muleReq1 d

/-- A write of MULE_SWREQ. -/
def muleSw (d : Dev) (v : Word) : Dev := (bitsOf v 16).foldl (fun d c => d.muleReq 45 c) d

/-- READY (R303): image-enabled channels with a shadow length load. -/
def muleReady (d : Dev) : Dev :=
  (List.range 16).foldl
    (fun d c => if d.bit (Reg.MULE_CFG c) F.MULE_CFG_EN && decide (d.rd (Reg.MULE_SLEN c) ≠ 0) then
        d.muleLoad c else d) d

/-! ### Whose turn it is (R308, R314) -/

/-- PRIO of a channel. -/
def mulePrio (d : Dev) (c : Nat) : Nat := d.f (Reg.MULE_CFG c) F.MULE_CFG_PRIO

/-- A channel that has work: a burst begun, or a request and a set. -/
def muleWork (d : Dev) (c : Nat) : Bool :=
  let x := d.muleC c
  x.active && !x.readback && (x.inBurst || !x.reqs.isEmpty)

/-- Whether channel `b` goes before channel `c` (R308): a higher level; at one level a burst begun, then the
older request, then the lower number. -/
def goesBefore (d : Dev) (b c : Nat) : Bool :=
  let x := d.muleC b
  let y := d.muleC c
  let tx := x.reqs.headD 0
  let ty := y.reqs.headD 0
  decide (d.mulePrio c < d.mulePrio b) ||
    (decide (d.mulePrio b = d.mulePrio c) &&
      ((x.inBurst && !y.inBurst) ||
        (x.inBurst == y.inBurst && (decide (tx < ty) || (decide (tx = ty) && decide (b < c))))))

/-- Whether the next access belongs to a channel: it has work, no other goes before it, no read-back
runs, and the Mule is not frozen. -/
def muleTurn (d : Dev) (c : Nat) : Bool :=
  decide (d.mode = .operate ∨ d.mode = .service) && d.muleWork c &&
    (List.range 16).all fun b =>
      decide (b = c) || (!(d.muleC b).readback && !(d.muleWork b && d.goesBefore b c))

/-! ### Views -/

/-- MULE_STATc (corners DEDUCED, log 47). -/
def muleStatView (d : Dev) (c : Nat) : Word :=
  let x := d.muleC c
  let st := d.rd (Reg.MULE_STAT c)
  let code :=
    if !x.active then 0
    else if d.mode = .halt then 5
    else if x.readback then 4
    else if x.inBurst then (if d.muleTurn c then 2 else 3)
    else 1
  BitVec.ofNat 32 ((x.buf.length - x.done) * 2 ^ 24 + x.reqs.length * 2 ^ 12 +
    bnat (getB st F.MULE_STAT_STOP_PEND) * 2 ^ 9 + bnat (getB st F.MULE_STAT_VALID) * 2 ^ 8 + code)

/-- MULE_SUM. -/
def muleSumView (d : Dev) : Word :=
  let act := maskOf 16 fun c => (d.muleC c).active
  let flg := maskOf 16 fun c => decide (getF (d.rd (Reg.MULE_FLAG c)) ⟨3, 0⟩ ≠ 0)
  flg ||| (act <<< (16 : Nat))

end Dev

/-! ### The commands -/

/-- MULE_COMMIT (R303). -/
def execMuleCommit (t : Tick) (_m : Master) (c : Fin 16) (s : State) : Out :=
  s.onDev t fun d => d.onWrite (Reg.MULE_CMD c.val) fun d => d.muleCommit c.val

/-- MULE_STOP (R312). -/
def execMuleStop (t : Tick) (_m : Master) (c : Fin 16) (s : State) : Out :=
  s.onDev t fun d => d.onWrite (Reg.MULE_CMD c.val) fun d => d.muleStop c.val

/-- MULE_WITHDRAW (R303). -/
def execMuleWithdraw (t : Tick) (_m : Master) (c : Fin 16) (s : State) : Out :=
  s.onDev t fun d => d.onWrite (Reg.MULE_CMD c.val) fun d => d.muleWithdraw c.val

/-- MULE_ENABLE_WRITE (R303, R315). -/
def execMuleEnableWrite (t : Tick) (_m : Master) (c : Fin 16) (v : Word) (s : State) : Out :=
  s.onDev t fun d => d.onWrite (Reg.MULE_CFG c.val) fun d => d.muleCfg c.val v

/-- MULE_SHADOW_WRITE (R303). -/
def execMuleShadowWrite (t : Tick) (_m : Master) (c : Fin 16) (w : Fin 4) (v : Word) (s : State) : Out :=
  s.onDev t fun d => d.onWrite (Reg.MULE_SSADDR c.val + 4 * w.val) fun d => d.muleShadow c.val w.val v

/-- MULE_REQUEST (R305, R306). -/
def execMuleRequest (t : Tick) (src : Fin 46) (line : Fin 16) (s : State) : Out :=
  s.onDev t fun d => (d.unsend (.mule src.val line.val)).muleReq src.val line.val

/-- MULE_SOFTWARE_REQUEST (R305). -/
def execMuleSoftwareRequest (t : Tick) (_m : Master) (v : Word) (s : State) : Out :=
  s.onDev t fun d => d.onWrite Reg.MULE_SWREQ fun d => d.muleSw v

end Sys2Proof.Machine
end

