-- ==== Sys2Proof/Machine/Whole.lean ====
section
/-! DEFINITION. The whole-configuration checks 0x40 to 0x4D (R65), as the image load and a transaction run
them (R77), and the registers that each of them reads (R80). -/

namespace Sys2Proof.Machine

open Sys2Proof

/-- A configuration under check: its register words, the demand words by half, slot and word, the halves
that are enabled, the functions of the PINS records by signal number, what is mapped. -/
structure Cfg where
  rd : Nat → Word
  dm : Half → Nat → Nat → Word
  on : Half → Bool
  pins : List (Nat × Nat)
  mapped : Nat → Nat → Bool

namespace Cfg

/-- The enabled halves. -/
def halves (x : Cfg) : List Half := [Half.a, Half.b].filter x.on

/-- The function of a ball: its record, or the primary one (R60, R389). -/
def pinFn (x : Cfg) (n : Nat) : Nat := sparseGet 0 x.pins n

/-- The first failure among the enabled halves. -/
def perHalf (x : Cfg) (p : Half → Option Nat) : Option Nat := x.halves.findSome? p

/-- An address, if a condition fails. -/
def need (ok : Bool) (a : Nat) : Option Nat := if ok then none else some a

/-- The angles of a list rise strictly and stay below a bound. -/
def rising (top : Nat) : List Nat → Bool
  | [] => true
  | [a] => decide (a < top)
  | a :: b :: l => decide (a < b) && rising top (b :: l)

/-! ### 0x40 to 0x44 -/

/-- 0x40: the wheel table of a half. -/
def c40 (x : Cfg) (h : Half) : Option Nat :=
  let n := getF (x.rd (Reg.WHL_WCFG h)) F.WHL_WCFG_NENT
  let ws := (List.range (min n 512)).map fun i => x.rd (Reg.WHL_WTAB h i)
  (need (decide (1 ≤ n ∧ n ≤ 512)) (Reg.WHL_WCFG h)).or
    (need ((ws.any fun w => getB w F.WHL_WTAB_REF) &&
      rising rev (ws.map fun w => getF w F.WHL_WTAB_ANGLE)) (Reg.WHL_WTAB h 0))

/-- 0x41: the cam tables of a half (corners DEDUCED, log 25). -/
def c41 (x : Cfg) (h : Half) : Option Nat :=
  (List.range 4).findSome? fun c =>
    let n := getF (x.rd (Reg.WHL_CAMN h)) ⟨8 * c + 5, 8 * c⟩
    (need (decide (n ≤ 32)) (Reg.WHL_CAMN h)).or
      (need (rising (Legal.cyc x.rd h) ((List.range n).map fun j =>
        getF (x.rd (Reg.WHL_CAMTAB h c j)) F.WHL_CAMTAB_ANGLE)) (Reg.WHL_CAMTAB h c 0))

/-- The channels of a half with EN set. -/
def channels (x : Cfg) (h : Half) : List Nat :=
  (List.range 256).filter fun c => getB (x.rd (Reg.EVC_CTRL h c)) F.EVC_CTRL_EN

/-- The action and the target of a channel. -/
def actOf (x : Cfg) (h : Half) (c : Nat) : Nat × Nat :=
  let w := x.rd (Reg.EVC_CTRL h c)
  (getF w F.EVC_CTRL_ACTION, getF w F.EVC_CTRL_TARGET)

/-- 0x42: an enabled channel names a profile that is not defined. -/
def c42 (x : Cfg) (h : Half) : Option Nat :=
  (x.channels h).findSome? fun c =>
    if (x.actOf h c).1 = 6 then
      let p := (valsOf x.rd (x.dm h) h c).profile
      need (getB (x.rd (Reg.DRV_PCFG h p)) F.DRV_PCFG_VALID) (Reg.EVC_CTRL h c)
    else none

/-- An accumulator of a half is there and enabled (corners DEDUCED, log 24). -/
def accThere (x : Cfg) (h : Half) (n : Nat) : Bool := x.on h && getB (x.rd (Reg.ACC_CFG h n)) F.ACC_CFG_EN

/-- The converter of an urgent entry of a half is there and enabled. -/
def urgThere (x : Cfg) (h : Half) (n : Nat) : Bool :=
  x.on h && getB (x.rd (Reg.ADC_CFG h (getF (x.rd (Reg.ADC_URG h n)) F.ADC_URG_CONV))) F.ADC_CFG_EN

/-- A Mule channel is enabled (corners DEDUCED, log 24). -/
def muleThere (x : Cfg) (n : Nat) : Bool := getB (x.rd (Reg.MULE_CFG n)) F.MULE_CFG_EN

/-- The destination of an action of a half is there and enabled (R157). Timers and Colt engines have no
enable (corners DEDUCED, log 24). -/
def targetThere (x : Cfg) (h : Half) (act n : Nat) : Bool :=
  match act with
  | 1 | 2 | 3 | 4 => getB (x.rd (Reg.GAO_CFG h n)) F.GAO_CFG_EN
  | 5 => getB (x.rd (Reg.IGN_CFG h n)) F.IGN_CFG_EN
  | 6 =>
    let w := x.rd (Reg.DRV_BANKCFG h (n / 2))
    getB w F.DRV_BANKCFG_EN &&
      getB w (if n % 2 = 0 then F.DRV_BANKCFG_LS0_EN else F.DRV_BANKCFG_LS1_EN)
  | 7 => x.urgThere h n
  | 8 | 9 | 0xA => x.accThere h n
  | 0xD => x.muleThere n
  | _ => true

/-- The destination of a timer's trigger is there and enabled (R239). -/
def triggerThere (x : Cfg) (n : Nat) : Bool :=
  let w := x.rd (Reg.TMR_CTRL n)
  let t := getF w F.TMR_CTRL_TGT
  let h := if getB w F.TMR_CTRL_THALF then Half.b else .a
  match getF w F.TMR_CTRL_TRIG with
  | 1 => x.urgThere h t
  | 2 | 3 => x.accThere h t
  | 4 => x.muleThere t
  | _ => true

/-- 0x43: an enabled channel, or a timer trigger, names what is absent or not enabled (corners DEDUCED, log 24). -/
def c43 (x : Cfg) : Option Nat :=
  (x.perHalf fun h => (x.channels h).findSome? fun c =>
    let t := x.actOf h c
    need (x.targetThere h t.1 t.2) (Reg.EVC_CTRL h c)).or
  ((List.range 64).findSome? fun n => need (x.triggerThere n) (Reg.TMR_CTRL n))

/-- 0x44: a demand slot above 127 (R158) (corners DEDUCED, log 25). -/
def c44 (x : Cfg) (h : Half) : Option Nat :=
  (List.range 256).findSome? fun c =>
    let s := getF (x.rd (Reg.EVC_CTRL h c)) F.EVC_CTRL_DSLOT
    need (decide (s ≤ 127 ∨ s = 0xFF)) (Reg.EVC_CTRL h c)

/-- The registers of the destination of an action of a half that 0x43 reads. -/
def targetRegs (x : Cfg) (h : Half) (act n : Nat) : List Nat :=
  match act with
  | 1 | 2 | 3 | 4 => [Reg.GAO_CFG h n]
  | 5 => [Reg.IGN_CFG h n]
  | 6 => [Reg.DRV_BANKCFG h (n / 2)]
  | 7 => [Reg.ADC_URG h n, Reg.ADC_CFG h (getF (x.rd (Reg.ADC_URG h n)) F.ADC_URG_CONV)]
  | 8 | 9 | 0xA => [Reg.ACC_CFG h n]
  | 0xD => [Reg.MULE_CFG n]
  | _ => []

/-- The registers of the destination of a timer's trigger that 0x43 reads. -/
def triggerRegs (x : Cfg) (n : Nat) : List Nat :=
  let w := x.rd (Reg.TMR_CTRL n)
  let t := getF w F.TMR_CTRL_TGT
  let h := if getB w F.TMR_CTRL_THALF then Half.b else .a
  match getF w F.TMR_CTRL_TRIG with
  | 1 => x.targetRegs h 7 t
  | 2 | 3 => x.targetRegs h 8 t
  | 4 => x.targetRegs h 0xD t
  | _ => []

/-- The registers that 0x42 reads in a half: the channel words, and the profiles that its enabled DRV
channels name. -/
def reads42 (x : Cfg) (h : Half) (a : Nat) : Bool :=
  (List.range 256).any (fun c => decide (a = Reg.EVC_CTRL h c)) || (x.channels h).any fun c =>
    decide ((x.actOf h c).1 = 6) && (decide (a = Reg.EVC_AUX h c) ||
      decide (a = Reg.DRV_PCFG h (valsOf x.rd (x.dm h) h c).profile))

/-- The registers that 0x43 reads: the channel and timer words, and what they name. -/
def reads43 (x : Cfg) (a : Nat) : Bool :=
  (x.halves.any fun h => (List.range 256).any (fun c => decide (a = Reg.EVC_CTRL h c)) ||
    (x.channels h).any fun c => let t := x.actOf h c; (x.targetRegs h t.1 t.2).contains a) ||
  (List.range 64).any fun n => decide (a = Reg.TMR_CTRL n) || (x.triggerRegs n).contains a

/-! ### 0x45 and 0x46: the balls (R60, R97, R284, R387, R389) -/

/-- Whether an engine owns a Colt pin. -/
def owned (x : Cfg) (k : Nat) : Bool := (x.rd (Reg.COLT_PINOWN (k / 8))).getLsbD (4 * (k % 8) + 3)

/-- 0x45: a pin that carries CRK_OUT is owned by an engine (R284). -/
def c45 (x : Cfg) : Option Nat :=
  (List.range 16).findSome? fun k => need (!(x.owned k && decide (x.pinFn (278 + k) = 1)))
    (Reg.COLT_PINOWN (k / 8))

/-- A word whose bit calls for balls: the word's address, the condition, the balls. -/
abbrev Claim := Nat × Bool × List Nat

/-- An urgent entry of a half is used: an enabled channel, an enabled compare or a timer asks for it (R260) (corners
DEDUCED, log 24). -/
def urgUsed (x : Cfg) (h : Half) (e : Nat) : Bool :=
  ((x.channels h).any fun c => decide (x.actOf h c = (7, e))) ||
  ((List.range 8).any fun n =>
    let w := x.rd (Reg.ASC_CTRL h n)
    getB w F.ASC_CTRL_EN && decide (getF w F.ASC_CTRL_ACTION = 1 ∧ getF w F.ASC_CTRL_TARGET % 16 = e)) ||
  (List.range 64).any fun n =>
    let w := x.rd (Reg.TMR_CTRL n)
    decide (getF w F.TMR_CTRL_TRIG = 1 ∧ getF w F.TMR_CTRL_TGT % 16 = e) &&
      (getB w F.TMR_CTRL_THALF == decide (h = .b))

/-- What an enabled half claims on the sensor and output side; its own crank input counts as enabled. -/
def claimsHalf (x : Cfg) (h : Half) : List Claim :=
  let i := Dev.halfNo h
  let sns := x.rd (Reg.SNS_CFG h)
  let shared := decide (h = .b) && getB (x.rd (Reg.SNS_SHARE .b)) F.SNS_SHARE_SHARE
  let bank := fun b => x.rd (Reg.DRV_BANKCFG h b)
  [(Reg.SNS_CFG h, !shared, [194 + 7 * i]),
    (Reg.SNS_CFG h, !shared && decide (getF sns F.SNS_CFG_DIRSRC = 2), [196 + 7 * i])] ++
  (List.range 4).map (fun c => (Reg.SNS_CFG h, sns.getLsbD (8 + c), [197 + 7 * i + c])) ++
  (List.range 6).map (fun b => (Reg.DRV_BANKCFG h b, getB (bank b) F.DRV_BANKCFG_EN,
    (List.range 7).map fun j => 42 * i + 7 * b + j)) ++
  (List.range 12).map (fun n => (Reg.DRV_BANKCFG h (n / 2), getB (bank (n / 2)) F.DRV_BANKCFG_EN &&
    (bank (n / 2)).getLsbD (1 + n % 2), [84 + 12 * i + n, 108 + 12 * i + n])) ++
  [(Reg.BST_CTRL h, getB (x.rd (Reg.BST_CTRL h)) F.BST_CTRL_EN, [132 + 3 * i, 133 + 3 * i, 134 + 3 * i])] ++
  (List.range 12).map (fun k => (Reg.IGN_CFG h k, getB (x.rd (Reg.IGN_CFG h k)) F.IGN_CFG_EN,
    [138 + 12 * i + k])) ++
  (List.range 16).map (fun k => (Reg.GAO_CFG h k, getB (x.rd (Reg.GAO_CFG h k)) F.GAO_CFG_EN,
    [162 + 16 * i + k])) ++
  (List.range 2).map (fun k => (Reg.ADC_KNK h k, getB (x.rd (Reg.ADC_KNK h k)) F.ADC_KNK_EN,
    [208 + 4 * i + 2 * k, 209 + 4 * i + 2 * k])) ++
  (List.range 64).map (fun e =>
    let cfg := x.rd (Reg.ADC_CFG h (e / 32))
    let n := getF (x.rd (Reg.ADC_SEQ h 0 e)) F.ADC_SEQ_INPUT
    (Reg.ADC_SEQ h 0 e, getB cfg F.ADC_CFG_EN && decide (e % 32 < getF cfg F.ADC_CFG_LEN) &&
      decide (n ≤ 11), [216 + 12 * i + n])) ++
  (List.range 16).map (fun e =>
    let n := getF (x.rd (Reg.ADC_URG h e)) F.ADC_URG_INPUT
    (Reg.ADC_URG h e, x.urgUsed h e && decide (n ≤ 11), [216 + 12 * i + n])) ++
  [(Reg.ADC_PLCFG h, decide (getF (x.rd (Reg.ADC_PLCFG h)) F.ADC_PLCFG_PL_N ≠ 0 ∧
    getF (x.rd (Reg.ADC_PLCFG h)) F.ADC_PLCFG_PL_CH ≤ 11),
    [216 + 12 * i + getF (x.rd (Reg.ADC_PLCFG h)) F.ADC_PLCFG_PL_CH])]

/-- The balls that an enabled repeat output needs as CRK_OUT (R97): the register, the pin. -/
def repeats (x : Cfg) (h : Half) : List (Nat × Nat) :=
  ((List.range 2).filter fun m => getB (x.rd (Reg.CRKO_CTRL h m)) F.CRKO_CTRL_EN).map
    fun m => (Reg.CRKO_CTRL h m, 290 + 2 * Dev.halfNo h + m)

/-- What the device blocks claim. -/
def claimsDev (x : Cfg) : List Claim :=
  (List.range 32).map (fun c => (Reg.PWM_CFG c, getB (x.rd (Reg.PWM_CFG c)) F.PWM_CFG_EN, [242 + c])) ++
  (List.range 64).map (fun n => (Reg.PWM_PAIRCFG (n / 4), (x.rd (Reg.PWM_PAIRCFG (n / 4))).getLsbD (4 + n % 4),
    [274 + n % 4])) ++
  (List.range 16).map (fun k => (Reg.COLT_PINOWN (k / 8), x.owned k, [278 + k])) ++
  (List.range 6).map (fun r => (Reg.SNT_CFG r, getB (x.rd (Reg.SNT_CFG r)) F.SNT_CFG_EN, [294 + r]))

/-- 0x46: an enabled output, input or Colt pin has no ball in its function. -/
def c46 (x : Cfg) : Option Nat :=
  let l := x.halves.flatMap x.claimsHalf ++ x.claimsDev
  (l.findSome? fun c => need (!c.2.1 || c.2.2.all fun n => decide (x.pinFn n = 0)) c.1).or
    ((x.halves.flatMap x.repeats).findSome? fun c => need (decide (x.pinFn c.2 = 1)) c.1)

/-! ### 0x47 to 0x4D -/

/-- 0x47: minimum above maximum; the thresholds of R213 out of order. -/
def c47 (x : Cfg) (h : Half) : Option Nat :=
  let sl := x.rd (Reg.DMD_SHOTLIM h)
  let dw := x.rd (Reg.DMD_DWELL h)
  let vc := x.rd (Reg.BST_VCFG h)
  let pr := x.rd (Reg.BST_PROT h)
  let tg := getF vc F.BST_VCFG_TARGET
  ((need (decide (getF sl F.DMD_SHOTLIM_SHOTMIN ≤ 10 * getF sl F.DMD_SHOTLIM_SHOTMAX)) (Reg.DMD_SHOTLIM h)).or
    (need (decide (getF dw F.DMD_DWELL_DWMIN ≤ getF dw F.DMD_DWELL_DWMAX)) (Reg.DMD_DWELL h))).or
    (need (decide (getF pr F.BST_PROT_UV ≤ getF vc F.BST_VCFG_START ∧ getF vc F.BST_VCFG_START ≤ tg ∧
      tg < getF pr F.BST_PROT_OV ∧ getF pr F.BST_PROT_OV ≤ 312)) (Reg.BST_VCFG h))

/-- A defined profile passes R204 (corners DEDUCED, log 25). -/
def profileOk (x : Cfg) (h : Half) (p : Nat) : Bool :=
  let bo := x.rd (Reg.DRV_PBOOST h p)
  let pk := x.rd (Reg.DRV_PPEAK h p)
  let ho := x.rd (Reg.DRV_PHOLD h p)
  let cf := x.rd (Reg.DRV_PCFG h p)
  let di := x.rd (Reg.DRV_PDIAG h p)
  let ne := x.rd (Reg.DRV_PNEEDLE h p)
  let lb := getF bo F.DRV_PBOOST_LEVEL
  let lp := getF pk F.DRV_PPEAK_LEVEL
  let lh := getF ho F.DRV_PHOLD_LEVEL
  let tm := getF bo F.DRV_PBOOST_TMAX
  let tx := getF di F.DRV_PDIAG_TTP_MAX
  let be := getB cf F.DRV_PCFG_BOOST_EN
  (if be then decide (1 ≤ lb ∧ lp ≤ lb ∧ 10 ≤ tm) else decide (bo = 0)) &&
    decide (lh ≤ lp ∧ 1 ≤ lh) &&
    decide (getF pk F.DRV_PPEAK_PHYST < lp ∧ getF ho F.DRV_PHOLD_HYST < lh) &&
    decide (getF di F.DRV_PDIAG_TTP_MIN < tx) && (!be || decide (tx ≤ tm)) &&
    decide (getF ne F.DRV_PNEEDLE_OWS < getF ne F.DRV_PNEEDLE_OWE) &&
    (!getB cf F.DRV_PCFG_HYDRAULIC || getB cf F.DRV_PCFG_NEEDLE_EN)

/-- 0x48: a defined profile outside R204 (corners DEDUCED, log 25). -/
def c48 (x : Cfg) (h : Half) : Option Nat :=
  (List.range 16).findSome? fun p =>
    need (!getB (x.rd (Reg.DRV_PCFG h p)) F.DRV_PCFG_VALID || x.profileOk h p) (Reg.DRV_PCFG h p)

/-- 0x49: the boost target outside 24 V to 75 V, the switching frequency outside 100 kHz to 400 kHz (corners DEDUCED, log
25). -/
def c49 (x : Cfg) (h : Half) : Option Nat :=
  (need (Legal.within (x.rd (Reg.BST_VCFG h)) F.BST_VCFG_TARGET 96 300) (Reg.BST_VCFG h)).or
    (need (Legal.within (x.rd (Reg.BST_CTRL h)) F.BST_CTRL_FSW 100 400) (Reg.BST_CTRL h))

/-- 0x4A: DEMAND_INIT fails a commit check that does not depend on speed (R191): every group counts as
committed. -/
def c4A (x : Cfg) (h : Half) : Option Nat :=
  (Dmd.View.slowChecks ⟨h, x.rd, x.dm h, 1⟩ (List.range 128)).map fun _ => Reg.DMD_ANGLE h 0

/-- 0x4B: two GAO voltage settings in one group of eight (R233). -/
def c4B (x : Cfg) (h : Half) : Option Nat :=
  (List.range 16).findSome? fun k =>
    need (getB (x.rd (Reg.GAO_CFG h k)) F.GAO_CFG_VSEL ==
      getB (x.rd (Reg.GAO_CFG h (k / 8 * 8))) F.GAO_CFG_VSEL) (Reg.GAO_CFG h k)

/-- The range of one side of a set lies in mapped memory. -/
def sideMapped (x : Cfg) (s : Dev.Side) (a n : Nat) : Bool :=
  match s.mode with
  | 1 => x.mapped a 1
  | 2 => x.mapped (a / s.ring * s.ring) s.ring
  | _ => x.mapped a n

/-- 0x4C: an address of a Mule channel's shadow set lies outside mapped memory; a set of length 0 has its first byte
judged (corners DEDUCED, log 24). -/
def c4C (x : Cfg) : Option Nat :=
  (List.range 16).findSome? fun c =>
    let n := max 1 (getF (x.rd (Reg.MULE_SLEN c)) F.MULE_SLEN_LEN)
    let ctl := x.rd (Reg.MULE_SCTL c)
    (need (x.sideMapped (Dev.srcSide ctl) (x.rd (Reg.MULE_SSADDR c)).toNat n) (Reg.MULE_SSADDR c)).or
      (need (x.sideMapped (Dev.dstSide ctl) (x.rd (Reg.MULE_SDADDR c)).toNat n) (Reg.MULE_SDADDR c))

/-- 0x4D: Half B shares a crank that Half A does not have. -/
def c4D (x : Cfg) : Option Nat :=
  need (!(x.on .b && getB (x.rd (Reg.SNS_SHARE .b)) F.SNS_SHARE_SHARE) ||
    (x.on .a && decide (x.pinFn 194 ≠ 0xFF))) (Reg.SNS_SHARE .b)

/-- The checks in the order of their codes (R65), each with the address of a register it fails at;
`init`: with 0x4A. -/
def checks (x : Cfg) (init : Bool) : List (Nat × Option Nat) :=
  [(0x40, x.perHalf x.c40), (0x41, x.perHalf x.c41), (0x42, x.perHalf x.c42), (0x43, x.c43),
    (0x44, x.perHalf x.c44), (0x45, x.c45), (0x46, x.c46), (0x47, x.perHalf x.c47), (0x48, x.perHalf x.c48),
    (0x49, x.perHalf x.c49), (0x4A, if init then x.perHalf x.c4A else none), (0x4B, x.perHalf x.c4B),
    (0x4C, x.c4C), (0x4D, x.c4D)]

/-- The first check that fails, with the address. -/
def firstFail (x : Cfg) (init : Bool) : Option (Nat × Nat) :=
  (x.checks init).findSome? fun c => c.2.map fun a => (c.1, a)

end Cfg

/-! ### What a check reads (R80) -/

/-- Whether the check of a code reads the register at an address of a half (corners DEDUCED, log 24). -/
def checkReadsHalf (x : Cfg) (code : Nat) (h : Half) (o a : Nat) : Bool :=
  let bank := decide (0x22040 ≤ o ∧ o < 0x220A0 ∧ o % 16 = 0)
  let gao := decide (0x20000 ≤ o ∧ o < 0x20040)
  let ign := decide (0x21000 ≤ o ∧ o < 0x210C0 ∧ o % 16 = 0)
  let adc := decide (0x24000 ≤ o ∧ o < 0x24240)
  match code with
  | 0x40 => decide (o = 0x1000 ∨ (0x1800 ≤ o ∧ o < 0x2000))
  | 0x41 => decide (o = 0x1000 ∨ o = 0x1010 ∨ (0x1200 ≤ o ∧ o < 0x1400))
  | 0x42 => x.reads42 h a
  | 0x43 => x.reads43 a
  | 0x44 => decide (0x10000 ≤ o ∧ o < 0x12000 ∧ o % 32 = 0)
  | 0x46 => decide (o = 0x0 ∨ o = 0x18 ∨ o = 0x200 ∨ o = 0x210 ∨ o = 0x23000) || bank || gao || ign || adc ||
      decide ((0x100 ≤ o ∧ o < 0x200 ∧ o % 32 = 0) ∨ (0x10000 ≤ o ∧ o < 0x12000 ∧ o % 32 = 0))
  | 0x47 => decide (o = 0x16028 ∨ o = 0x16034 ∨ o = 0x23004 ∨ o = 0x23008)
  | 0x48 => decide (0x22100 ≤ o ∧ o < 0x22300)
  | 0x49 => decide (o = 0x23000 ∨ o = 0x23004)
  | 0x4B => gao
  | 0x4D => decide (o = 0x18)
  | _ => false

/-- Whether the check of a code, failed at the address `at'`, reads the register at an address (R80): of the
checks that each half has of its own, the one of the half that failed (corners DEDUCED, log 24). -/
def checkReads (x : Cfg) (code at' a : Nat) : Bool :=
  match halfOffset a with
  | some (h, o) =>
    let own := match halfOffset at' with
      | some (k, _) => decide (code = 0x43 ∨ code = 0x46 ∨ k = h)
      | none => true
    own && checkReadsHalf x code h o a
  | none =>
    let pins := decide (a = 0x50200 ∨ a = 0x50204)
    match code with
    | 0x43 => x.reads43 a
    | 0x45 => pins
    | 0x46 => pins || decide (0x40000 ≤ a ∧ a < 0x40400 ∧ a % 32 = 0) ||
        decide (0x40400 ≤ a ∧ a < 0x40500 ∧ a % 16 = 0) || decide (0x30100 ≤ a ∧ a < 0x30900 ∧ a % 32 = 0) ||
        decide (0x60000 ≤ a ∧ a < 0x60180 ∧ a % 64 = 0)
    | 0x4C => decide (0x20000 ≤ a ∧ a < 0x20400)
    | _ => false

/-- Whether the commit checks of a half, or the one of a code, read the register at an address (R189) (corners DEDUCED, log
24). -/
def dmdCheckReads (h : Half) (code a : Nat) : Bool :=
  match halfOffset a with
  | some (k, o) =>
    let ch := decide (0x10000 ≤ o ∧ o < 0x12000 ∧ o % 32 ≤ 0x14 ∧ o % 32 ≠ 0x10)
    let cyc := decide (o = 0x1000)
    let spd := decide (o = 0x16024)
    let prof := decide (0x22100 ≤ o ∧ o < 0x22300)
    let ls := decide (0x16040 ≤ o ∧ o < 0x16070)
    decide (k = h) &&
      match code with
      | 0x20 => cyc || decide (0x10000 ≤ o ∧ o < 0x12000 ∧ o % 32 = 0)
      | 0x21 => ch || (prof && decide (o % 32 = 0xC))
      | 0x22 => ch || ls || decide (o = 0x1602C)
      | 0x23 => ch || ls || cyc || spd
      | 0x24 => ch || cyc || spd || decide (0x22040 ≤ o ∧ o < 0x220A0 ∧ o % 16 = 8)
      | 0x25 => ch || cyc || spd || prof || decide (o = 0x16030) ||
          decide (0x22040 ≤ o ∧ o < 0x220A0 ∧ o % 16 = 0)
      | 0x26 => ch || cyc || spd || ls || decide (o = 0x16028 ∨ o = 0x1602C)
      | 0x27 => ch || cyc || spd || decide (o = 0x16034)
      | _ => false
  | none => false

/-- Whether check 0x4A of a half reads the register at an address: its staged slots, and what the commit checks that do
not depend on speed read (R191). -/
def initReads (h : Half) (a : Nat) : Bool :=
  (match halfOffset a with
   | some (k, o) => decide (k = h ∧ 0x14000 ≤ o ∧ o < 0x16000)
   | none => false) || [0x20, 0x21, 0x22].any fun c => dmdCheckReads h c a

end Sys2Proof.Machine
end

