-- ==== Sys2Proof/Machine/Ctx.lean ====
section
/-! DEFINITION. Configuration transactions (R74 to R80): ownership of the buffer, COMMIT, the checks, the
switch with what each block makes of its changed registers. -/

namespace Sys2Proof.Machine

open Sys2Proof

/-- The code of a bus master in CTX_STAT.OWNER: the channels of the Mule are one master (R75) (corners DEDUCED, log 47). -/
def ownerCode : Master → Nat
  | .link => 1
  | .spi => 2
  | .mule _ => 3
  | .jtag => 4

/-- The bits of a register that an entry of a transaction or a record of the image sets. -/
def setMask (r : RegRow) : Word := BitVec.ofNat 32 (r.rw ||| r.tx)

namespace Dev

/-- CTX_STAT.STATE. -/
def ctxState (d : Dev) : Nat := d.f Reg.CTX_STAT F.CTX_STAT_STATE

/-- A master may act on the transaction: the buffer is free or its own. -/
def ctxMine (d : Dev) (m : Master) : Bool :=
  match d.ctxOwner with
  | none => true
  | some o => decide (ownerCode o = ownerCode m)

/-- A command to CTX_CTL by a master: another than the owner gets a bus error (R75). -/
def ctxCtl (d : Dev) (m : Master) (g : Dev → Dev) : Dev := if d.ctxMine m then g d else d.busErr

/-- BUSY (R80): CODE alone. -/
def ctxBusy (d : Dev) : Dev := d.setF Reg.CTX_STAT F.CTX_STAT_CODE 0x18

/-- OPEN (R75). -/
def ctxClaim (d : Dev) (m : Master) : Dev :=
  match d.ctxState with
  | 0 => { ((d.setF Reg.CTX_STAT F.CTX_STAT_STATE 1).setF Reg.CTX_STAT F.CTX_STAT_OWNER (ownerCode m)) with
      ctxOwner := some m }
  | 1 => d
  | _ => d.ctxBusy

/-- A half that an apply point names, absent. -/
def applyAbsent (d : Dev) (apply : Nat) : Bool :=
  match ctxAngleHalf apply with
  | some h => d.absent h
  | none => false

/-- The first condition that rejects a COMMIT (R77). -/
def commitCode (d : Dev) (count apply : Nat) : Option Nat :=
  let lo := (d.rd Reg.CTX_WHEN_LO).toNat
  if count = 0 ∨ 64 < count then some 0x10
  else if d.applyAbsent apply then some 0x14
  else if !d.operating then some 0x17
  else match ctxAngleHalf apply with
    | some h => if !d.issuing h then some 0x1A else if d.cycLen h ≤ lo then some 0x1C else none
    | none => none

/-- COMMIT by the owner while OPEN (R75 to R79). -/
def ctxStart (d : Dev) (count apply : Nat) : Dev :=
  match d.commitCode count apply with
  | some code => d.endCtx code 0 none
  | none =>
    let lo := (d.rd Reg.CTX_WHEN_LO).toNat
    let x : Ctx :=
      { count := count, apply := apply
        tick := lo + (d.rd Reg.CTX_WHEN_HI).toNat * 2 ^ 32
        target := match ctxAngleHalf apply with
          | some h => d.passageAfter h lo
          | none => 0
        speedA := d.rd (Reg.ANG_SPEED .a), speedB := d.rd (Reg.ANG_SPEED .b), waits := false
        checkEnd := none, late := false, reached := false }
    let d1 := { (d.setF Reg.CTX_STAT F.CTX_STAT_STATE 2) with ctx := some x }
    let busy := [Half.a, Half.b].any fun h => d1.ctxWrites h && (d1.half h).commit.isSome
    { d1 with ctx := some { x with waits := busy } }

/-- A COMMIT command (R75). -/
def ctxCommitCmd (d : Dev) (count apply : Nat) : Dev :=
  match d.ctxState with
  | 0 => d
  | 1 => d.ctxStart count apply
  | _ => d.ctxBusy

/-- An ABORT command (R75). -/
def ctxAbortCmd (d : Dev) : Dev := if d.ctxState = 0 then d else d.endCtx 0x19 0 none

/-- A write of a word of CTX_BUF (R75): taken from the owner while OPEN. -/
def ctxBuf (d : Dev) (m : Master) (k : Nat) (v : Word) : Dev :=
  if d.ctxState = 1 ∧ d.ctxMine m = true then d.wr (Reg.CTX_BUF k) v else d.busErr

/-! ### The checks (R77) -/

/-- The configuration as it would stand after the switch. -/
def proposed (d : Dev) (es : List (Nat × Word)) (a : Nat) : Word :=
  match es.find? fun e => decide (e.1 = a) with
  | some e =>
    match regAt a with
    | some (some r) => (d.rd a &&& ~~~(setMask r)) ||| (e.2 &&& setMask r)
    | _ => d.rd a
  | none => d.rd a

/-- The entry lies in the range of an absent half (R77). -/
def entryAbsent (d : Dev) (a : Nat) : Bool :=
  (match halfAt a with
   | some h => d.absent h
   | none => false) || (decide (d.grade = .tzn5110) && halfBOnly a)

/-- The row of a register that a transaction may change: it has a TX field. -/
def txRow (a : Nat) : Option RegRow :=
  match regAt a with
  | some (some r) => if a % 4 = 0 ∧ r.tx ≠ 0 then some r else none
  | _ => none

/-- Whether a half counts as idle or in SAFE for code 0x16: one that does not operate does. -/
def restful (d : Dev) (h : Half) : Bool := d.idleOrSafe h || decide (d.hmode h = .off)

/-- The code at which an entry fails (R77): `before` are the addresses of the earlier entries. -/
def entryCode (d : Dev) (es : List (Nat × Word)) (apply : Nat) (before : List Nat) (e : Nat × Word) :
    Option Nat :=
  if d.entryAbsent e.1 then some 0x14
  else match txRow e.1 with
    | none => some 0x11
    | some r =>
      let other := match ctxAngleHalf apply with
        | some h => decide (halfAt e.1 = some h.other)
        | none => false
      if !(Legal.word false e.1 r e.2 && Legal.joined false (d.proposed es) e.1) then some 0x12
      else if before.contains e.1 then some 0x13
      else if other then some 0x15
      else if Legal.modeBars d.restful e.1 (d.rd e.1) e.2 then some 0x16
      else none

/-- The first entry that fails, with its code (corners DEDUCED, log 23). -/
def entriesFail (d : Dev) (es : List (Nat × Word)) (apply : Nat) : List Nat → List (Nat × Word) →
    Option (Nat × Nat)
  | _, [] => none
  | before, e :: l =>
    match d.entryCode es apply before e with
    | some c => some (c, before.length)
    | none => d.entriesFail es apply (before ++ [e.1]) l

/-- The configuration of the device under a register reading, with the active demand sets. -/
def cfgOf (d : Dev) (rd : Nat → Word) : Cfg :=
  { rd := rd, dm := fun h n w => rd (Reg.DMD_ANGLE_ACT h n + 4 * w), on := fun h => !d.absent h
    pins := d.pins, mapped := d.mapped }

/-- The lowest entry that writes a register a test reads (R80) (corners DEDUCED, log 23). -/
def lowest (es : List (Nat × Word)) (p : Nat → Bool) : Option Nat := es.findIdx? fun e => p e.1

/-- What rejects a transaction (R77, R80): its code, CHECK, and the entry (corners DEDUCED, log 26). -/
def ctxFails (d : Dev) (x : Ctx) : Option (Nat × Nat × Option Nat) :=
  let es := d.ctxEntries x.count
  match d.entriesFail es x.apply [] es with
  | some (c, i) => some (c, 0, some i)
  | none =>
    let rd := d.proposed es
    match (d.cfgOf rd).firstFail false with
    | some (c, a) => some (0x20, c, lowest es (checkReads (d.cfgOf rd) c a))
    | none =>
      ([Half.a, Half.b].filter d.ctxWrites).findSome? fun h =>
        let speed := match h with
          | .a => x.speedA
          | .b => x.speedB
        let v : Dmd.View := ⟨h, rd, fun n w => rd (Reg.DMD_ANGLE_ACT h n + 4 * w), Dmd.checkSpeed rd h speed⟩
        (v.checks (List.range 128)).map fun f => (0x21, 0, lowest es (dmdCheckReads h f.1))

/-! ### The switch (R78) -/

/-- An entry's TX bits written. -/
def txWrite (d : Dev) (a : Nat) (v : Word) : Dev :=
  match txRow a with
  | some r =>
    let k := BitVec.ofNat 32 r.tx
    d.wr a ((d.rd a &&& ~~~k) ||| (v &&& k))
  | none => d

/-- An event channel whose words changed (R160, R161, R174): EN arms or disarms it; it is chosen again where its anchor,
offset or end changed, or LIMP withholds or frees it now. -/
def chanChanged (d0 d : Dev) (h : Half) (c : Nat) : Dev :=
  let w := d.ctrl h c
  let v0 := d0.vals h c
  let v := d.vals h c
  let moved := decide ((v0.anchor, v0.offset, v0.endAngle, v0.endVal) ≠ (v.anchor, v.offset, v.endAngle, v.endVal))
  match d0.chEn h c, d.chEn h c with
  | false, true =>
    if getB w F.EVC_CTRL_CYC || getB w F.EVC_CTRL_ARMEN then d.arm h c else d
  | true, false => (d.setB (Reg.EVC_STAT h c) F.EVC_STAT_ARMED false).rechoose h c
  | _, _ =>
    if d0.chIssues h c ≠ d.chIssues h c then d.startOver h c true else if moved then d.rechoose h c else d

/-- A learning shift of a half changed: the count and the converged flag of its table clear (R147). -/
def learnShift (d0 d : Dev) (h : Half) (shift cnt conv : Fld) : Dev :=
  if d0.f (Reg.ANG_LEARNCFG h) shift = d.f (Reg.ANG_LEARNCFG h) shift then d
  else (d.setF (Reg.ANG_LEARNCNT h) cnt 0).setB (Reg.ANG_LEARNSTAT h) conv false

/-- An IGN output whose enable is cleared goes low; a dwell, restrikes or a soft-off that run end first (R223, R229). -/
def ignChanged (d : Dev) (h : Half) (k : Nat) : Dev :=
  let x := d.ign h k
  if !d.bit (Reg.IGN_CFG h k) F.IGN_CFG_EN && x.dwellT.isNone && x.nextT.isNone && !x.softoff then
    (d.setIgn h k { x with high := false }).ignStat h k
  else d

/-- A GAO output whose enable is cleared goes low; a pulse that runs ends first (R78, R223). -/
def gaoChanged (d : Dev) (h : Half) (k : Nat) : Dev :=
  let pulse := (d.half h).chans.any fun e => decide (e.2.occ = .launched) && e.2.live &&
    decide (outputOf (d.valsNow h e.1).action (d.valsNow h e.1).target = some (.gao k))
  if d.bit (Reg.GAO_CFG h k) F.GAO_CFG_EN || pulse then d else d.gaoDrive h k false

/-- The EN bit of the boost converter changed (R212, R215). -/
def boostChanged (d0 d : Dev) (h : Half) : Dev :=
  match d0.bit (Reg.BST_CTRL h) F.BST_CTRL_EN, d.bit (Reg.BST_CTRL h) F.BST_CTRL_EN with
  | false, true => d.softStart h
  | true, false => d.boostOff h
  | _, _ => d

/-- The filters bound to an urgent entry whose input changed start anew (R265). -/
def urgChanged (d0 d : Dev) (h : Half) (j : Nat) : Dev :=
  if getF (d0.rd (Reg.ADC_URG h j)) F.ADC_URG_INPUT = getF (d.rd (Reg.ADC_URG h j)) F.ADC_URG_INPUT then d
  else ((List.range 64).filter fun a => d.boundTo h 2 j a).foldl (fun d a => d.accReset h a) d

/-- A changed word of a half's registers takes effect. -/
def halfSwitched (d0 d : Dev) (h : Half) (o : Nat) : Dev :=
  if 0x10000 ≤ o ∧ o < 0x12000 then chanChanged d0 d h ((o - 0x10000) / 32)
  else if o = 0x20A4 then
    learnShift d0 (learnShift d0 d h F.ANG_LEARNCFG_WE_SHIFT F.ANG_LEARNCNT_WE_CYC F.ANG_LEARNSTAT_WE_CONV) h
      F.ANG_LEARNCFG_RIP_SHIFT F.ANG_LEARNCNT_RIP_CYC F.ANG_LEARNSTAT_RIP_CONV
  else if 0x20000 ≤ o ∧ o < 0x20040 then
    d.gaoChanged h ((o - 0x20000) / 4)
  else if 0x21000 ≤ o ∧ o < 0x210C0 then d.ignChanged h ((o - 0x21000) / 16)
  else if o = 0x23000 then boostChanged d0 d h
  else if o = 0x24000 then d.convStart h 0
  else if o = 0x24004 then d.convStart h 1
  else if 0x24200 ≤ o ∧ o < 0x24240 then urgChanged d0 d h ((o - 0x24200) / 4)
  else d

/-- The engine that owns a Colt pin. -/
def pinOwner (d : Dev) (k : Nat) : Option Nat :=
  let w := d.rd (Reg.COLT_PINOWN (k / 8))
  if w.getLsbD (4 * (k % 8) + 3) then some (getF w ⟨4 * (k % 8) + 2, 4 * (k % 8)⟩) else none

/-- A running engine stopped by a transaction (R298). -/
def coltTxn (d : Dev) (e : Nat) : Dev := if d.coltStopped e then d else d.coltHalt e 4

/-- The Colt pins of a PINOWN word change hands (R284, R286, R298). -/
def ownersChanged (d0 d : Dev) (m : Nat) : Dev :=
  ((List.range 8).map (8 * m + ·)).foldl
    (fun d k =>
      if d0.pinOwner k = d.pinOwner k then d
      else
        let d1 := match d0.pinOwner k with
          | some e => d.coltTxn e
          | none => d
        match d1.pinOwner k with
        | some e => (d1.coltTxn e).pinSafe k
        | none => d1.pinSet k none) d

/-- A first heartbeat window opens (R345): its bounds are those in force now (R348). -/
def openWindow (d : Dev) : Dev :=
  (({ d with link := { d.link with
    hbFirst := some d.now, lastHb := none
    hbMin := usTk (d.f Reg.LNK_HBCFG F.LNK_HBCFG_HB_MIN)
    hbMax := usTk (d.f Reg.LNK_HBCFG F.LNK_HBCFG_HB_MAX) } })).setB Reg.LNK_STAT F.LNK_STAT_HBV false

/-- The supervision of the heartbeat set on opens a first window (R348). -/
def hbChanged (d0 d : Dev) : Dev :=
  if d.bit Reg.LNK_HLCFG F.LNK_HLCFG_HB_EN && !d0.bit Reg.LNK_HLCFG F.LNK_HLCFG_HB_EN then
    d.openWindow
  else d

/-- A changed word of the device registers takes effect. -/
def devSwitched (d0 d : Dev) (a : Nat) : Dev :=
  if 0x40400 ≤ a ∧ a < 0x40500 then d.tripAll
  else if 0x50000 ≤ a ∧ a < 0x50200 then d.coltTxn ((a - 0x50000) / 64)
  else if a = 0x50200 then ownersChanged d0 d 0
  else if a = 0x50204 then ownersChanged d0 d 1
  else if 0x20000 ≤ a ∧ a < 0x20400 then
    let c := (a - 0x20000) / 64
    if d0.f (Reg.MULE_CFG c) F.MULE_CFG_SRC = d.f (Reg.MULE_CFG c) F.MULE_CFG_SRC then d
    else d.setMule c { d.muleC c with reqs := [] }
  else if a = Reg.LNK_HLCFG then hbChanged d0 d
  else d

/-- The RW bits of an entry's register act as a direct write of the register makes them act. -/
def rwSwitched (d : Dev) (a : Nat) (v : Word) : Dev :=
  match halfOffset a with
  | some (h, o) =>
    match Legal.unit o 0x100 32 8, Legal.unit o 0x200 16 2 with
    | some n, _ => d.ascCtrl h n v
    | _, some m => d.crkoCtrl h m v
    | _, _ => d.rwWrite a v
  | none =>
    match Legal.unit a 0x40000 32 32, Legal.unit a 0x20000 64 16 with
    | some c, _ => d.pwmCfg c v
    | _, some c => d.muleCfg c v
    | _, _ => d.rwWrite a v

/-- The accumulators and receivers of which an address list names a word (R271, R281). -/
def accsNamed (as : List Nat) (h : Half) : List Nat :=
  (List.range 64).filter fun n => as.any fun a =>
    match halfOffset a with
    | some (k, o) => decide (k = h ∧ 0x25000 ≤ o ∧ o < 0x26000 ∧ (o - 0x25000) / 64 = n)
    | none => false

/-- The receivers of which an address list names a word (R281). -/
def sentsNamed (as : List Nat) : List Nat :=
  (List.range 6).filter fun r => as.any fun a => decide (0x60000 + 64 * r ≤ a ∧ a < 0x60008 + 64 * r)

/-- An address of a half's wheel or cam tables, or its table control. -/
def tableAddr (h : Half) (cams : Bool) (a : Nat) : Bool :=
  match halfOffset a with
  | some (k, o) =>
    decide (k = h) && (decide (o = 0x1000 ∨ (0x1800 ≤ o ∧ o < 0x2000)) ||
      (cams && decide (o = 0x1010 ∨ (0x1200 ≤ o ∧ o < 0x1400))))
  | none => false

/-- The signatures of both paths formed anew (R121, R364). -/
def signed (d : Dev) (h : Half) : Dev :=
  (d.wr (Reg.WHL_SIG h) (d.signature h)).wr (Reg.GDR_SIG h) (d.signature h)

/-- The tables of a half changed (R121, R143). -/
def tablesChanged (y : DevMem) (h : Half) (as : List Nat) : DevMem :=
  let y1 := if as.any (tableAddr h false) then clearP (clearW y h) h else y
  if as.any (tableAddr h true) then y1.dev fun d => d.signed h else y1

/-- Every entry switches at one tick (R78), after what is due on the old values (R179, R182): first all words, then what
each block makes of them. -/
def ctxApply (y : DevMem) (es : List (Nat × Word)) : DevMem :=
  let d0 := (y.1.beforeSwitch .a).beforeSwitch .b
  let d1 := es.foldl (fun d e => d.txWrite e.1 e.2) d0
  let ch := (es.map (·.1)).filter fun a => decide (d0.rd a ≠ d1.rd a)
  let d2 := es.foldl (fun d e => d.rwSwitched e.1 e.2) d1
  let d3 := ch.foldl
    (fun d a => match halfOffset a with
      | some (h, o) => halfSwitched d0 d h o
      | none => devSwitched d0 d a) d2
  let d4 := (accsNamed ch .a).foldl (fun d a => d.accChanged .a a) d3
  let d5 := (accsNamed ch .b).foldl (fun d a => d.accChanged .b a) d4
  let d6 := ((sentsNamed ch).foldl sntChanged d5).settleIrq
  tablesChanged (tablesChanged (d6, y.2) .a ch) .b ch

/-- The switch, or its deferral to the end of a tooth pass that runs (R21, R78). -/
def ctxSwitchNow (y : DevMem) (x : Ctx) : DevMem :=
  let d := y.1
  if (d.track .a).passing || (d.track .b).passing then ({ d with ctx := some { x with reached := true } }, y.2)
  else (ctxApply y (d.ctxEntries x.count)).dev fun d => d.endCtx (bnat x.late) 0 none

/-- The apply point of a transaction is reached (R76) (corners DEDUCED, log 26). -/
def ctxDue (d : Dev) (x : Ctx) : Bool :=
  x.checkEnd.isSome && (x.reached ||
    match x.apply, ctxAngleHalf x.apply with
    | _, some h => decide ((x.target : Rat) ≤ d.phi h)
    | 0, none => true
    | _, none => decide (x.tick ≤ d.now))

/-- The checks of a transaction end (R76, R77): rejected, PENDING, or switched at once (corners DEDUCED, log 26). -/
def ctxChecked (y : DevMem) : DevMem :=
  let d := y.1
  match d.ctx with
  | none => y
  | some x =>
    if x.waits || x.checkEnd.isSome then y
    else match d.ctxFails x with
      | some (code, check, entry) => (d.endCtx code check entry, y.2)
      | none =>
        let passed := match ctxAngleHalf x.apply with
          | some h => decide ((x.target : Rat) ≤ d.phi h)
          | none => false
        let x1 := { x with
          checkEnd := some d.now
          late := passed || (decide (x.apply = 1) && decide (x.tick < d.now))
          target := match ctxAngleHalf x.apply with
            | some h => if passed then d.nextTarget h x.target else x.target
            | none => x.target }
        let d1 := { (d.setF Reg.CTX_STAT F.CTX_STAT_STATE 3) with ctx := some x1 }
        if (ctxAngleHalf x.apply).isNone && d1.ctxDue x1 then ctxSwitchNow (d1, y.2) x1 else (d1, y.2)

/-- The apply point comes (R78) (corners DEDUCED, log 26). -/
def ctxSwitched (y : DevMem) : DevMem :=
  match y.1.ctx with
  | some x => if y.1.ctxDue x then ctxSwitchNow y x else y
  | none => y

/-- The end of a tooth pass, with the switches that it has deferred (R18, R21). -/
def passEndAll (y : DevMem) (h : Half) : DevMem :=
  let y1 := y.dev fun d => (d.passEnd h).dmdDeferred
  match y1.1.ctx with
  | some x => if x.reached then ctxSwitched y1 else y1
  | none => y1

end Dev

/-! ### The commands -/

/-- TOOTH_PASS_END (R18, R19, R21, R171, R414) (DESIGN CHOICE, log 4). -/
def execToothPassEnd (t : Tick) (h : Half) (s : State) : Out := s.onBoth t fun d m => Dev.passEndAll (d, m) h

/-- CTX_OPEN (R75). -/
def execCtxOpen (t : Tick) (m : Master) (s : State) : Out :=
  s.onDev t fun d => d.onWrite Reg.CTX_CTL fun d => d.ctxCtl m fun d => d.ctxClaim m

/-- CTX_COMMIT (R75 to R77). -/
def execCtxCommit (t : Tick) (m : Master) (count : BitVec 8) (when : BitVec 2) (s : State) : Out :=
  s.onDev t fun d => d.onWrite Reg.CTX_CTL fun d => d.ctxCtl m fun d => d.ctxCommitCmd count.toNat when.toNat

/-- CTX_ABORT (R75). -/
def execCtxAbort (t : Tick) (m : Master) (s : State) : Out :=
  s.onDev t fun d => d.onWrite Reg.CTX_CTL fun d => d.ctxCtl m Dev.ctxAbortCmd

/-- CTX_BUF_WRITE (R75). -/
def execCtxBufWrite (t : Tick) (m : Master) (k : Fin 128) (v : Word) (s : State) : Out :=
  s.onDev t fun d => d.onWrite (Reg.CTX_BUF k.val) fun d => d.ctxBuf m k.val v

/-- CTX_CHECKS_END (R77). -/
def execCtxChecksEnd (t : Tick) (s : State) : Out := s.onBoth t fun d m => Dev.ctxChecked (d, m)

/-- CTX_SWITCH (R78). -/
def execCtxSwitch (t : Tick) (s : State) : Out := s.onBoth t fun d m => Dev.ctxSwitched (d, m)

end Sys2Proof.Machine
end

