-- ==== Sys2Proof/Machine/Image.lean ====
section
/-! DEFINITION. The boot pointer and the image: their layout, the load of a copy with the checks of every
stage, the choice of the copy (R53 to R67). -/

namespace Sys2Proof.Machine

open Sys2Proof

namespace Image

/-- Bytes of the flash; a byte past its contents is erased. -/
def read (flash : List Byte) (off n : Nat) : List Byte :=
  let r := (flash.drop off).take n
  r ++ List.replicate (n - r.length) 0xFF

/-- A little-endian number of `n` bytes. -/
def le (l : List Byte) : Nat → Nat → Nat
  | _, 0 => 0
  | i, n + 1 => (l.getD i 0).toNat + 256 * le l (i + 1) n

/-- The words of a byte list. -/
def words : List Byte → List Word
  | b0 :: b1 :: b2 :: b3 :: l => wordOf b0 b1 b2 b3 :: words l
  | _ => []

/-! ### The boot pointer (R53, R54) -/

/-- An offset of a copy that obeys its rule, a copy of the greatest length staying inside the flash. -/
def copyOk (size a : Nat) : Bool := decide (a % 4096 = 0 ∧ a ≠ 0 ∧ a + 262144 ≤ size)

/-- The offsets of the copies, if the boot pointer is valid (corners DEDUCED, log 20). -/
def bootPointer (flash : List Byte) (size : Nat) : Option (Nat × Option Nat) :=
  let p := read flash 0 16
  let a := le p 4 4
  let b := le p 8 4
  if p.take 4 = [0x4F, 0x42, 0x50, 0x54] ∧ le p 12 4 = (crc32 (p.take 12)).toNat ∧ copyOk size a = true then
    if b = 0xFFFFFFFF then some (a, none) else if copyOk size b then some (a, some b) else none
  else none

/-! ### Header and directory (R56, R57) -/

/-- A failure (R66): the check, SECT, TYPE and the byte offset of the record. -/
structure Fail where
  check : Nat
  sect : Nat
  type : Nat
  pos : Nat

/-- A failure of the header, or one that no section is named for. -/
def atHeader (check : Nat) : Fail := ⟨check, 0x7F, 0, 0xFFFFFFFF⟩

/-- One directory entry: its bytes 0 to 15 read. -/
structure Sect where
  idx : Nat
  type : Nat
  scope : Nat
  rsv : Nat
  off : Nat
  len : Nat
  crc : Nat

/-- A failure of a section. -/
def atSect (check : Nat) (x : Sect) : Fail := ⟨check, x.idx, x.type, 0xFFFFFFFF⟩

/-- The directory entries. -/
def directory (img : List Byte) (n : Nat) : List Sect :=
  (List.range n).map fun i =>
    let e := (img.drop (32 + 16 * i)).take 16
    ⟨i, le e 0 2, le e 2 1, le e 3 1, le e 4 4, le e 8 4, le e 12 4⟩

/-- The first header check that fails (R65): `room` bytes lie between the header start and the flash end (corners DEDUCED,
log 20). -/
def headerCheck (img : List Byte) (room : Nat) : Option Nat :=
  let h := img.take 32
  let n := le h 6 2
  let len := le h 8 4
  if h.take 4 ≠ [0x4F, 0x54, 0x48, 0x41] then some 0x10
  else if le h 5 1 ≠ 1 then some 0x11
  else if len < 32 ∨ 262144 < len ∨ len % 4 ≠ 0 ∨ room < len then some 0x12
  else if n = 0 ∨ 64 < n ∨ le h 13 3 ≠ 0 ∨ le h 20 8 ≠ 0 ∨ 8 ≤ le h 12 1 then some 0x13
  else if le h 28 4 ≠ (crc32 (h.take 28 ++ (img.drop 32).take (16 * n))).toNat then some 0x14
  else none

/-- The scopes that a section type allows (R58). -/
def scopes (type : Nat) : List Nat :=
  if type = 0x14 then [0, 1, 2]
  else if type = 0xB ∨ type = 0xC ∨ (0xF ≤ type ∧ type ≤ 0x13) ∨ type = 0x16 then [0]
  else if 1 ≤ type ∧ type ≤ 0x15 then [1, 2]
  else []

/-- The first of a list whose test, given the ones before it, holds. -/
def firstAfter (p : List Sect → Sect → Bool) : List Sect → List Sect → Option Sect
  | _, [] => none
  | before, x :: l => if p before x then some x else firstAfter p (before ++ [x]) l

/-- Check 0x15 of one entry: `top` is the end of the room for bodies, `base` that of the directory (corners DEDUCED, log
20). -/
def placeBad (base top : Nat) (before : List Sect) (x : Sect) : Bool :=
  decide (x.off % 4 ≠ 0 ∨ x.len % 4 ≠ 0 ∨ x.len < 8 ∨ x.off < base ∨ top < x.off + x.len) ||
    before.any fun y => decide (x.off < y.off + y.len ∧ y.off < x.off + x.len)

/-- The first directory check that fails (R65) (corners DEDUCED, log 20). -/
def directoryCheck (base top : Nat) (l : List Sect) : Option Fail :=
  (((firstAfter (placeBad base top) [] l).map (atSect 0x15)).or
    ((l.find? fun x => !(scopes x.type).contains x.scope || decide (x.rsv ≠ 0)).map (atSect 0x17))).or
    ((firstAfter (fun b x => b.any fun y => decide (y.type = x.type ∧ y.scope = x.scope)) [] l).map
      (atSect 0x18))

/-- The body of a section. -/
def body (img : List Byte) (x : Sect) : List Byte := (img.drop x.off).take x.len

/-- A section put in its place by offset: the order in which the bodies stream in. -/
def putSect (x : Sect) : List Sect → List Sect
  | [] => [x]
  | y :: l => if x.off < y.off then x :: y :: l else y :: putSect x l

/-- Check 0x16 as the bodies stream in (R63) (corners DEDUCED, log 20). -/
def bodyCheck (img : List Byte) (l : List Sect) : Option Fail :=
  ((l.foldl (fun a x => putSect x a) []).find? fun x => decide ((crc32 (body img x)).toNat ≠ x.crc)).map
    (atSect 0x16)

/-- The trailer checks (R61, R62): `present` FLAGS.CMAC, `key` the slot if it is programmed, `undef` a slot that a reset
left undefined: every image fails then (R68) (corners DEDUCED, log 20). -/
def trailerCheck (img : List Byte) (present : Bool) (key : Option (List Byte)) (undef : Bool) : Option Nat :=
  let t := img.drop (img.length - 32)
  let magic := decide (t.take 4 = [0x4D, 0x41, 0x43, 0x31])
  let slot := key.isSome || undef
  if (slot && !present) || (present && !magic) then some 0x20
  else if undef then some 0x21
  else match key with
    | some k => if cmac k (img.take (img.length - 16)) = t.drop 16 then none else some 0x21
    | none => none

/-! ### Records (R59, R60) -/

/-- One record: its byte offset in the body, whether it is a BLOCK, its address and its values. -/
structure Rec where
  pos : Nat
  block : Bool
  addr : Nat
  vals : List Word

/-- The records of a body from a byte offset on, and the offset of the one that fails check 0x30, if any. -/
def records : Nat → Nat → List Word → List Rec × Option Nat
  | 0, _, _ => ([], none)
  | _, _, [] => ([], none)
  | fuel + 1, pos, w :: l =>
    match w.toNat % 4, l with
    | 0, v :: r =>
      let q := records fuel (pos + 8) r
      (⟨pos, false, w.toNat, [v]⟩ :: q.1, q.2)
    | 1, v :: r =>
      let n := v.toNat
      if n = 0 ∨ 4096 < n ∨ r.length < n then ([], some pos)
      else
        let q := records fuel (pos + 8 + 4 * n) (r.drop n)
        (⟨pos, true, w.toNat - 1, r.take n⟩ :: q.1, q.2)
    | _, _ => ([], some pos)

/-- One word that a record writes. -/
structure Wr where
  sect : Sect
  pos : Nat
  block : Bool
  addr : Nat
  val : Word

/-- A failure of the record that a word belongs to. -/
def atWr (check : Nat) (x : Wr) : Fail := ⟨check, x.sect.idx, x.sect.type, x.pos⟩

/-- The words of the records of a section. -/
def wrs (x : Sect) (l : List Rec) : List Wr :=
  l.flatMap fun r => r.vals.zipIdx.map fun v => ⟨x, r.pos, r.block, r.addr + 4 * v.2, v.1⟩

/-- The half of a scope. -/
def scopeHalf (scope : Nat) : Half := if scope = 2 then .b else .a

/-- Whether a section of a half may write an offset of its half (R58). -/
def halfMay (type o : Nat) : Bool :=
  match type with
  | 0x01 => decide (o = 0x1000 ∨ o = 0x1004 ∨ (0x1800 ≤ o ∧ o < 0x2000))
  | 0x02 => decide (o = 0x100C ∨ o = 0x1010 ∨ (0x1200 ≤ o ∧ o < 0x1400))
  | 0x03 => decide (o < 0x1000 ∨ o = 0x1008 ∨ (0x2000 ≤ o ∧ o < 0x3000))
  | 0x04 => decide (0x10000 ≤ o ∧ o < 0x14000)
  | 0x05 => decide (0x14000 ≤ o ∧ o < 0x16000)
  | 0x06 => decide (0x22100 ≤ o ∧ o < 0x22300)
  | 0x07 => decide (0x22040 ≤ o ∧ o < 0x220A0 ∧ o % 16 ≤ 4)
  | 0x08 => decide (0x23000 ≤ o ∧ o < 0x24000)
  | 0x09 => decide (0x21000 ≤ o ∧ o < 0x22000)
  | 0x0A => decide (0x20000 ≤ o ∧ o < 0x21000)
  | 0x0D => decide (0x24000 ≤ o ∧ o < 0x25000)
  | 0x0E => decide (0x25000 ≤ o ∧ o < 0x27000)
  | 0x14 => decide (0x30000 ≤ o ∧ o < 0x32000)
  | 0x15 => decide ((0x16024 ≤ o ∧ o < 0x16070) ∨ (0x22040 ≤ o ∧ o < 0x220A0 ∧ o % 16 = 8))
  | _ => false

/-- Whether a device section may write an address (R58). -/
def devMay (type a : Nat) : Bool :=
  match type with
  | 0x0B => Dev.inRange a 0x40000 0x1000
  | 0x0C => Dev.inRange a 0x30000 0x1000
  | 0x0F => Dev.inRange a 0x60000 0x1000
  | 0x10 => Dev.inRange a 0x50000 0x2000
  | 0x11 => Dev.inRange a 0x20000 0x1000
  | 0x12 => Dev.inRange a 0x10000 0x1000
  | 0x13 => Dev.inRange a 0x70000 0x1000
  | 0x14 => Dev.inRange a 0x100000 0x1000
  | _ => false

/-- Whether an address lies in the learned tables of a half (R143). -/
def inLearned (h : Half) (a : Nat) : Bool := Dev.inRange a (learnBase h) 0xC00

/-- Whether a section of a type and scope may write an address (R58, R59) (corners DEDUCED, log 22). -/
def mayWrite (type scope a : Nat) : Bool :=
  if scope = 0 then devMay type a
  else
    let h := scopeHalf scope
    (match halfOffset a with
     | some (k, o) => decide (k = h) && halfMay type o
     | none => false) || (decide (type = 3) && (decide (a = Reg.SYS_PMCFG) || inLearned h a))

/-- What a word of a record lands on. -/
inductive Target where
  | ram
  | reg (r : RegRow)
  | enable (k : Nat)
  | skip
  | bad
  deriving DecidableEq, Repr

/-- The target of a word (R59): a register with RW or TX bits, an interrupt enable of a WRITE record, an RO
or reserved word to be skipped, or one that the image may not write (corners DEDUCED, log 22). -/
def target (x : Wr) : Target :=
  if Dev.inRange x.addr 0x310000 0x1800 then .ram
  else match regAt x.addr with
    | none => .bad
    | some none => if x.block && decide (x.val = 0) then .skip else .bad
    | some (some r) =>
      if r.rw ||| r.tx ≠ 0 then .reg r
      else if !x.block && Dev.inRange x.addr (Reg.IRQ_EN_SET 0) 0x20 then .enable ((x.addr - (Reg.IRQ_EN_SET 0)) / 4)
      else if r.w1c ||| r.w1s ||| r.wo ≠ 0 then .bad
      else if x.block && decide (x.val = 0) then .skip else .bad

/-- What counts as one register for check 0x33: the fields of SYS_PMCFG of each half apart (R59). -/
def regKey (x : Wr) : Nat × Nat := (x.addr, if x.addr = Reg.SYS_PMCFG then x.sect.scope else 0)

/-- The first word whose register was written before. -/
def twice : List (Nat × Nat) → List Wr → Option Wr
  | _, [] => none
  | seen, x :: l => if seen.contains (regKey x) then some x else twice (regKey x :: seen) l

/-- The bits of SYS_PMCFG of a half. -/
def pmBits : Half → Word
  | .a => 0x1FFF
  | .b => 0x1FFF0000

/-- A shadow of a PWM channel that the image writes is pending as after any write (R244). -/
def shadowed (d : Dev) (a : Nat) : Dev :=
  match Legal.unit a 0x40004 32 32, Legal.unit a 0x40008 32 32, Legal.unit a 0x4000C 32 32 with
  | some c, _, _ => d.setB (Reg.PWM_STAT c) F.PWM_STAT_PER_PEND true
  | _, some c, _ => (d.setB (Reg.PWM_STAT c) F.PWM_STAT_OPEN true).setB (Reg.PWM_STAT c) F.PWM_STAT_PEND false
  | _, _, some c => (d.setB (Reg.PWM_STAT c) F.PWM_STAT_OPEN false).setB (Reg.PWM_STAT c) F.PWM_STAT_PEND true
  | _, _, _ => d

/-- A word of a record written to its register or table. -/
def put (y : DevMem) (x : Wr) : DevMem :=
  match target x with
  | .ram => (y.1, Memory.setWord y.2 x.addr x.val)
  | .reg r =>
    let k := BitVec.ofNat 32 (r.rw ||| r.tx) &&&
      (if x.addr = Reg.SYS_PMCFG then pmBits (scopeHalf x.sect.scope) else 0xFFFFFFFF)
    (shadowed (y.1.wr x.addr ((y.1.rd x.addr &&& ~~~k) ||| (x.val &&& k))) x.addr, y.2)
  | .enable k => (y.1.enSet k x.val, y.2)
  | .skip | .bad => y

/-- Check 0x34 of one word, on the registers as the whole image leaves them (R77). -/
def legal (d : Dev) (x : Wr) : Bool :=
  match target x with
  | .reg r =>
    if x.addr = Reg.SYS_PMCFG then decide (x.val &&& ~~~(pmBits (scopeHalf x.sect.scope)) = 0)
    else Legal.word true x.addr r x.val && Legal.joined true d.rd x.addr
  | _ => true

/-! ### PINS (R60, R387, R389, R402) -/

/-- A pad that takes a pull: sensor, VDDIO and 5 V-tolerant pads. -/
def takesPull (n : Nat) : Bool :=
  decide ((194 ≤ n ∧ n ≤ 207) ∨ (242 ≤ n ∧ n ≤ 299) ∨ (304 ≤ n ∧ n ≤ 314) ∨ n = 325)

/-- A VDDIO output, which takes reduced slew. -/
def takesSlew (n : Nat) : Bool :=
  decide ((242 ≤ n ∧ n ≤ 273) ∨ (278 ≤ n ∧ n ≤ 293) ∨ (307 ≤ n ∧ n ≤ 314) ∨ n = 325)

/-- A record of PINS is legal (R60, R389) (corners DEDUCED, log 22). -/
def pinLegal (w : Word) : Bool :=
  let n := getF w ⟨15, 0⟩
  let fn := getF w ⟨23, 16⟩
  let pull := getF w ⟨25, 24⟩
  decide (n ≤ 330 ∧ getF w ⟨31, 27⟩ = 0 ∧ pull ≠ 3) && (decide (pull = 0) || takesPull n) &&
    (!getB w ⟨26, 26⟩ || takesSlew n) &&
    decide (fn = 0 ∨ fn = 0xFF ∨ (fn = 1 ∧ 290 ≤ n ∧ n ≤ 293))

/-- The functions that a list of PINS records gives. -/
def pinTable (l : List Word) : List (Nat × Nat) :=
  l.foldl (fun m w => sparseSet 0 m (getF w ⟨15, 0⟩) (getF w ⟨23, 16⟩)) []

/-- A ball named by two records (corners DEDUCED, log 22). -/
def pinTwice : List Nat → List Word → Bool
  | _, [] => false
  | seen, w :: l => seen.contains (getF w ⟨15, 0⟩) || pinTwice (getF w ⟨15, 0⟩ :: seen) l

/-! ### One copy (R63, R65) -/

/-- What a copy that passed leaves to report. -/
structure Info where
  flags : Nat
  verMin : Nat
  nsect : Nat
  len : Nat
  id : Nat
  cmacOk : Bool
  sections : List Sect
  pins : List (Nat × Nat)

/-- The sections that FLAGS makes necessary (R58), and the first one missing. -/
def missing (flags : Nat) (l : List Sect) : Option Nat :=
  let need := ([1, 2].filter fun s => decide (flags / 2 ^ (s - 1) % 2 = 1)).flatMap
    fun s => [(1, s), (3, s), (0x14, s), (0x15, s)]
  ((((0x14, 0) :: (0x16, 0) :: need).find? fun q =>
    !(l.any fun x => decide (x.type = q.1 ∧ x.scope = q.2)))).map (·.1)

/-- Checks 0x35 to 0x37 (R65) (corners DEDUCED, log 22). -/
def scopeCheck (grade : Grade) (flags : Nat) (l : List Sect) : Option Fail :=
  match missing flags l with
  | some t => some ⟨0x35, 0x7F, t, 0xFFFFFFFF⟩
  | none =>
    match l.find? fun x => decide (x.scope ≠ 0 ∧ flags / 2 ^ (x.scope - 1) % 2 = 0) with
    | some x => some (atSect 0x36 x)
    | none =>
      if flags % 4 = 0 then some (atHeader 0x36)
      else if grade = .tzn5110 ∧ 2 ≤ flags % 4 then
        some (((l.find? fun x => decide (x.scope = 2)).map (atSect 0x37)).getD (atHeader 0x37))
      else none

/-- The record checks 0x30 to 0x33 over all sections: the words, or the first failure (R59, R65) (corners DEDUCED, log 22). -/
def recordCheck (img : List Byte) (l : List Sect) : Except Fail (List Wr) :=
  let rs := (l.filter fun x => decide (x.type ≠ 0x16)).map fun x =>
    let w := words (body img x)
    (x, records w.length 0 w)
  match rs.findSome? fun r => r.2.2.map fun p => (⟨0x30, r.1.idx, r.1.type, p⟩ : Fail) with
  | some f => .error f
  | none =>
    let ws := rs.flatMap fun r => wrs r.1 r.2.1
    match ws.find? fun x => !mayWrite x.sect.type x.sect.scope x.addr with
    | some x => .error (atWr 0x31 x)
    | none =>
      match ws.find? fun x => decide (target x = .bad) with
      | some x => .error (atWr 0x32 x)
      | none =>
        let ws := ws.filter fun x => decide (target x ≠ .skip)
        match twice [] ws with
        | some x => .error (atWr 0x33 x)
        | none => .ok ws

/-- The PINS words, with their section. -/
def pinWords (img : List Byte) (l : List Sect) : List (Sect × List Word) :=
  (l.filter fun x => decide (x.type = 0x16)).map fun x => (x, words (body img x))

/-- Check 0x34 on the registers as the image leaves them, section by section, and last on the PINS records (corners DEDUCED,
log 22). -/
def fieldCheck (d : Dev) (ws : List Wr) (ps : List (Sect × List Word)) : Option Fail :=
  ((ws.find? fun x => !legal d x).map (atWr 0x34)).or
    (ps.findSome? fun p => (p.2.findIdx? fun w => !pinLegal w).map fun i => ⟨0x34, p.1.idx, p.1.type, 4 * i⟩)

/-- Whether a whole-configuration check, failed at an address, reads what a section wrote (R66) (corners DEDUCED, log
22). -/
def involved (c : Cfg) (code at' : Nat) (ws : List Wr) (x : Sect) : Bool :=
  if x.type = 0x16 then decide (code = 0x45 ∨ code = 0x46 ∨ code = 0x4D)
  else ws.any fun w => decide (w.sect.idx = x.idx) && (checkReads c code at' w.addr ||
    (decide (code = 0x4A) && match halfOffset at' with
      | some (h, _) => initReads h w.addr
      | none => false))

/-- The whole-configuration checks 0x40 to 0x4D (R65, R66): the first section involved is named, and where no section
wrote what the check reads, the first that may write it. -/
def wholeCheck (d : Dev) (flags : Nat) (l : List Sect) (ws : List Wr) (pins : List Word) : Option Fail :=
  let c : Cfg :=
    { rd := d.rd, dm := fun h n w => d.rd (Reg.DMD_ANGLE h n + 4 * w)
      on := fun h => decide (flags / 2 ^ Dev.halfNo h % 2 = 1), pins := pinTable pins, mapped := d.mapped }
  let fails := (c.checks true).map fun q => if q.1 = 0x45 ∧ pinTwice [] pins = true then (0x45, some 0) else q
  (fails.findSome? fun q => q.2.map fun a => (q.1, a)).map fun q =>
    match (l.find? (involved c q.1 q.2 ws)).or (l.find? fun x => mayWrite x.type x.scope q.2) with
    | some x => atSect q.1 x
    | none => atHeader q.1

/-- The first `n` bytes of a copy in image RAM: reading stops at the first failure (R63) (corners DEDUCED, log 20). -/
def streamed (y : DevMem) (flash : List Byte) (off n : Nat) : DevMem :=
  (y.1, Memory.load y.2 0x200000 (read flash off n))

/-- The end of the body of a section of the directory. -/
def bodyEnd (l : List Sect) (idx : Nat) : Nat :=
  ((l.find? fun x => decide (x.idx = idx)).map fun x => x.off + x.len).getD 0

/-- A copy read from an offset of the flash and checked (R63, R65); `y` as it stood before: what it leaves, a copy that
fails from check 0x34 on with its registers written, and the failure or what it reports (corners DEDUCED, log 20). -/
def loadCopy (y : DevMem) (flash : List Byte) (off size : Nat) : DevMem × Except Fail Info :=
  let room := size - off
  let top := read flash off 1056
  let n := le top 6 2
  let dirEnd := 32 + 16 * min 64 n
  match headerCheck top room with
  | some c => (streamed y flash off dirEnd, .error (atHeader c))
  | none =>
    let len := le top 8 4
    let flags := le top 12 1
    let img := read flash off len
    let l := directory top n
    let present := decide (flags / 4 % 2 = 1)
    match directoryCheck dirEnd (len - if present then 32 else 0) l with
    | some f => (streamed y flash off dirEnd, .error f)
    | none =>
      match bodyCheck img l with
      | some f => (streamed y flash off (bodyEnd l f.sect), .error f)
      | none =>
        match trailerCheck img present y.1.keySlot y.1.keyUndef with
        | some c => (streamed y flash off len, .error (atHeader c))
        | none =>
          match recordCheck img l with
          | .error f => (streamed y flash off len, .error f)
          | .ok ws =>
            let ps := pinWords img l
            let y1 := ws.foldl put y
            (streamed y1 flash off len,
              match ((fieldCheck y1.1 ws ps).or (scopeCheck y.1.grade flags l)).or
                  (wholeCheck y1.1 flags l ws (ps.flatMap (·.2))) with
              | some f => .error f
              | none => .ok ⟨flags, le top 4 1, n, len, le top 16 4, y.1.keySlot.isSome, l,
                  pinTable (ps.flatMap (·.2))⟩)

/-- The boot code of the failures of the copies (R64) (corners DEDUCED, log 21). -/
def finalCode (fs : List Fail) : Nat :=
  if fs.any fun f => decide (f.check = 0x37) then 0x92
  else if fs.any fun f => decide (f.check = 0x20 ∨ f.check = 0x21) then 0x84
  else if fs.any fun f => decide (0x30 ≤ f.check) then 0x91
  else 0x83

/-- IMG_FAIL and IMG_FAILAT of a copy (R66) (corners DEDUCED, log 20). -/
def failShown (d : Dev) (second : Bool) (f : Fail) : Dev :=
  (d.wr (if second then Reg.IMG_FAIL2 else Reg.IMG_FAIL1)
    (BitVec.ofNat 32 (f.check * 0x1000000 + f.type % 256 * 0x10000 + f.sect * 0x100))).wr
    (if second then Reg.IMG_FAILAT2 else Reg.IMG_FAILAT1) (BitVec.ofNat 32 f.pos)

/-- The copy in use, in SYS_BOOTSTAT and in IMG_STAT (corners DEDUCED, log 21). -/
def copyShown (d : Dev) (n : Nat) : Dev :=
  (d.setF Reg.SYS_BOOTSTAT F.SYS_BOOTSTAT_COPY n).setF Reg.IMG_STAT F.IMG_STAT_COPY n

/-- A copy that passed is reported and kept: the sections for the scrub, the ball functions, the initial
demand set of the enabled halves active (R67, R370). -/
def passed (y : DevMem) (copy : Nat) (i : Info) : DevMem :=
  let d := y.1
  let d1 := ((d.wr Reg.IMG_STAT (BitVec.ofNat 32 (i.verMin * 0x1000000 + i.nsect * 0x10000 +
    8 * bnat i.cmacOk + i.flags / 4 % 2 * 4))).wr Reg.IMG_ID (BitVec.ofNat 32 i.id)).wr Reg.IMG_LEN
      (BitVec.ofNat 32 i.len)
  let d2 := copyShown d1 copy
  let d3 := { d2 with
    sections := i.sections.map fun (x : Sect) => (x.type, x.scope, x.off, x.len, BitVec.ofNat 32 x.crc)
    pins := i.pins }
  let on := fun h : Half => decide (i.flags / 2 ^ Dev.halfNo h % 2 = 1)
  let d4 := (d3.onHalf .a fun s => { s with enabled := on .a }).onHalf .b fun s => { s with enabled := on .b }
  let init := fun (d : Dev) (h : Half) =>
    if on h then
      (List.range 128).foldl (fun d n => (List.range 6).foldl
        (fun d w => d.wr (Reg.DMD_ANGLE_ACT h n + 4 * w) (d.rd (Reg.DMD_ANGLE h n + 4 * w))) d) d
    else d
  (init (init d4 .a) .b, y.2)

/-- Steps 8 and 9 (R63, R64): the code that stops the sequence, or none where an image passed. What a first copy that
fails wrote is cleared before a second one is read; what the last one wrote stays. -/
def load (y : DevMem) (flash : List Byte) (size : Nat) : DevMem × Option Nat :=
  match bootPointer flash size with
  | none => (y, some 0x81)
  | some (a, b) =>
    match loadCopy y flash a size with
    | (z, .ok i) => (passed z 1 i, none)
    | (z, .error f) =>
      match b with
      | none => (z.dev fun d => failShown d false f, some (finalCode [f]))
      | some b =>
        let y2 := y.dev fun d =>
          copyShown ((failShown d false f).setF Reg.SYS_BOOTSTAT F.SYS_BOOTSTAT_CODE 0x82) 2
        match loadCopy y2 flash b size with
        | (z, .ok i) => (passed z 2 i, none)
        | (z, .error g) => (z.dev fun d => failShown d true g, some (finalCode [f, g]))

end Image

end Sys2Proof.Machine
end

