-- ==== Sys2Proof/Machine/Keys.lean ====
section
/-! DEFINITION. The key slot (R68) and the rewrite of the trim page (R69 to R73). -/

namespace Sys2Proof.Machine

open Sys2Proof

namespace Dev

/-! ### The key slot -/

/-- Bytes of a list set from a position on; missing bytes before it are 0. -/
def putBytes (l : List Byte) (i n : Nat) (new : List Byte) : List Byte :=
  (List.range n).map fun j => if i ≤ j ∧ j < i + new.length then new.getD (j - i) 0 else l.getD j 0

/-- The slot takes no key: it is programmed, it is being programmed, a reset broke its programming, or it shows PROG
(corners DEDUCED, log 27). -/
def slotClosed (d : Dev) : Bool :=
  d.keySlot.isSome || d.keyBusy || d.keyUndef || d.bit Reg.IMG_KEYSTAT F.IMG_KEYSTAT_PROG

/-- A refused key write (R68). -/
def keyDenied (d : Dev) : Dev := d.flag Reg.IMG_FLAG F.IMG_FLAG_KEY_DENIED 0xC3

/-- A key write reaches the slot logic wherever IMG can be read: it is refused without a bus error. -/
def onKey (d : Dev) (a : Nat) (g : Dev → Dev) : Dev :=
  if d.reach a false then
    let d1 := d.okay 0
    if d.mode = .service ∧ d.slotClosed = false then g d1 else d1.keyDenied
  else d.busErr

/-- The word that IMG_KEYSTAT shows of a programmed slot: the first bytes of the encrypted zero block, the
first one lowest (corners DEDUCED, log 27). -/
def keyStat (key : List Byte) : Word :=
  let e := aes128 key (List.replicate 16 0)
  wordOf 1 (e.getD 0 0) (e.getD 1 0) (e.getD 2 0)

/-- Programming of the slot ends (R68). -/
def keyEnd (d : Dev) : Dev :=
  if d.keyBusy then
    let key := putBytes d.keyStage 0 16 []
    { (d.wr Reg.IMG_KEYSTAT (keyStat key)) with keySlot := some key, keyStage := [], keyBusy := false }
  else d

/-! ### The trim page -/

/-- A page of 256 bytes carries its own CRC (R69, R70). -/
def pageOk (p : List Byte) : Bool :=
  decide (crc16 (p.take 254) = (p.getD 255 0) ++ (p.getD 254 0))

/-- The bytes of TRIM_BUF. -/
def trimBytes (d : Dev) : List Byte := (List.range 64).flatMap fun k => wordBytes (d.rd (Reg.TRIM_BUF k))

/-- A write to TRIM_BUF or TRIM_CMD: discarded with a bus error outside SERVICE or while BUSY is set (R73). -/
def onTrim (d : Dev) (a : Nat) (g : Dev → Dev) : Dev :=
  d.onWrite a fun d =>
    if d.mode = .service ∧ d.bit Reg.TRIM_STAT F.TRIM_STAT_BUSY = false then g d else d.busErr

/-- TRIM_CMD (R73): the key checks the buffer and starts the rewrite (corners DEDUCED, log 27). -/
def trimStart (d : Dev) (v : Word) : Dev :=
  if v ≠ 0x7A31 then d
  else if pageOk d.trimBytes then
    (d.setF Reg.TRIM_STAT F.TRIM_STAT_ERR 0).setB Reg.TRIM_STAT F.TRIM_STAT_BUSY true
  else d.setF Reg.TRIM_STAT F.TRIM_STAT_ERR 1

/-- WCNT and WEAR follow the wear counter (corners DEDUCED, log 27). -/
def wearShown (d : Dev) : Dev :=
  (d.setF Reg.TRIM_STAT F.TRIM_STAT_WCNT (min d.wear 2047)).setB Reg.TRIM_STAT F.TRIM_STAT_WEAR
    (decide (1000 < d.wear))

/-- The rewrite ends (R73); a page that reads back otherwise holds bytes that nothing fixes (log 2) (corners DEDUCED, log
27). -/
def trimEnd (d : Dev) (readBackOk : Bool) : Dev :=
  if d.bit Reg.TRIM_STAT F.TRIM_STAT_BUSY then
    let n := d.draw
    let d1 :=
      if readBackOk then { d with trimCells := d.trimBytes }
      else { n.2 with trimCells := (List.range 256).map (Config.freeByte n.1) }
    let d2 := { d1 with wear := min (d1.wear + 1) 0xFFFF }
    let d3 := (d2.wearShown.setF Reg.TRIM_STAT F.TRIM_STAT_ERR (if readBackOk then 0 else 2)).setB
      Reg.TRIM_STAT F.TRIM_STAT_BUSY false
    d3.flag Reg.TRIM_STAT F.TRIM_STAT_DONE 0xC3
  else d

end Dev

/-! ### The commands -/

/-- KEY_DATA_WRITE (R68). -/
def execKeyDataWrite (t : Tick) (_m : Master) (k : Fin 4) (v : Word) (s : State) : Out :=
  s.onDev t fun d => d.onKey (Reg.IMG_KEY k.val) fun d =>
    { d with keyStage := Dev.putBytes d.keyStage (4 * k.val) 16 (wordBytes v) }

/-- KEY_SLOT_PROGRAM (R68). -/
def execKeySlotProgram (t : Tick) (_m : Master) (v : Word) (s : State) : Out :=
  s.onDev t fun d => d.onKey Reg.IMG_KEYCTL fun d =>
    if v = 0x4B59 then { d with keyBusy := true } else d.keyDenied

/-- KEY_PROGRAM_DONE (R68). -/
def execKeyProgramDone (t : Tick) (s : State) : Out := s.onDev t Dev.keyEnd

/-- TRIM_BUFFER_WRITE (R73). -/
def execTrimBufferWrite (t : Tick) (_m : Master) (k : Fin 64) (v : Word) (s : State) : Out :=
  s.onDev t fun d => d.onTrim (Reg.TRIM_BUF k.val) fun d => d.wr (Reg.TRIM_BUF k.val) v

/-- TRIM_REWRITE (R73). -/
def execTrimRewrite (t : Tick) (_m : Master) (v : Word) (s : State) : Out :=
  s.onDev t fun d => d.onTrim Reg.TRIM_CMD fun d => d.trimStart v

/-- TRIM_REWRITE_DONE (R73). -/
def execTrimRewriteDone (t : Tick) (readBackOk : Bool) (s : State) : Out := s.onDev t fun d => d.trimEnd readBackOk

end Sys2Proof.Machine
end

