-- ==== Sys2Proof/Machine/Power.lean ====
section
/-! DEFINITION. Power-up, resets, STANDBY with its wake and the phase memory, HALT, SERVICE (R27 to R52,
R71). -/

namespace Sys2Proof.Machine

open Sys2Proof

namespace Dev

/-! ### Resets (R39 to R41) -/

/-- The modes in which the logic die is powered. -/
def powered (d : Dev) : Bool := decide (d.mode ≠ .unpowered ∧ d.mode ≠ .standby)

/-- A programming of the key slot or of the trim page that a reset breaks off: what it was writing is undefined
(R52, log 2). -/
def brokenWrites (d : Dev) : Dev :=
  let d1 :=
    if d.keyBusy then
      let n := d.draw
      { (n.2.wr Reg.IMG_KEYSTAT (Config.freeWord n.1 &&& 0xFFFFFF01)) with
        keyBusy := false, keySlot := none, keyUndef := true }
    else d
  if d1.bit Reg.TRIM_STAT F.TRIM_STAT_BUSY then
    let n := d1.draw
    { n.2 with trimCells := (List.range 256).map (Config.freeByte n.1) }
  else d1

/-- A word of a register carried over a reset. -/
def carry (old d : Dev) (a : Nat) : Dev := d.wr a (old.rd a)

/-- What every reset keeps: the cells of the trim page and the key slot with what shows them, the grade, the level
of RESET_N, the draws of free values. -/
def fresh (d0 : Dev) : Dev :=
  let d := d0.brokenWrites
  let n := State.reset.dev
  (carry d { n with
    grade := d.grade, freeCtr := d.freeCtr, keySlot := d.keySlot, keyUndef := d.keyUndef
    trimCells := d.trimCells, wear := d.wear, waitReset := d.waitReset } Reg.IMG_KEYSTAT).wearShown

/-- The AON state carried over (R39, R42): the phase memory, SYS_WAKE, SYS_PMCFG, SYS_PMSTAT, WAKE_OUT; and
SYS_RSTCAUSE, which counts on until it is cleared. -/
def keepAon (old d : Dev) : Dev :=
  let l := [Reg.SYS_RSTCAUSE, Reg.SYS_WAKE, Reg.SYS_PMCFG, Reg.SYS_PMSTAT .a, Reg.SYS_PMSTAT .b]
  { l.foldl (carry old) d with
    pmA := old.pmA, pmB := old.pmB, wakeOut := old.wakeOut, wakeReq := old.wakeReq }

/-- The banks and IGN outputs of a half that are on (R40) (corners DEDUCED, log 18). -/
def drivenHalf (d : Dev) (h : Half) : List (Half × Nat × Bool) :=
  ((List.range 6).filterMap fun b =>
    let x := d.bank h b
    if x.phase ≠ .idle ∨ x.decaying then some (h, b, x.decaying) else none) ++
  (List.range 12).filterMap fun k =>
    let x := d.ign h k
    if x.high then some (h, 16 + k, x.softoff) else none

/-- A reset from another source than power-on (R39): BOOT before step 1; SYS_BOOTSTAT stands until step 1 ends
(R41). What the power die drives at that moment stays on until the sentinel acts (R40) (corners DEDUCED, log 14). -/
def resetDev (d : Dev) (cause : Fld) : Dev :=
  { carry d ((keepAon d d.fresh).setB Reg.SYS_RSTCAUSE cause true) Reg.SYS_BOOTSTAT with
    driven := if d.powered then d.driven ++ d.drivenHalf .a ++ d.drivenHalf .b else [] }

/-- A reset of a powered device (corners DEDUCED, log 14). -/
def resetPowered (d : Dev) (cause : Fld) : Dev := if d.powered then d.resetDev cause else d

/-- A power-on reset (R39): AON state is lost. -/
def powerOn (d : Dev) : Dev := d.fresh

/-! ### The registers of the TAP (R413) -/

/-- The TAP works from POR release on, in every powered mode. -/
def tapWorks (d : Dev) : Bool := d.powered

/-- The identification register of the TAP: the device identification of R1 (corners DEDUCED, log 76). -/
def tapId (d : Dev) : Option Word := if d.tapWorks then some (idView d) else none

/-- The boot status register of the TAP: the present contents of SYS_ID and of SYS_BOOTSTAT (R413). -/
def tapBoot (d : Dev) : Option (Word × Word) :=
  if d.tapWorks then some (idView d, d.rd Reg.SYS_BOOTSTAT) else none

/-! ### Steps 1 to 7 of the power-up sequence (R31, R35) -/

/-- A step ended (corners DEDUCED, log 15). -/
def bootStep (d : Dev) (n : Nat) : Dev := d.setF Reg.SYS_BOOTSTAT F.SYS_BOOTSTAT_STEP n

/-- A code recorded. -/
def bootCode (d : Dev) (c : Nat) : Dev := d.setF Reg.SYS_BOOTSTAT F.SYS_BOOTSTAT_CODE c

/-- A stopping code recorded. -/
def bootStop (d : Dev) (c : Nat) : Dev := { d.bootCode c with stopped := true }

/-- Step 2 (R70, R71): the trim page in its registers; its CRC or its absence recorded. TRIM_PAGE reads 0 where the page
is unreadable (DESIGN CHOICE, log 70). -/
def trimLoad (d : Dev) (readable : Bool) : Dev :=
  let p := (List.range 256).map fun i => d.trimCells.getD i 0
  if readable then
    let d1 := (List.range 64).foldl (fun d k => d.wr (Reg.TRIM_PAGE k) (wordAt p (4 * k))) d
    if pageOk p then d1 else (d1.bootCode 0x21).setB Reg.SYS_BOOTSTAT F.SYS_BOOTSTAT_TRIM_BAD true
  else (d.bootCode 0x22).setB Reg.SYS_BOOTSTAT F.SYS_BOOTSTAT_TRIM_BAD true

/-- The code of a stop in steps 4 to 6, on this grade: a TZN-5110 has two converters (R35). -/
def stopCode (d : Dev) : Option BootStop → Option Nat
  | some .delayLine => some 0x41
  | some (.adc k) => if d.grade = .tzn5110 ∧ 2 ≤ k.val then none else some (0x51 + k.val)
  | some .march => some 0x61
  | some .ecc => some 0x62
  | _ => none

/-- The step of a stop in steps 4 to 6: a step that stops the sequence is the last that ended (R31, R35) (corners DEDUCED,
log 15). -/
def stopStep (c : Nat) : Nat := if c = 0x41 then 4 else if c < 0x60 then 5 else 6

/-- The flash as the loader sees it (R352): log2 of its size, its dummy clocks, a signature, a 1-1-4 read (corners DEDUCED,
log 15). -/
def probed : FlashProbe → Option (Nat × Byte × Bool × Bool)
  | .silent => none
  | .noSfdp => some (24, 0, false, false)
  | .noQuad n k => some (n, k, true, false)
  | .quad n k => some (n, k, true, true)

/-- Step 7: NVL_STAT, and the code of a flash that is read on a single line (corners DEDUCED, log 15). -/
def probeShown (d : Dev) (n : Nat) (k : Byte) (sfdp quad : Bool) : Dev :=
  let st := Reg.NVL_STAT
  let d1 := ((((d.setF st F.NVL_STAT_DENS n).setF st F.NVL_STAT_DUMMY k.toNat).setB st F.NVL_STAT_ADDR4
    (decide (24 < n))).setB st F.NVL_STAT_QREAD quad).setB st F.NVL_STAT_SFDP sfdp
  if quad then d1
  else (d1.bootCode (if sfdp then 0x73 else 0x72)).setB Reg.SYS_BOOTSTAT F.SYS_BOOTSTAT_SINGLE_READ true

/-! ### The phase memory at step 9 (R47) -/

/-- The AON memory of a half. -/
def phaseMem (d : Dev) : Half → PhaseMem
  | .a => d.pmA
  | .b => d.pmB

/-- The AON memory of a half replaced. -/
def setPhaseMem (d : Dev) (h : Half) (p : PhaseMem) : Dev :=
  match h with
  | .a => { d with pmA := p }
  | .b => { d with pmB := p }

/-- SYS_PMSTAT of a half as step 9 finds it, and the memory spent; with no index handed over it reads 0 (corners
DEDUCED, log 16). -/
def pmFound (d : Dev) (h : Half) : Dev :=
  let st := Reg.SYS_PMSTAT h
  let p := d.phaseMem h
  let d1 := d.setPhaseMem h Init.phaseMem
  if d.fromWake then
    match p.index with
    | some k =>
      let ok := decide (p.src ≠ 0) && !p.dirErr && !p.ovf && decide (p.sig = d.signature h)
      let tooth := (((k : Int) + p.count) % (max 1 p.len : Nat)).toNat
      ((((((d1.wr st 0).setF st F.SYS_PMSTAT_COUNT (wordOfInt p.count).toNat).setF st F.SYS_PMSTAT_TOOTH
        tooth).setB st F.SYS_PMSTAT_OVF p.ovf).setB st F.SYS_PMSTAT_DIR_ERR p.dirErr).setB st
          F.SYS_PMSTAT_VALID ok)
    | none => d1.wr st 0
  else
    ((d1.setB st F.SYS_PMSTAT_VALID false).setB st F.SYS_PMSTAT_USED false).setB st F.SYS_PMSTAT_DISCARDED false

/-- VALID of a half cleared: step 9 found no image whose tables could match (R47). -/
def pmInvalid (d : Dev) (h : Half) : Dev := d.setB (Reg.SYS_PMSTAT h) F.SYS_PMSTAT_VALID false

/-! ### HALT (R49, R50) -/

/-- HALT entered: outputs end safely, PWM outputs take their safe levels, linked timers are disarmed (corners DEDUCED, log
17). -/
def enterHalt (d : Dev) : Dev :=
  let d1 := { d with mode := .halt, debugReq := false }
  let d2 := (((d1.haltHalf .a).haltHalf .b).timersCancel fun n => decide (n ≠ 0)).queueStatus 2
  { d2.coltFreeze with pwmHalt := true }

/-- A debug request: taken in OPERATE, held in BOOT and LOAD, ignored elsewhere. -/
def debugRequest (d : Dev) : Dev :=
  match d.mode with
  | .operate => d.enterHalt
  | .boot | .load => { d with debugReq := true }
  | _ => d

/-- A debug resume: PWM outputs return at their next period, the heartbeat gets a first window. -/
def debugResume (d : Dev) : Dev :=
  match d.mode with
  | .halt => ({ d with mode := .operate }.pwmResume.coltThaw.openWindow).queueStatus 2
  | _ => d

/-! ### OPERATE entered (R32, R38) -/

/-- A half starts: a half that the image does not enable stays out of its modes, code 0x7 (DESIGN CHOICE, log 69). An
enabled one gets its tables' signatures, its ripple tables, its safe levels, its phase memory, its channels, its compares. -/
def startHalf (y : DevMem) (h : Half) : DevMem :=
  let d := y.1
  if (d.half h).enabled then
    let d1 := (List.range 16).foldl (fun d k => d.gaoSafe h k) d
    let d2 := d1.onHalf h fun s => { s with
      mode := .idle, prev := .idle, track := { s.track with ripple := deriveRipple d y.2 h } }
    let d3 := (d2.signed h).pmFound h
    let d4 := (List.range 256).foldl
      (fun d c =>
        let w := d.ctrl h c
        if getB w F.EVC_CTRL_CYC || getB w F.EVC_CTRL_ARMEN then d.arm h c else d) d3
    let d5 := (d4.ascReady h).segLoad h
    (if d5.bit (Reg.BST_CTRL h) F.BST_CTRL_EN then d5.softStart h else d5, y.2)
  else y.dev fun d => d.pmFound h

/-- The qualified SAFE_REQ_N acts (R362): both halves to SAFE, device-wide SAFE begins. -/
def safeReqActs (d : Dev) : Dev :=
  if d.safeReq && d.operating then
    let d1 := if d.devSafe then d else (d.incF Reg.SAF_CNT F.SAF_CNT_DEV).startDevSafe
    (d1.enterSafe .a rSAFEREQ false).enterSafe .b rSAFEREQ false
  else d

/-- Both cross-link receive sides start valid where both halves are enabled (R373) (corners DEDUCED, log 61). -/
def xlkStart (d : Dev) : Dev :=
  if d.a.enabled && d.b.enabled then
    (d.setB (Reg.XLK_STAT .a) F.XLK_STAT_UP true).setB (Reg.XLK_STAT .b) F.XLK_STAT_UP true
  else d

/-- OPERATE entered (R32): READY, the ready source pending, the first heartbeat window; then what the conditions found in
BOOT make of it: the classes TRIM and CLOCK, SAFE_REQ_N, a held debug request (R35, R49, R71, R362). -/
def enterOperate (y : DevMem) (env : PowerUp) : DevMem :=
  let y1 := y.dev fun d => { d with mode := .operate, safeReq := env.safeReqLow }
  let y2 := y1.dev fun d => (d.sensesAt .a env.linesA).sensesAt .b env.linesB
  (startHalf (startHalf y2 .a) .b).dev fun d =>
    let rdy := Reg.SYS_READY
    let d1 := (((d.setB rdy F.SYS_READY_HALF_A_ON d.a.enabled).setB rdy F.SYS_READY_HALF_B_ON d.b.enabled).setB
      rdy F.SYS_READY_RDY true).wr Reg.SYS_BOOTTIME env.bootMicros
    let d2 := ((((d1.xlkStart.pwmReady.adcReady.coltReady.muleReady).openWindow).irqRaise 0xC0).queueStatus 2)
    let d3 := { d2 with fromWake := false }
    let d4 := if d3.bit Reg.SYS_BOOTSTAT F.SYS_BOOTSTAT_TRIM_BAD then d3.fault .trim .device else d3
    let d5 := if d4.bit Reg.SYS_BOOTSTAT F.SYS_BOOTSTAT_RC_CLK then d4.fault .clock .device else d4
    let d6 := d5.safeReqActs
    if d6.debugReq then d6.enterHalt else d6

/-! ### The sequence (R31) -/

/-- Steps 8 and 9 with a flash of 2 to the `n` bytes (DESIGN CHOICE, log 9). -/
def loadImage (y : DevMem) (env : PowerUp) (n : Nat) : DevMem :=
  let r := Image.load y env.flash (2 ^ n)
  match r.2 with
  | some c =>
    let late := [r.1.1.f Reg.IMG_FAIL1 F.IMG_FAIL_CHECK, r.1.1.f Reg.IMG_FAIL2 F.IMG_FAIL_CHECK].any
      fun k => decide (0x30 ≤ k)
    let nine := decide (c ≠ 0x81) && late
    r.1.dev fun d =>
      let d1 := (d.bootStep (if nine then 9 else 8)).bootStop c
      if nine then (d1.pmInvalid .a).pmInvalid .b else d1
  | none => enterOperate (r.1.dev fun d => d.bootStep 0xA) env

/-- Steps 4 to 9, from the end of step 3 on: the bus and the time base run. -/
def afterClocks (y : DevMem) (env : PowerUp) : DevMem :=
  let d := y.1
  match d.stopCode env.stop with
  | some c =>
    let d1 := if c = 0x41 then d else d.setF Reg.PWM_DLSTAT F.PWM_DLSTAT_CODE env.dlCode.toNat
    ((d1.bootStep (stopStep c)).bootStop c, y.2)
  | none =>
    let d1 := { ((d.setF Reg.PWM_DLSTAT F.PWM_DLSTAT_CODE env.dlCode.toNat).bootStep 6) with mode := .load }
    match probed env.probe with
    | none => ((d1.bootStep 7).bootStop 0x71, [])
    | some (n, k, sfdp, quad) => loadImage ((d1.probeShown n k sfdp quad).bootStep 7, []) env n

/-- The power-up sequence from step 1 on (R31); the time base stands at `t` when it ends. The endings of R40 have
run out long before step 1 ends (DESIGN CHOICE, log 9). -/
def sequence (y : DevMem) (t : Nat) (env : PowerUp) : DevMem :=
  let d := { y.1 with driven := [] }
  let d1 := (d.wr Reg.SYS_BOOTSTAT 0).bootStep 1
  let d2 := (d1.trimLoad env.trimReadable).bootStep 2
  let d3 := if env.xinValid then d2
    else (d2.bootCode 0x31).setB Reg.SYS_BOOTSTAT F.SYS_BOOTSTAT_RC_CLK true
  match env.stop with
  | some .pllM => ((d3.bootStep 3).bootStop 0x32, y.2)
  | some .pllG => ((d3.bootStep 3).bootStop 0x33, y.2)
  | _ =>
    afterClocks ({ d3.bootStep 3 with
      timeRun := true, busRun := true, timeBase := BitVec.ofNat 64 t, wakeOut := false
      hbRun := true, hbSince := t }, y.2) env

/-- The sequence begins, or waits in step 1 for RESET_N (R41). -/
def begin (y : DevMem) (t : Nat) (env : PowerUp) : DevMem :=
  if y.1.waitReset then y.dev fun d => { d with heldUp := some (t, env) } else sequence y t env

/-- All supplies are valid (R27, R31): the sequence of a device that waits for them (DESIGN CHOICE, log 9). -/
def supply (y : DevMem) (t : Nat) (env : PowerUp) : DevMem :=
  match y.1.mode with
  | .unpowered => begin (y.dev powerOn) t env
  | .standby =>
    if y.1.wakeReq then
      begin (y.dev fun d => { d.resetDev F.SYS_RSTCAUSE_WAKE with fromWake := true }) t env
    else y
  | .boot => if y.1.stopped || y.1.busRun then y else begin y t env
  | _ => y

/-- RESET_N goes high (R41) (DESIGN CHOICE, log 9; DEDUCED, log 14). -/
def released (y : DevMem) : DevMem :=
  let y1 := y.dev fun d => { d with waitReset := false, heldUp := none }
  match y.1.heldUp with
  | some (t, env) => if y.1.waitReset then sequence y1 t env else y1
  | none => y1

/-! ### STANDBY and wake (R42 to R46) -/

/-- The index that a half hands over, with its direction (R42). -/
def indexHeld (d : Dev) (h : Half) : Option (Nat × Bool) :=
  let s := d.half h
  match s.mode with
  | .phase | .run | .limp | .rundown => some (s.wheel.k, s.sense.lastRev)
  | .idle =>
    let w := d.rd (Reg.ANG_PARKIDX h)
    if getB w F.ANG_PARKIDX_VALID && getB w F.ANG_PARKIDX_PHK then
      some (getF w F.ANG_PARKIDX_INDEX, getB w F.ANG_PARKIDX_DIR)
    else none
  | _ => none

/-- A half hands its index to the AON island; `ok`: within the 1 µs (R42) (corners DEDUCED, log 16). -/
def handOver (d : Dev) (h : Half) (ok : Bool) : Dev :=
  match d.indexHeld h with
  | some (k, rev) =>
    if ok then
      d.setPhaseMem h { Init.phaseMem with
        index := some k, rev := rev, sig := d.rd (Reg.WHL_SIG h), len := d.edges h }
    else d.setPhaseMem h Init.phaseMem
  | none => d.setPhaseMem h Init.phaseMem

/-- SETTLE, PM_EN and WAKEN of a half (R45). -/
def pmFields : Half → Fld × Fld × Fld
  | .a => (F.SYS_PMCFG_SETTLE_A, F.SYS_PMCFG_PM_EN_A, F.SYS_PMCFG_WAKEN_A)
  | .b => (F.SYS_PMCFG_SETTLE_B, F.SYS_PMCFG_PM_EN_B, F.SYS_PMCFG_WAKEN_B)

/-- The AON memory of a half as STANDBY begins: its direction source (R85, R86), its settling, its enable (R45, R46).
With PM_EN clear the half has no phase memory; its edges still count towards the motion wake, which WAKEN alone enables
(corners DEDUCED, log 16). -/
def pmStandby (old d : Dev) (t : Nat) (h : Half) : Dev :=
  let p := old.phaseMem h
  let k := old.crankCfg h
  d.setPhaseMem h { p with
    index := if old.bit Reg.SYS_PMCFG (pmFields h).2.1 then p.index else none
    src := if (old.half h).enabled then old.dirsrc h else 0
    fwdLvl := old.bit (Reg.SNS_CFG k) F.SNS_CFG_FWD_LVL, dirCfg := old.rd (Reg.SNS_DIRCFG k), entryT := t
    settled := decide (old.f Reg.SYS_PMCFG (pmFields h).1 = 0), count := 0, ovf := false, dirErr := false
    recent := [] }

/-- The wake request with its cause (R43): the first one is recorded (corners DEDUCED, log 16). -/
def wake (d : Dev) (cause : Fld) : Dev :=
  if d.wakeReq then d
  else
    let w := d.rd Reg.SYS_WAKE &&& 0xFFFFFFF8
    { (d.wr Reg.SYS_WAKE w).setB Reg.SYS_WAKE cause true with wakeReq := true, wakeOut := true }

/-- STANDBY entered (R42): only the AON state stays. -/
def enterStandby (d : Dev) (t : Nat) (wakeIn : Bool) : Dev :=
  if d.powered then
    let n := { keepAon d d.fresh with mode := .standby, wakeReq := false, wakeOut := false }
    let n1 := pmStandby d (pmStandby d n t .a) t .b
    if wakeIn then n1.wake F.SYS_WAKE_WAKE_IN else n1
  else d

/-- The largest net forward count of the edges from some edge to the last; newest first (corners DEDUCED, log 16). -/
def bestNet : List (Nat × Bool) → Int → Int → Int
  | [], _, best => best
  | (_, fwd) :: l, run, best =>
    let r := run + if fwd then 1 else -1
    bestNet l r (max best r)

/-- The motion cause of a half (corners DEDUCED, log 16). -/
def motionBit : Half → Fld
  | .a => F.SYS_WAKE_MOTION_A
  | .b => F.SYS_WAKE_MOTION_B

/-- A crank edge in STANDBY with its direction (R45 to R47) (corners DEDUCED, log 16). -/
def standbyEdge (d : Dev) (t : Nat) (h : Half) (fwd : Bool) : Dev :=
  let p := d.phaseMem h
  let n := p.count + if fwd then 1 else -1
  let recent := if p.settled then
      (t, fwd) :: p.recent.filter fun e => decide (t ≤ e.1 + 400000000)
    else []
  let d1 := d.setPhaseMem h { p with
    count := n, ovf := p.ovf || decide (n < -32768 ∨ 32767 < n), recent := recent }
  let w := d.f Reg.SYS_PMCFG (pmFields h).2.2
  if p.settled && decide (w ≠ 0 ∧ (w : Int) ≤ bestNet recent 0 0) then d1.wake (motionBit h) else d1

/-- The direction that an edge in STANDBY shows (R46, R86, R87): `none` where it is ambiguous, and no answer where the
half's source does not time this edge or discards its pulse (corners DEDUCED, log 16). -/
def wakeDir (p : PhaseMem) : WakeEdge → Option (Option Bool)
  | .timed crkd gap =>
    if p.src = 2 then
      some (if gap ≤ 10 * getF p.dirCfg F.SNS_DIRCFG_QWIN then none else some (crkd == p.fwdLvl))
    else none
  | .pulse w =>
    let rev := 1000 * getF p.dirCfg F.SNS_DIRCFG_REV_MIN
    if p.src ≠ 1 ∨ 2 * rev < w then none
    else if w ≤ 1000 * getF p.dirCfg F.SNS_DIRCFG_FWD_MAX then some (some true)
    else if rev ≤ w then some (some false)
    else some none

/-- What the AON counter makes of one edge (R45, R46). -/
def standbyCrank (d : Dev) (t : Nat) (h : Half) (e : WakeEdge) : Dev :=
  if d.mode = .standby then
    match wakeDir (d.phaseMem h) e with
    | some (some fwd) => d.standbyEdge t h fwd
    | some none => d.setPhaseMem h { d.phaseMem h with dirErr := true }
    | none => d
  else d

/-- The settling of a half ends (R45). -/
def settleEnd (d : Dev) (t : Nat) (h : Half) : Dev :=
  let p := d.phaseMem h
  if d.mode = .standby ∧ p.entryT + 400000000 * d.f Reg.SYS_PMCFG (pmFields h).1 ≤ t then
    d.setPhaseMem h { p with settled := true }
  else d

/-- VBAT lost (R27): unpowered, AON state lost. -/
def unpower (d : Dev) : Dev := { d.fresh with mode := .unpowered }

/-! ### SERVICE (R51) -/

/-- A half leaves its mode for SERVICE: its outputs end safely; VBST is no longer sensed (R212). -/
def serviceHalf (d : Dev) (h : Half) : Dev :=
  if d.hmode h = .off then d
  else (((d.endHalf h .off rHALT).boostOff h).setB (Reg.BST_STAT h) F.BST_STAT_BELOW_START true).setF (Reg.BST_VMEAS h)
    F.BST_VMEAS_VBST 0

/-- SERVICE entered (R51); a debug request held in LOAD stays pending (corners DEDUCED, log 17). -/
def enterService (d : Dev) : Dev :=
  let d1 := (d.serviceHalf .a).serviceHalf .b
  let d2 := d1.timersCancel fun _ => true
  let d3 := (List.range 8).foldl (fun d e => if d.coltStopped e then d else d.coltHalt e 3) d2
  ({ d3 with mode := .service }.setB Reg.SYS_READY F.SYS_READY_RDY false).queueStatus 2

/-- The states in which SERVICE may be entered (R51). -/
def serviceMay (d : Dev) : Bool :=
  match d.mode with
  | .load => true
  | .operate => [Half.a, Half.b].all fun h => decide (d.hmode h = .idle ∨ d.hmode h = .off)
  | _ => false

/-- KEY_ERR (R51, SYS_FLAG). -/
def keyErr (d : Dev) : Dev := d.flag Reg.SYS_FLAG F.SYS_FLAG_KEY_ERR 0xC1

/-- A write of SYS_SVCKEY: the two words by one master, at most 100 SYS cycles apart (R51) (corners DEDUCED, log 17). -/
def serviceKey (d : Dev) (m : Master) (v : Word) : Dev :=
  let live := match d.svcKey with
    | some (_, t) => decide (d.now ≤ t + 200)
    | none => false
  let mine := live && match d.svcKey with
    | some (k, _) => decide (k = m)
    | none => false
  if v = 0x5E7C then
    let d1 := if live then d.keyErr else d
    { d1 with svcKey := some (m, d.now) }
  else
    let d1 := { d with svcKey := none }
    if v = 0xA183 ∧ mine = true then
      if d.serviceMay then d1.enterService else d1.flag Reg.SYS_FLAG F.SYS_FLAG_SVC_DENIED 0xC1
    else d1.keyErr

end Dev

/-! ### The commands -/

/-- SUPPLY_VALID (R27, R31). -/
def execSupplyValid (t : Tick) (env : PowerUp) (s : State) : Out :=
  s.onBoth t fun d m => Dev.supply (d, m) t.toNat env

/-- POWER_ON_RESET (R39). -/
def execPowerOnReset (t : Tick) (s : State) : Out := s.onDev t Dev.powerOn

/-- BROWN_RESET (R39, R395). -/
def execBrownReset (t : Tick) (s : State) : Out := s.onDev t fun d => d.resetPowered F.SYS_RSTCAUSE_BROWN

/-- PIN_RESET (R39): RESET_N stays low until it is released. -/
def execPinReset (t : Tick) (s : State) : Out :=
  s.onDev t fun d => if d.powered then { d.resetDev F.SYS_RSTCAUSE_PIN with waitReset := true } else d

/-- RESET_N_RELEASE (R41). -/
def execResetNRelease (t : Tick) (s : State) : Out := s.onBoth t fun d m => Dev.released (d, m)

/-- SOFTWARE_RESET (R39). -/
def execSoftwareReset (t : Tick) (_m : Master) (v : Word) (s : State) : Out :=
  s.onDev t fun d => d.onWrite Reg.SYS_SWRST fun d =>
    if v = 0xC3A5 then d.resetDev F.SYS_RSTCAUSE_SOFT else d.keyErr

/-- TAP_RESET (R39): the TAP alone; its two registers only show the device, so nothing of them is lost. -/
def execTapReset (t : Tick) (s : State) : Out := s.onDev t id

/-- VDDC_EARLY_WARNING (R42). -/
def execVddcEarlyWarning (t : Tick) (okA okB : Bool) (s : State) : Out :=
  s.onDev t fun d => if d.powered then (d.handOver .a okA).handOver .b okB else d

/-- STANDBY_ENTRY (R42, R43, R395). -/
def execStandbyEntry (t : Tick) (wakeIn : Bool) (s : State) : Out := s.onDev t fun d => d.enterStandby t.toNat wakeIn

/-- VBAT_LOST (R27). -/
def execVbatLost (t : Tick) (s : State) : Out := s.onDev t Dev.unpower

/-- WAKE_IN_ASSERTED (R43). -/
def execWakeInAsserted (t : Tick) (s : State) : Out :=
  s.onDev t fun d => if d.mode = .standby then d.wake F.SYS_WAKE_WAKE_IN else d

/-- STANDBY_CRANK_EDGE (R45, R46). -/
def execStandbyCrankEdge (t : Tick) (h : Half) (e : WakeEdge) (s : State) : Out :=
  s.onDev t fun d => d.standbyCrank t.toNat h e

/-- SETTLE_EXPIRY (R45). -/
def execSettleExpiry (t : Tick) (h : Half) (s : State) : Out :=
  s.onDev t fun d => d.settleEnd t.toNat h

/-- WAKE_SUPPLY_TIMEOUT (R43): WAKE_OUT stays high, nothing is repeated. -/
def execWakeSupplyTimeout (t : Tick) (s : State) : Out := s.onDev t id

/-- JTAG_DEBUG_REQUEST (R49). -/
def execJtagDebugRequest (t : Tick) (s : State) : Out := s.onDev t Dev.debugRequest

/-- JTAG_DEBUG_RESUME (R50). -/
def execJtagDebugResume (t : Tick) (s : State) : Out := s.onDev t Dev.debugResume

/-- SERVICE_KEY_WRITE (R51). -/
def execServiceKeyWrite (t : Tick) (m : Master) (v : Word) (s : State) : Out :=
  s.onDev t fun d => d.onWrite Reg.SYS_SVCKEY fun d => d.serviceKey m v

end Sys2Proof.Machine
end

