-- ==== Sys2Proof/Machine/Monitors.lean ====
section
/-! DEFINITION. Safety: the monitors and what they raise, the sentinel, SAFE_REQ_N, the end of device-wide SAFE, the
built-in tests, the cross-link (R355 to R376). -/

namespace Sys2Proof.Machine

open Sys2Proof

namespace Dev

/-- A fault that a monitor finds from the end of step 3 of power-up on (R416) (corners DEDUCED, log 19). -/
def found (d : Dev) (cls : FaultClass) (sc : Scope) : Dev := if d.busRun then d.fault cls sc else d

/-! ### Memory and registers (R370) -/

/-- The scope of a memory address (R370): a half for its address range, its tooth log and its learned tables. -/
def memScope (a : Nat) : Scope :=
  match halfAt a with
  | some h => .half h
  | none =>
    if inRange a (logBase .a) 0x8000 || inRange a (learnBase .a) 0xC00 then .half .a
    else if inRange a (logBase .b) 0x8000 || inRange a (learnBase .b) 0xC00 then .half .b
    else .device

/-- A read finds an error (R370): corrected and counted, or class ECC and a bus error (corners DEDUCED, log 60). -/
def eccRead (d : Dev) (a : Word) (double : Bool) : Dev :=
  if d.busRun then
    if double then
      (((d.incF Reg.SAF_ECC F.SAF_ECC_UE).wr Reg.SAF_ECCADDR a).fault .ecc (memScope a.toNat)).busErr
    else d.incF Reg.SAF_ECC F.SAF_ECC_CE
  else d

/-! ### Clocks, supplies, temperature (R371, R372) -/

/-- The tolerances of the pairs PLL-M and XIN, PLL-M and RC, PLL-M and PLL-G, PLL-G and RC, in ppm (R371); without a
valid trim page the wider ones (R411); none where PLL-M runs on the internal RC and the pair is not compared. -/
def clockTol (rc bad : Bool) : List (Option Nat) :=
  match rc, bad with
  | false, false => [some 5000, some 40000, some 60000, some 90000]
  | true, false => [none, none, some 90000, some 90000]
  | false, true => [some 5000, some 200000, some 250000, some 400000]
  | true, true => [none, none, some 400000, some 400000]

/-- The clocks out of tolerance, as SAF_MON.CLK shows them: both of a pair that differs by more than its tolerance
(corners DEDUCED, log 60). -/
def clocksOut (d : Dev) (w : Clocks) : Nat :=
  let tol := clockTol (d.bit Reg.SYS_BOOTSTAT F.SYS_BOOTSTAT_RC_CLK) (d.bit Reg.SYS_BOOTSTAT F.SYS_BOOTSTAT_TRIM_BAD)
  let off := fun (n : Nat) (x y : Int) => (tol.getD n none).any fun t => decide (t < (x - y).natAbs)
  let mx := off 0 w.pllM w.xin
  let mr := off 1 w.pllM w.rc
  let mg := off 2 w.pllM w.pllG
  let gr := off 3 w.pllG w.rc
  bnat (mx || mr || mg) + 2 * bnat (mg || gr) + 4 * bnat (mr || gr) + 8 * bnat mx

/-- A window of the clock monitors (R371), with a half's clock tree (R10) and the sentinel's oscillator (R375)
(corners DEDUCED, log 60). -/
def clockWindow (d : Dev) (w : Clocks) (tree : Option Half) : Dev :=
  if d.busRun then
    let out := d.clocksOut w
    let d1 := d.setF Reg.SAF_MON F.SAF_MON_CLK out
    let d2 := if out ≠ 0 ∨ w.sentinel = true then d1.fault .clock .device else d1
    match tree with
    | some h => d2.fault .clock (.half h)
    | none => d2
  else d

/-- PLL-M stops (R252, R369, R371): class CLOCK, FAULT_N and every PWM output forced, no heartbeat; the islands that
PLL-M clocks stand still until a reset (corners DEDUCED, log 60). -/
def pllStops (d : Dev) : Dev :=
  if d.busRun then
    { d.fault .clock .device with
      pllStop := true, pwmForce := true, hbRun := false, timeRun := false, busRun := false }
  else d

/-- The supplies outside their windows (R372) (corners DEDUCED, log 60). -/
def supplyWindow (d : Dev) (out : BitVec 6) : Dev :=
  if d.busRun then
    let d1 := d.setF Reg.SAF_MON F.SAF_MON_VWIN out.toNat
    if out ≠ 0 then d1.fault .voltage .device else d1
  else d

/-- The die temperatures, in °C (R372) (corners DEDUCED, log 60). -/
def temperature (d : Dev) (logic power : Int) : Dev :=
  if d.busRun then
    let lim : Int := d.f Reg.SAF_CFG F.SAF_CFG_TLIM
    let hot := bnat (decide (lim < logic)) + 2 * bnat (decide (lim < power))
    let d1 := d.setF Reg.SAF_MON F.SAF_MON_TOVER hot
    if hot ≠ 0 then d1.fault .temp .device else d1
  else d

/-! ### The sentinel (R369) -/

/-- The outputs that the sentinel ends in one half: every bank, every IGN output, the boost converter. -/
def sentinelHalf (d : Dev) (h : Half) : Dev :=
  let d1 := (List.range 6).foldl (fun d b => d.cutBank h b) d
  ((List.range 12).foldl (fun d k => d.softOff h k) d1).gateOff h

/-- The sentinel acts and latches; class SENTINEL reports it. During a reset it ends what the power die still
drives, and nothing is reported (R40). The built-in sentinel test latches it without a reaction (R376) (corners DEDUCED,
log 18; DEDUCED, log 60). -/
def sentinelActs (d : Dev) : Dev :=
  if d.mode = .boot ∧ d.busRun = false then
    { d with driven := d.driven.map fun x => (x.1, x.2.1, true) }
  else if d.tests.getLsbD 1 then { d with sentinel := true }
  else if d.powered then
    let d1 := { (d.sentinelHalf .a).sentinelHalf .b with sentinel := true, hbSince := d.now }
    d1.found .sentinel .device
  else d

/-! ### SAFE_REQ_N and recovery (R360, R362) -/

/-- SAFE_REQ_N qualified low (R362) (corners DEDUCED, log 14; DEDUCED, log 55). -/
def safeReqLow (d : Dev) : Dev := if d.busRun then { d with safeReq := true }.safeReqActs else d

/-- All conditions of R360 hold. -/
def mayRecover (d : Dev) : Bool :=
  d.devSafe && d.endingsDone .a && d.endingsDone .b && !d.safeReq &&
    (d.lastFault.all fun t => decide (t + usTk (1000 * d.f Reg.SAF_CFG F.SAF_CFG_HOLD) ≤ d.now)) &&
    d.hbRun && decide (d.hbSince + usTk 100 ≤ d.now) && (d.bit Reg.SAF_CFG F.SAF_CFG_AUTO || d.recover)

/-- Device-wide SAFE ends (R360). -/
def endDevSafe (d : Dev) : Dev :=
  if d.mayRecover then { d with devSafe := false, recover := false, sentinel := false }.raise 0xCE else d

/-! ### Built-in tests (R376) -/

/-- The tests are accepted: every enabled half is in IDLE, no device-wide SAFE (corners DEDUCED, log 62). -/
def testMay (d : Dev) : Bool :=
  !d.devSafe && [Half.a, Half.b].all fun h => d.absent h || decide (d.hmode h = .idle)

/-- A write of SAF_TEST (corners DEDUCED, log 62). -/
def testWrite (d : Dev) (v : Word) : Dev :=
  if getF v F.SAF_TEST_KEY = 0x7E57 ∧ d.testMay = true then
    { (d.setB Reg.SAF_TESTSTAT F.SAF_TESTSTAT_BUSY true) with
      tests := d.tests ||| BitVec.ofNat 5 (getF v F.SAF_TEST_SEL) }
  else d.mark Reg.SAF_TESTSTAT F.SAF_TESTSTAT_TEST_DENIED

/-- The tests end: done and pass of each, the latch of the sentinel test released (corners DEDUCED, log 62). -/
def testEnd (d : Dev) (pass : BitVec 5) : Dev :=
  let st := Reg.SAF_TESTSTAT
  if d.bit st F.SAF_TESTSTAT_BUSY then
    let sel := d.tests
    let d1 := (d.setF st F.SAF_TESTSTAT_DONE (BitVec.ofNat 5 (d.f st F.SAF_TESTSTAT_DONE) ||| sel).toNat).setF st
      F.SAF_TESTSTAT_PASS ((BitVec.ofNat 5 (d.f st F.SAF_TESTSTAT_PASS) &&& ~~~sel) ||| (pass &&& sel)).toNat
    { (d1.setB st F.SAF_TESTSTAT_BUSY false) with
      tests := 0, sentinel := d.sentinel && (d.devSafe || !sel.getLsbD 1) }.raise 0xCE
  else d

/-! ### The cross-link (R373) -/

/-- The cross-link is in use: both halves enabled, the device operating (corners DEDUCED, log 61). -/
def xlkUsed (d : Dev) : Bool := d.operating && d.a.enabled && d.b.enabled

/-- The receive side of a half. -/
def setXlk (d : Dev) (h : Half) (up : Bool) : Dev :=
  match h with
  | .a => { d with xlkA := up }
  | .b => { d with xlkB := up }

/-- The grace of Half B has run out: its outputs end (R373) (corners DEDUCED, log 55; DEDUCED, log 61). -/
def graceOut (d : Dev) : Dev :=
  (d.setB (Reg.XLK_STAT .b) F.XLK_STAT_GRACE_OUT true).enterSafe .b rFAULT false

/-- A half counts the link as lost (R186, R373) (corners DEDUCED, log 61). -/
def xlkLoss (d : Dev) (h : Half) : Dev :=
  if d.xlkUsed && d.xlkUp h then
    let st := Reg.XLK_STAT h
    let d1 := (((d.setXlk h false).setB st F.XLK_STAT_UP false).setB st F.XLK_STAT_LOST true).setF st
      F.XLK_STAT_MARKS 0
    let d2 := (d1.flagH h (Reg.XLK_FLAG h) F.XLK_FLAG_LOST 0x51).xlkCommits
    if h = .b ∧ d2.f (Reg.XLK_CFG .b) F.XLK_CFG_GRACE = 0 then d2.graceOut else d2
  else d

/-- A half counts the link as returned (R373) (corners DEDUCED, log 61). -/
def xlkReturn (d : Dev) (h : Half) : Dev :=
  if d.xlkUsed && !d.xlkUp h then
    let st := Reg.XLK_STAT h
    let d1 := (((d.setXlk h true).setB st F.XLK_STAT_UP true).setB st F.XLK_STAT_LOST false).setB st
      F.XLK_STAT_GRACE_OUT false
    d1.flagH h (Reg.XLK_FLAG h) F.XLK_FLAG_RET 0x51
  else d

end Dev

/-! ### The commands -/

/-- FAULT_REACTION (R356 to R359, R416). -/
def execFaultReaction (t : Tick) (cls : FaultClass) (sc : Scope) (s : State) : Out :=
  s.onDev t fun d => d.found cls sc

/-- ECC_READ_ERROR (R370). -/
def execEccReadError (t : Tick) (addr : Word) (double : Bool) (s : State) : Out :=
  s.onDev t fun d => d.eccRead addr double

/-- SCRUB_PASS (R370): a section CRC differs. -/
def execScrubPass (t : Tick) (differs : Bool) (s : State) : Out :=
  s.onDev t fun d => if differs then d.found .ecc .device else d

/-- PARITY_ERROR (R370). -/
def execParityError (t : Tick) (sc : Scope) (s : State) : Out := s.onDev t fun d => d.found .parity sc

/-- CLOCK_MONITOR_WINDOW (R371, R375) (DESIGN CHOICE, log 39). -/
def execClockMonitorWindow (t : Tick) (w : Clocks) (tree : Option Half) (s : State) : Out :=
  s.onDev t fun d => d.clockWindow w tree

/-- PLL_M_STOP (R371). -/
def execPllMStop (t : Tick) (s : State) : Out := s.onDev t Dev.pllStops

/-- SUPPLY_WINDOW_FAULT (R372). -/
def execSupplyWindowFault (t : Tick) (out : BitVec 6) (s : State) : Out := s.onDev t fun d => d.supplyWindow out

/-- TEMPERATURE_SAMPLE (R372) (DESIGN CHOICE, log 39). -/
def execTemperatureSample (t : Tick) (logic power : Int) (s : State) : Out :=
  s.onDev t fun d => d.temperature logic power

/-- SENTINEL_TIMEOUT (R369). -/
def execSentinelTimeout (t : Tick) (s : State) : Out := s.onDev t Dev.sentinelActs

/-- RETURN_HEARTBEAT_TIMEOUT (R369): not while the sentinel test withholds the heartbeat (R376). -/
def execReturnHeartbeatTimeout (t : Tick) (s : State) : Out :=
  s.onDev t fun d => if d.tests.getLsbD 1 then d else d.found .lane .device

/-- LANE_WORD_ERROR (R374). -/
def execLaneWordError (t : Tick) (s : State) : Out := s.onDev t fun d => d.found .lane .device

/-- LANE_HANDSHAKE_TIMEOUT (R374). -/
def execLaneHandshakeTimeout (t : Tick) (s : State) : Out := s.onDev t fun d => d.found .lane .device

/-- SAFE_REQ_QUALIFIED (R362). -/
def execSafeReqQualified (t : Tick) (s : State) : Out := s.onDev t Dev.safeReqLow

/-- SAFE_REQ_RELEASE (R362). -/
def execSafeReqRelease (t : Tick) (s : State) : Out := s.onDev t fun d => { d with safeReq := false }

/-- SAF_RECOVER_WRITE (R360): outside device-wide SAFE it is ignored. -/
def execSafRecoverWrite (t : Tick) (_m : Master) (v : Word) (s : State) : Out :=
  s.onDev t fun d => d.onWrite Reg.SAF_RECOVER fun d =>
    if v = 0x5246 ∧ d.devSafe = true then { d with recover := true } else d

/-- DEVICE_SAFE_END (R360). -/
def execDeviceSafeEnd (t : Tick) (s : State) : Out := s.onDev t Dev.endDevSafe

/-- SAF_TEST (R376). -/
def execSafTest (t : Tick) (_m : Master) (v : Word) (s : State) : Out :=
  s.onDev t fun d => d.onWrite Reg.SAF_TEST fun d => d.testWrite v

/-- SAF_TEST_DONE (R376). -/
def execSafTestDone (t : Tick) (pass : BitVec 5) (s : State) : Out := s.onDev t fun d => d.testEnd pass

/-- CROSS_LINK_LOSS (R373). -/
def execCrossLinkLoss (t : Tick) (h : Half) (s : State) : Out := s.onDev t fun d => d.xlkLoss h

/-- CROSS_LINK_RETURN (R373). -/
def execCrossLinkReturn (t : Tick) (h : Half) (s : State) : Out := s.onDev t fun d => d.xlkReturn h

end Sys2Proof.Machine
end

