-- ==== Sys2Proof/Machine/Port.lean ====
section
/-! DEFINITION. What the host ports share: the stream buffers (R343, R344), the flash pass-through (R354), the
heartbeat and the host loss (R345 to R348), the responses they queue (R338, R339). -/

namespace Sys2Proof.Machine

open Sys2Proof

namespace Dev

/-- The link state changed by a function. -/
def onLink (d : Dev) (g : Link → Link) : Dev := { d with link := g d.link }

/-- The times of the link changed by a function. -/
def onTime (d : Dev) (g : LinkTime → LinkTime) : Dev := d.onLink fun l => { l with time := g l.time }

/-! ### Stream buffers (R343, R344) -/

/-- A stream buffer. -/
def stream (d : Dev) (b : Nat) : Stream := sparseGet Init.stream d.link.streams b

/-- A stream buffer replaced; UNSENT follows it. -/
def setStream (d : Dev) (b : Nat) (x : Stream) : Dev :=
  (d.onLink fun l => { l with streams := sparseSet Init.stream l.streams b x }).setF (Reg.LNK_STRSTAT b)
    F.LNK_STRSTAT_UNSENT x.unsent

/-- The start and the size of a ring. -/
def ring (d : Dev) (b : Nat) : Nat × Nat :=
  let w := d.rd (Reg.LNK_STRCFG b)
  (0x340000 + 256 * getF w F.LNK_STRCFG_BASE, 2 ^ (getF w F.LNK_STRCFG_RSZ + 8))

/-- Whether a buffer is enabled. -/
def streamOn (d : Dev) (b : Nat) : Bool := d.bit (Reg.LNK_STRCFG b) F.LNK_STRCFG_EN

/-- Bytes added to a ring (R343); the oldest unsent ones beyond its size are lost (R344) (corners DEDUCED, log 52). -/
def streamAdd (d : Dev) (b n : Nat) : Dev :=
  if d.streamOn b then
    let x := d.stream b
    let size := (d.ring b).2
    let d1 := d.setStream b { x with
      added := x.added + n, unsent := min (x.unsent + n) size, adds := x.adds ++ [(x.added + n, d.now)] }
    if size < x.unsent + n then
      (d1.mark (Reg.LNK_STRSTAT b) F.LNK_STRSTAT_OVR).flag Reg.LNK_FLAG F.LNK_FLAG_STR_OVR 0xEE
    else d1
  else d

/-- The tick at which the oldest unsent byte of a buffer was added. -/
def oldestT (x : Stream) : Nat :=
  ((x.adds.find? fun p => decide (x.added - x.unsent < p.1)).map (·.2)).getD 0

/-- The oldest unsent byte has waited FLUSH µs (R343). -/
def streamFlush (d : Dev) (b : Nat) : Dev :=
  let x := d.stream b
  let w := d.f (Reg.LNK_STRCFG b) F.LNK_STRCFG_FLUSH
  if x.unsent ≠ 0 ∧ w ≠ 0 ∧ oldestT x + usTk w ≤ d.now then d.setStream b { x with due := true } else d

/-- A buffer has a frame to send. -/
def streamReady (d : Dev) (b : Nat) : Bool :=
  d.streamOn b && ((d.stream b).due || decide (60 ≤ (d.stream b).unsent))

/-- The bytes of the next STREAM frame of a buffer, and the buffer after it: they are free at once, and free space
that rises to 128 bytes raises the Mule request 34 + b (corners DEDUCED, log 52). -/
def streamTake (d : Dev) (ram : List Host.Cell) (b : Nat) : List Byte × Dev :=
  let x := d.stream b
  let n := min x.unsent 60
  let r := d.ring b
  let first := x.added - x.unsent
  let bytes := (List.range n).map fun i => Memory.byte ram (r.1 + (first + i) % r.2)
  let d1 := d.setStream b { x with
    unsent := x.unsent - n, due := false, adds := x.adds.filter fun p => decide (first + n < p.1) }
  let free := r.2 - x.unsent
  let d2 := if free < 128 ∧ 128 ≤ free + n then d1.send (.mule (34 + b) 0) else d1
  ([BitVec.ofNat 8 b, 0] ++ (wordBytes (lo32 first)).take 2 ++ bytes, d2)

/-- A write of LNK_STRCFG: EN alone; clearing it empties the buffer. -/
def streamCfg (d : Dev) (b : Nat) (v : Word) : Dev :=
  let d1 := d.rwWrite (Reg.LNK_STRCFG b) v
  if d1.streamOn b then d1 else d1.setStream b Init.stream

/-- A write of LNK_STRADD. -/
def streamAddWrite (d : Dev) (b : Nat) (v : Word) : Dev :=
  if d.bit (Reg.LNK_STRCFG b) F.LNK_STRCFG_SW then d.streamAdd b (getF v F.LNK_STRADD_ADD) else d

/-! ### Responses (R338, R339) -/

/-- A REG_RSP queued, unless a loss of the link discards it (R335). -/
def respond (d : Dev) (wanted : Bool) (seq type : Byte) (status count : Nat) (data : List Byte) : Dev :=
  if wanted then
    d.queueFrame 1 0x03 ([seq, type, BitVec.ofNat 8 status, BitVec.ofNat 8 count] ++ data)
  else d

/-! ### Flash pass-through (R354) -/

/-- A pass-through register takes a write: SERVICE, and no command running. -/
def nvlOpen (d : Dev) : Bool := decide (d.mode = .service) && !d.bit Reg.NVL_PSTAT F.NVL_PSTAT_BUSY

/-- A write to a pass-through register: refused with a bus error and DENIED. -/
def onNvl (d : Dev) (g : Dev → Dev) : Dev :=
  if d.nvlOpen then g d else (d.mark Reg.NVL_PSTAT F.NVL_PSTAT_DENIED).busErr

/-- NVL_PCTL names a command that can run. -/
def pctlOk (v : Word) : Bool :=
  decide (getF v F.NVL_PCTL_ADDRB ≠ 3 ∧ getF v F.NVL_PCTL_NRD ≤ 56 ∧ getF v F.NVL_PCTL_NWR ≤ 56)

/-- The first `n` bytes of NVL_PDATA. -/
def pdata (d : Dev) (n : Nat) : List Byte :=
  (List.range n).map fun k => BitVec.ofNat 8 (d.f (Reg.NVL_PDATA (k / 4)) ⟨8 * (k % 4) + 7, 8 * (k % 4)⟩)

/-- What a command shifts out: OPCODE, the address bytes with the most significant first, DUMMY zero bytes, the bytes to
write. -/
def flashBytes (d : Dev) (v : Word) : List Byte :=
  let n := [0, 3, 4].getD (getF v F.NVL_PCTL_ADDRB) 0
  [BitVec.ofNat 8 (getF v F.NVL_PCTL_OPCODE)] ++ ((wordBytes (d.rd Reg.NVL_PADDR)).take n).reverse ++
    List.replicate (getF v F.NVL_PCTL_DUMMY) 0 ++ d.pdata (getF v F.NVL_PCTL_NWR)

/-- A write of NVL_PCTL: GO runs the command for 320 ns a byte, and from the first on the loader drives its pins. -/
def pctlWrite (d : Dev) (v : Word) : Dev :=
  d.onNvl fun d =>
    if pctlOk v then
      let d1 := d.rwWrite Reg.NVL_PCTL v
      if getB v F.NVL_PCTL_GO then
        let out := d1.flashBytes v
        ((d1.setB Reg.NVL_PSTAT F.NVL_PSTAT_BUSY true).setB Reg.NVL_STAT F.NVL_STAT_DRIVE true).onTime fun x =>
          { x with nvlEnd := d.now + 128 * (out.length + getF v F.NVL_PCTL_NRD), flashOut := out }
      else d1
    else d.busErr

/-- Bytes put into NVL_PDATA from byte 0 on. -/
def pdataPut (d : Dev) (bs : List Byte) : Dev :=
  (bs.zipIdx).foldl
    (fun d p =>
      let a := Reg.NVL_PDATA (p.2 / 4)
      let k := p.2 % 4
      d.setF a ⟨8 * k + 7, 8 * k⟩ p.1.toNat) d

/-- The running command ends, once it has lasted its time, with the bytes it read. -/
def flashEnd (d : Dev) (bytes : List Byte) : Dev :=
  if d.bit Reg.NVL_PSTAT F.NVL_PSTAT_BUSY && decide (d.link.time.nvlEnd ≤ d.now) then
    let bs := bytes.take (d.f Reg.NVL_PCTL F.NVL_PCTL_NRD)
    let d1 := ((d.pdataPut bs).setB Reg.NVL_PSTAT F.NVL_PSTAT_BUSY false).mark Reg.NVL_PSTAT F.NVL_PSTAT_DONE
    match d1.link.nvmFor with
    | some (wanted, seq) =>
      (d1.onLink fun l => { l with nvmFor := none }).respond wanted seq 0x40 0 bs.length bs
    | none => d1
  else d

/-! ### Heartbeat and host loss (R345 to R348) -/

/-- Host loss is active. -/
def hostLost (d : Dev) : Bool := d.bit Reg.LNK_STAT F.LNK_STAT_HL

/-- A heartbeat of a port counts (R345). -/
def hbCounts (d : Dev) (spi : Bool) : Bool :=
  d.bit Reg.LNK_HLCFG F.LNK_HLCFG_HB_EN &&
    (match d.f Reg.LNK_HLCFG F.LNK_HLCFG_HBPORT with
     | 0 => !spi
     | 1 => spi
     | _ => true)

/-- Host loss begins at a tick (R346): HL, source 0xEF, STATUS, and the grace of every enabled half; no commit made before it ends
the fuel cut that may follow (R194) (corners DEDUCED, log 53). -/
def lossBegins (d : Dev) (at' : Nat) : Dev :=
  let d1 := ((d.setB Reg.LNK_STAT F.LNK_STAT_HL true).setB Reg.LNK_STAT F.LNK_STAT_HBV false).onLink fun l =>
    { l with
      lossT := some at', hbValidT := none
      graceA := if d.a.enabled then some 0 else none
      graceB := if d.b.enabled then some 0 else none }
  let void := fun (s : HalfSt) => { s with commit := s.commit.map fun c => { c with ends := false } }
  (((d1.onHalf .a void).onHalf .b void).raise 0xEF).queueStatus 3

/-- Host loss ends (R347): a grace that still runs ends without a fuel cut. -/
def lossEnds (d : Dev) (at' : Nat) : Dev :=
  let d1 := ((d.setB Reg.LNK_STAT F.LNK_STAT_HL false).mark Reg.LNK_FLAG F.LNK_FLAG_HL_END).onLink fun l =>
    { l with lossT := none, graceA := none, graceB := none, hbValidT := some at' }
  ((d1.setB Reg.LNK_STAT F.LNK_STAT_HBV true).raise 0xEF).queueStatus 4

/-- The window after a heartbeat accepted at a tick: its bounds are those in force now (R348) (corners DEDUCED, log 53). -/
def hbStart (d : Dev) (at' : Nat) : Dev :=
  d.onLink fun l => { l with
    lastHb := some at', hbFirst := none
    hbMin := usTk (d.f Reg.LNK_HBCFG F.LNK_HBCFG_HB_MIN)
    hbMax := usTk (d.f Reg.LNK_HBCFG F.LNK_HBCFG_HB_MAX) }

/-- A counted heartbeat judged in OPERATE (R345 to R348) (corners DEDUCED, log 53). -/
def hbJudge (d : Dev) (at' : Nat) : Dev :=
  let l := d.link
  match l.lastHb with
  | none =>
    if d.hostLost then d
    else match l.hbFirst with
      | some t =>
        if (t + l.hbMax) / 2 < at' / 2 then (d.mark Reg.LNK_FLAG F.LNK_FLAG_HB_LATE).lossBegins (t + l.hbMax)
        else d.setB Reg.LNK_STAT F.LNK_STAT_HBV true
      | none => d
  | some t =>
    let inWin := decide (t + l.hbMin ≤ at' ∧ at' / 2 ≤ (t + l.hbMax) / 2)
    if d.hostLost then if inWin then d.lossEnds at' else d
    else if inWin then d.setB Reg.LNK_STAT F.LNK_STAT_HBV true
    else if at' < t + l.hbMin then (d.mark Reg.LNK_FLAG F.LNK_FLAG_HB_EARLY).lossBegins at'
    else (d.mark Reg.LNK_FLAG F.LNK_FLAG_HB_LATE).lossBegins (t + l.hbMax)

/-- A heartbeat accepted from a port at a tick (R345): the supervision runs only in OPERATE (corners DEDUCED, log 53). -/
def heartbeat (d : Dev) (spi : Bool) (v : Word) (at' : Nat) : Dev :=
  if d.hbCounts spi then
    let d1 := (d.wr Reg.LNK_HBVAL v).wr Reg.LNK_HBTIME (lo32 at')
    if d1.mode = .operate then (d1.hbJudge at').hbStart at' else d1
  else d

/-- HB_MAX passes without a heartbeat (R346): one accepted in the SYS cycle of its end still counts (R348), also one that
was accepted and waits (R340). -/
def hbLate (d : Dev) : Dev :=
  let l := d.link
  let due := match l.lastHb.or l.hbFirst with
    | some t => decide ((t + l.hbMax) / 2 < d.now / 2) &&
      !(d.hbCounts false && l.time.hbAt.any fun a => decide (a / 2 ≤ (t + l.hbMax) / 2))
    | none => false
  let start := (l.lastHb.or l.hbFirst).getD 0 + l.hbMax
  if d.mode = .operate ∧ d.bit Reg.LNK_HLCFG F.LNK_HLCFG_HB_EN = true ∧ d.hostLost = false ∧ due = true then
    ((d.mark Reg.LNK_FLAG F.LNK_FLAG_HB_LATE).lossBegins start).onLink fun l => { l with lastHb := none, hbFirst := none }
  else d

/-- The grace of a half has run out (R346): by its marks or by time (corners DEDUCED, log 53). -/
def graceDue (d : Dev) (h : Half) : Bool :=
  let n := match h with
    | .a => d.link.graceA
    | .b => d.link.graceB
  match n, d.link.lossT with
  | some k, some t =>
    decide (d.f Reg.LNK_HLCFG F.LNK_HLCFG_HL_CYC ≤ k ∨
      t + usTk (1000 * d.f Reg.LNK_HLCFG F.LNK_HLCFG_HL_MS) ≤ d.now)
  | _, _ => false

/-- The end of a grace (R177, R346): the fuel cut, where CUT is set (corners DEDUCED, log 53). -/
def graceEnd (d : Dev) (h : Half) : Dev :=
  if d.mode = .operate ∧ d.graceDue h = true then
    let d1 := d.onLink fun l => match h with
      | .a => { l with graceA := none }
      | .b => { l with graceB := none }
    if d1.bit Reg.LNK_HLCFG F.LNK_HLCFG_CUT then
      (d1.setB (Reg.DMD_STAT h) F.DMD_STAT_FUELCUT true).endInjection h
    else d1
  else d

/-! ### CRC-8 (R331) -/

/-- One bit of the CRC-8. -/
def crc8Bit (c : Byte) : Byte := if c.getLsbD 7 then (c <<< 1) ^^^ 0x07#8 else c <<< 1

/-- The CRC-8 of a byte list. -/
def crc8 (l : List Byte) : Byte :=
  l.foldl (fun c b => crc8Bit (crc8Bit (crc8Bit (crc8Bit (crc8Bit (crc8Bit (crc8Bit (crc8Bit (c ^^^ b))))))))) 0

end Dev

/-! ### The commands -/

/-- HEARTBEAT_LATE (R346). -/
def execHeartbeatLate (t : Tick) (s : State) : Out := s.onDev t Dev.hbLate

/-- HOST_LOSS_GRACE_END (R346). -/
def execHostLossGraceEnd (t : Tick) (h : Half) (s : State) : Out := s.onDev t fun d => d.graceEnd h

/-- STREAM_BYTES_ADDED (R343): by a burst of the Mule, or by a write of LNK_STRADD. -/
def execStreamBytesAdded (t : Tick) (b : Fin 4) (n : Nat) (s : State) : Out :=
  s.onDev t fun d => (d.unsend (.stream b.val n)).streamAdd b.val n

/-- STREAM_FLUSH_TIMEOUT (R343). -/
def execStreamFlushTimeout (t : Tick) (b : Fin 4) (s : State) : Out := s.onDev t fun d => d.streamFlush b.val

/-- FLASH_COMMAND (R354). -/
def execFlashCommand (t : Tick) (_m : Master) (v : Word) (s : State) : Out :=
  s.onDev t fun d => d.onWrite Reg.NVL_PCTL fun d => d.pctlWrite v

/-- FLASH_COMMAND_DONE (R354). -/
def execFlashCommandDone (t : Tick) (bytes : List Byte) (s : State) : Out := s.onDev t fun d => d.flashEnd bytes

end Sys2Proof.Machine
end

