-- ==== Sys2Proof/Machine/Ignite.lean ====
section
/-! DEFINITION. The ignition outputs and the general angle outputs at their balls (R223 to R234). -/

namespace Sys2Proof.Machine

open Sys2Proof

namespace Dev

/-- A start edge on an IGN output (R224, R226, R229, R230): a soft-off ignores it, restrikes that run end;
a disabled output stays low. -/
def ignStart (d : Dev) (h : Half) (k restrikes : Nat) : Dev :=
  let x := d.ign h k
  if !d.bit (Reg.IGN_CFG h k) F.IGN_CFG_EN then d.setIgn h k { x with ignoreEnd := true }
  else if x.softoff then
    (d.ignFlag h k F.IGN_STAT_SOFT_IGN).setIgn h k { x with ignoreEnd := true }
  else
    let d1 := if x.left ≠ 0 then d.ignFlag h k F.IGN_STAT_MS_TRUNC else d
    (d1.setIgn h k { x with
      high := true, dwellT := some d1.now, cfg := d1.rd (Reg.IGN_CFG h k), ms := d1.rd (Reg.IGN_MS h k),
      nMsg := restrikes, left := 0, nextT := none, recharging := false, sparkT := none, ignoreEnd := false }).ignStat h k

/-- The spark (R224, R226): DWELL, and the first restrike's recharge is due. -/
def ignEnd (d : Dev) (h : Half) (k : Nat) : Dev :=
  let x := d.ign h k
  if x.ignoreEnd then d.setIgn h k { x with ignoreEnd := false }
  else
    match x.dwellT with
    | none => d
    | some t0 =>
      let d1 := d.ignDwell h k (d.now - t0)
      (d1.setIgn h k { x with
        high := false, dwellT := none, left := x.nMsg, recharging := false, sparkT := some d.now
        nextT := if x.nMsg = 0 then none else some (d.now + 4000 * getF x.ms F.IGN_MS_SPK) }).ignStat h k

/-- TMAX of a dwell in ticks. -/
def ignTmax (x : Ign) : Nat := usTk (100 * getF x.cfg F.IGN_CFG_TMAX)

/-- An end edge on an IGN output is on its way and reaches the voter in the present DRIVE cycle (R230). -/
def endEdgeNow (d : Dev) (h : Half) (k : Nat) : Bool :=
  (d.half h).chans.any fun e => e.2.ending &&
    decide (outputOf (d.valsNow h e.1).action (d.valsNow h e.1).target = some (.ign k)) &&
    e.2.endT.any fun t => decide (t / 65536 / 4 = d.now / 4)

/-- TMAX expires (R225): a soft-off, DWELL takes TMAX, and the end edge switches nothing. An end edge of the same DRIVE
cycle makes its spark (R230). -/
def ignTimeout (d : Dev) (h : Half) (k : Nat) : Dev :=
  let x := d.ign h k
  match x.dwellT with
  | none => d
  | some t0 =>
    if !x.softoff && decide (t0 + ignTmax x ≤ d.now) && !d.endEdgeNow h k then
      ((d.softOff h k).ignDwell h k (ignTmax x)).ignFlag h k F.IGN_STAT_DWELL_TMO
    else d

/-- The voter's count of an occurrence ends with the last restrike (R226). -/
def restruck (d : Dev) (h : Half) (k : Nat) : Dev :=
  d.onHalf h fun s => { s with passed := s.passed.filter fun e => !(decide (e.1 = (Output.ign k).key) && e.2.ended) }

/-- A step of the restrikes (R226): recharge, then restrike. -/
def restrike (d : Dev) (h : Half) (k : Nat) : Dev :=
  let x := d.ign h k
  match x.nextT with
  | none => d
  | some tn =>
    if tn ≤ d.now then
      let x' := if x.recharging then
          { x with
            high := false, recharging := false, left := x.left - 1
            nextT := if x.left ≤ 1 then none else some (tn + 4000 * getF x.ms F.IGN_MS_SPK) }
        else
          { x with high := true, recharging := true, nextT := some (tn + 4000 * getF x.ms F.IGN_MS_RECH) }
      let d1 := (d.setIgn h k x').ignStat h k
      if x'.left = 0 then d1.restruck h k else d1
    else d

/-- A ramp reaches low at its end (R227). -/
def rampEnd (d : Dev) (h : Half) (k : Nat) : Dev :=
  let x := d.ign h k
  if x.softoff && decide (x.rampT + x.rampTk ≤ d.now) then
    (d.setIgn h k { x with high := false, softoff := false }).ignStat h k
  else d

/-- An action edge on an enabled GAO output (R231). -/
def gaoAct (d : Dev) (h : Half) (k action param : Nat) : Dev :=
  if d.bit (Reg.GAO_CFG h k) F.GAO_CFG_EN then
    d.gaoDrive h k (match action with
      | 1 => true
      | 2 => false
      | 3 => !d.bit (Reg.GAO_LVL h) ⟨k, k⟩
      | _ => decide (param % 2 = 1))
  else d

/-- The end of a GAO_PULSE that began on an enabled output, `live` (R78, R231); an output disabled since goes low
(R223). -/
def gaoEnd (d : Dev) (h : Half) (k param : Nat) (live : Bool) : Dev :=
  if live then d.gaoDrive h k (decide (param % 2 = 0) && d.bit (Reg.GAO_CFG h k) F.GAO_CFG_EN) else d

end Dev

/-! ### The commands -/

/-- DWELL_TIMEOUT (R225). -/
def execDwellTimeout (t : Tick) (h : Half) (k : Fin 12) (s : State) : Out :=
  s.onDev t fun d => d.ignTimeout h k.val

/-- RESTRIKE_STEP (R226). -/
def execRestrikeStep (t : Tick) (h : Half) (k : Fin 12) (s : State) : Out :=
  s.onDev t fun d => d.restrike h k.val

/-- SOFT_OFF_END (R227). -/
def execSoftOffEnd (t : Tick) (h : Half) (k : Fin 12) (s : State) : Out :=
  s.onDev t fun d => ((d.rampEnd h k.val).undriven h (16 + k.val)).hbRestart

end Sys2Proof.Machine
end

