-- ==== Sys2Proof/Machine/Voter.lean ====
section
/-! DEFINITION. The Gander's own sync, phase and angle, the permits and the output voter (R23, R24, R363 to
R368). -/

namespace Sys2Proof.Machine

open Sys2Proof

namespace Dev

/-! ### The Gander's angle (R363) -/

/-- The Gander of a half. -/
def gdr (d : Dev) (h : Half) : Gander := (d.half h).gander

/-- GANDER cycles in a number of ticks: 300 MHz against 400 MHz (log 11). -/
def ganderCycles (tk : Nat) : Nat := tk * 3 / 4

/-- The steps of 1/64 interval passed since the last accepted edge: step j falls floor(j p / 64) cycles
after it (DESIGN CHOICE, log 11). -/
def ganderSteps (g : Gander) (now : Nat) : Nat :=
  (64 * (ganderCycles (now - g.tPrev) + 1) - 1) / max 1 (ganderCycles g.period)

/-- The Gander's angle past the last accepted edge at a tick, halted 1/64 interval before the next (corners DEDUCED, log
56). -/
def ganderPast (g : Gander) (now : Nat) : Rat :=
  let x := ofN (ganderSteps g now) * ofN g.d / 64
  let top := ofN g.dNext * 63 / 64
  if top < x then top else x

/-- The Gander's angle at a tick, unwrapped from its last accepted edge. -/
def ganderAngleAt (d : Dev) (h : Half) (t : Nat) : Rat :=
  let g := d.gdr h
  if g.sync then ofN g.ang + ganderPast g t else ofN g.ang

/-- The Gander's angle now. -/
def ganderAngle (d : Dev) (h : Half) : Rat := d.ganderAngleAt h d.now

/-- The Gander halts at its clamp. -/
def ganderHeld (d : Dev) (h : Half) : Bool :=
  let g := d.gdr h
  g.sync && decide (ofN g.dNext * 63 / 64 ≤ ganderPast g d.now)

/-- The Gander's speed in AU per tick, from the last interval alone. -/
def ganderSpeed (d : Dev) (h : Half) : Rat :=
  let g := d.gdr h
  ofN g.d / ofN (max 1 g.period)

/-- The table angle of cycle edge k within the cycle. -/
def tabAng (d : Dev) (h : Half) (k : Nat) : Nat :=
  let n := max 1 (d.nent h)
  d.wAng h (k % n) + rev * (k / n)

/-! ### The Gander's crank edges (R363) -/

/-- The CRC over the table copy, made anew once per revolution: `corrupt`, it differs (R364) (corners DEDUCED, log
57). -/
def ganderSig (d : Dev) (h : Half) (k : Nat) (corrupt : Bool) : Dev :=
  if corrupt && decide (k % max 1 (d.nent h) = 0) then d.ganderFault h F.GDR_FLAG_SIG_ERR else d

/-- The Gander accepts an edge of tick `t` at cycle edge k: `p` its period in ticks. -/
def ganderAt (d : Dev) (h : Half) (t k p : Nat) (corrupt : Bool) : Dev :=
  ((d.onGander h fun g => { g with
    sync := true, idx := k, tPrev := t, period := p, ang := d.tabAng h k
    d := d.dTab h (d.predEnt h (k % max 1 (d.nent h))), dNext := d.dTab h k, camSince := 0
    rejRev := if k % max 1 (d.nent h) = 0 then 0 else g.rejRev }).ganderAccepts h).ganderSig h k corrupt

/-- The window test of the Gander on an edge of tick `t` (R105, R107). -/
def ganderFit (d : Dev) (h : Half) (t cls : Nat) : Fit :=
  let g := d.gdr h
  let e := ofN g.dNext * ofN g.period / ofN (max 1 g.d)
  let dt := ofN (t - g.tPrev)
  if dt < d.winLo h cls * e then .below else if d.winHi h cls * e < dt then .above else .inside

/-- The end of a cam entry, its angle and TOL, in AU past the Gander's last accepted edge. -/
def camEndPast (d : Dev) (h : Half) (ang : Nat) : Nat :=
  let cyc := max 1 (d.cycLen h)
  (ang + d.tol h + cyc - (d.gdr h).ang % cyc) % cyc

/-- The watch for missing cam edges up to the edge that arrives now (R115, R363): every timed entry of a phase cam
whose end the Gander's angle passed on this interval with no match is a cam error (corners DEDUCED, log 56). -/
def ganderWatch (d : Dev) (h : Half) : Dev :=
  let g := d.gdr h
  let ends := (List.range 4).flatMap fun c =>
    if d.phaseCam h c then (d.camEntries h c).map fun e => ((c, e.1), d.camEndPast h e.2.1) else []
  let passed := ends.filter fun e => decide (e.2 < g.dNext)
  let watched := match g.watchT with
    | some t => g.phk && decide (t ≤ d.now)
    | none => false
  let from' : Rat := match g.watchT with
    | some t => if t ≤ g.tPrev then 0 else ganderPast g t
    | none => 0
  let missing := passed.filter fun e => watched && decide (from' ≤ ofN e.2) && !g.seen.contains e.1
  d.onGander h fun g => { g with
    seen := g.seen.filter fun e => !passed.any fun x => x.1 == e
    camBad := missing.foldl (fun l e => sparseSet 0 l e.1.1 (camCount l e.1.1 + 1)) g.camBad
    camGood := missing.foldl (fun l e => sparseErase l e.1.1) g.camGood
    watchT := if g.phk then g.watchT else g.watchT.map fun _ => d.now }

/-- The entries of a cam that an edge matches, noted for the watch. -/
def camSeen (d : Dev) (h : Half) (c a : Nat) (level : Bool) : Dev :=
  let cyc := max 1 (d.cycLen h)
  let hits := (d.camEntries h c).filter fun e =>
    let q := (a + cyc - e.2.1 % cyc) % cyc
    e.2.2 == level && decide (min q (cyc - q) ≤ d.tol h)
  d.onGander h fun g => { g with seen := g.seen ++ hits.map fun e => (c, e.1) }

/-- An edge below LO on a non-gap interval is rejected (R107, R108); true: the count is above MAXREJ. -/
def ganderRejects (d : Dev) (h : Half) : Dev × Bool :=
  let n := (d.gdr h).rejRev + 1
  (d.onGander h fun g => { g with rejRev := n }, decide (d.f (Reg.WHL_SYNCCFG h) F.WHL_SYNCCFG_MAXREJ < n))

/-- A forward crank edge while the Gander holds sync (R107 on its own edges). -/
def ganderClassify (d : Dev) (h : Half) (t : Nat) (corrupt : Bool) : Dev :=
  let g := d.gdr h
  let gap := d.wGap h g.idx
  match d.ganderFit h t (d.wClass h (g.idx + 1)) with
  | .below =>
    if gap then d.ganderLoses h
    else
      let r := d.ganderRejects h
      if r.2 then r.1.ganderLoses h else r.1
  | .above => d.ganderLoses h
  | .inside => (d.ganderWatch h).ganderAt h t ((g.idx + 1) % max 1 (d.edges h)) (t - g.tPrev) corrupt

/-- A measured forward edge of the Gander's own gap search (R110, R111). -/
def ganderSeek (d : Dev) (h : Half) (t p1 p : Nat) (corrupt : Bool) : Dev :=
  let g := d.gdr h
  let n := max 1 (d.nent h)
  let kept := g.cands.filterMap (d.stepCand h p1 p)
  let all := kept ++ d.newCands h p1 p kept
  let d1 := d.onGander h fun g => { g with cands := all }
  match all with
  | [c] =>
    if d.confirmN h ≤ c.n then
      let gc := (c.next + n - 1 + n - c.n % n) % n
      let d2 := d1.onGander h fun g => { g with
        cands := [], v0 := 0, v1 := 0, phk := !d.cyc720 h, rejRev := 0, camLimp := false
        watchT := g.watchT.map fun _ => d.now, seen := [] }
      d2.ganderAt h t ((gc + c.n % n) % max 1 (d.edges h)) p corrupt
    else d1
  | _ => d1

/-- A primary sync loss waits for the Gander's own (R365): a loss found at this edge pairs with it (corners DEDUCED, log
58). -/
def ganderSafe (d : Dev) (h : Half) (t : Nat) : Dev :=
  let g := d.gdr h
  match g.waiting with
  | some (true, _) =>
    let gap := d.wGap h g.idx
    let lost := match d.ganderFit h t (d.wClass h (g.idx + 1)) with
      | .below => gap || decide (d.f (Reg.WHL_SYNCCFG h) F.WHL_SYNCCFG_MAXREJ < g.rejRev + 1)
      | .above => true
      | .inside => false
    if lost then d.paired h else d
  | _ => d

/-- What the Gander makes of a timed crank edge (R84, R86, R87, R89, R363): the age at which it is handed over and its
direction; none, where it is not: a pulse longer than 2 × REV_MIN, an illegal transition (corners DEDUCED, log 56). -/
def ganderTakes (d : Dev) (h : Half) (crkd near : Bool) (width : Nat) : Option (Nat × Bool) :=
  let filt := d.crankFilt h
  if d.dirsrc h = 0 then some (filt, false)
  else if d.dirsrc h = 1 then
    let w := d.rd (Reg.SNS_DIRCFG (d.crankCfg h))
    let rev := usTk (getF w F.SNS_DIRCFG_REV_MIN)
    if 2 * rev < width then none
    else some (max width filt, if width ≤ usTk (getF w F.SNS_DIRCFG_FWD_MAX) then false
      else if rev ≤ width then true else (d.gdr h).lastRev)
  else if near then none
  else some (filt + d.qwin h, crkd != d.bit (Reg.SNS_CFG (d.crankCfg h)) F.SNS_CFG_FWD_LVL)

/-- A crank edge of tick `t`, qualified with its direction (R88, R89, R363) (corners DEDUCED, log 56). -/
def ganderCrank (d : Dev) (h : Half) (t : Nat) (rev corrupt : Bool) : Dev :=
  let g := d.gdr h
  let minInt := 4 * d.f (Reg.SNS_MININT h) F.SNS_MININT_MIN_INT
  let soon := match g.lastT with
    | some u => d.startUp h && decide (t - u < minInt)
    | none => false
  if soon then d
  else
    let chg := g.lastT.isSome && (rev != g.lastRev)
    let p : Option Nat := match g.lastT with
      | some u => if chg then none else some (t - u)
      | none => none
    let d1 := d.onGander h fun g => { g with
      lastT := some t, lastRev := rev, p1 := p, cands := if chg then [] else g.cands }
    if g.sync then if rev || g.camLimp then d1 else d1.ganderClassify h t corrupt
    else
      match d.hmode h with
      | .seek | .phase | .run | .limp =>
        match rev, p, g.p1 with
        | false, some n, some p1 => d1.ganderSeek h t p1 n corrupt
        | _, _, _ => d1
      | .safe => d1.ganderSafe h t
      | _ => d1

/-! ### The Gander's cam edges (R113, R115 to R117, R363) -/

/-- The Gander holds a cam for lost. -/
def gCamLost (d : Dev) (h : Half) (c : Nat) : Bool :=
  decide (d.f (Reg.WHL_CAMCFG h) F.WHL_CAMCFG_CAMLOSS ≤ camCount (d.gdr h).camBad c)

/-- A good edge of a cam: its errors restart; a lost cam returns after CAMLOSS of them. -/
def gCamGood (d : Dev) (h : Half) (c : Nat) : Dev :=
  let n := camCount (d.gdr h).camGood c + 1
  if d.gCamLost h c && decide (n < d.f (Reg.WHL_CAMCFG h) F.WHL_CAMCFG_CAMLOSS) then
    d.onGander h fun g => { g with camGood := sparseSet 0 g.camGood c n }
  else d.onGander h fun g => { g with
    camBad := sparseErase g.camBad c, camGood := sparseErase g.camGood c }

/-- A phase cam edge votes on the Gander's angle (R113). -/
def gCamVote (d : Dev) (h : Half) (m0 m1 : Bool) : Dev :=
  let g := d.gdr h
  let v0 := if m0 && !m1 then g.v0 + 1 else g.v0
  let v1 := if m1 && !m0 then g.v1 + 1 else g.v1
  let clash := decide (0 < v0) && decide (0 < v1)
  let v0 := if clash then 0 else v0
  let v1 := if clash then 0 else v1
  let ndec := d.f (Reg.WHL_CAMCFG h) F.WHL_CAMCFG_NDEC
  d.onGander h fun g =>
    if ndec ≤ v0 then { g with v0 := 0, v1 := 0, phk := true }
    else if ndec ≤ v1 then
      { g with
        v0 := 0, v1 := 0, phk := true, ang := g.ang + rev
        idx := (g.idx + d.nent h) % max 1 (d.edges h) }
    else { g with v0 := v0, v1 := v1 }

/-- Cam-based LIMP is possible for the Gander (R116, R117). -/
def gLimpOk (d : Dev) (h : Half) : Bool :=
  let cfg := d.rd (Reg.WHL_CAMCFG h)
  let c := getF cfg F.WHL_CAMCFG_LIMPCAM
  let all := (List.range 4).all fun c => !d.phaseCam h c || d.gCamLost h c
  !all && d.bit (Reg.WHL_SYNCCFG h) F.WHL_SYNCCFG_LIMP_CRK && !d.gCamLost h c &&
    decide (2 ≤ (d.camEntries h c).length)

/-- A phase cam edge is checked against the Gander's angle (R115, R116). -/
def gCamCheck (d : Dev) (h : Half) (c : Nat) (m0 m1 : Bool) : Dev :=
  let d1 := d.onGander h fun g => { g with camSince := g.camSince + 1 }
  let lost := d1.ganderHeld h &&
    decide (d.f (Reg.WHL_SYNCCFG h) F.WHL_SYNCCFG_CRKLOSS ≤ (d1.gdr h).camSince)
  if (lost && !d.gLimpOk h) || (!m0 && m1) then d1.ganderLoses h
  else if lost then d1.onGander h fun g => { g with camLimp := true, limpEntry := none }
  else if m0 then d1.gCamGood h c
  else d1.onGander h fun g => { g with
    camBad := sparseSet 0 g.camBad c (camCount g.camBad c + 1), camGood := sparseErase g.camGood c }

/-- The first LIMPCAM edge places the Gander at the entry of its level nearest its angle (R131). -/
def gLimpFirst (d : Dev) (h : Half) (c t : Nat) (level : Bool) : Dev :=
  let cyc := max 1 (d.cycLen h)
  let a := wrapA cyc (d.ganderAngleAt h t)
  let es := d.camEntries h c
  let best := (es.filter fun e => e.2.2 == level).foldl
    (fun (b : Option (Nat × Nat × Nat)) e =>
      let q := (a + cyc - e.2.1 % cyc) % cyc
      let q := min q (cyc - q)
      match b with
      | some (_, _, q0) => if q < q0 then some (e.1, e.2.1, q) else b
      | none => some (e.1, e.2.1, q)) none
  match best with
  | none => d
  | some (j, ang, _) =>
    let span := match camAfter es j with
      | some e => camSpan cyc ang e.2.1
      | none => cyc
    d.onGander h fun g => { g with ang := ang, dNext := span, tPrev := t, limpEntry := some j }

/-- A LIMPCAM edge in the Gander's cam-based LIMP (R117). -/
def gLimpEdge (d : Dev) (h : Half) (c t : Nat) (level : Bool) : Dev :=
  let g := d.gdr h
  let cyc := max 1 (d.cycLen h)
  let es := d.camEntries h c
  match g.limpEntry with
  | none => d.gLimpFirst h c t level
  | some j0 =>
    match d.ganderFit h t 0, camAfter es j0 with
    | .below, _ =>
      let r := d.ganderRejects h
      if r.2 then r.1.ganderLoses h else r.1
    | .above, _ => d.ganderLoses h
    | .inside, none => d
    | .inside, some (j, ang, _) =>
      let span := match camAfter es j with
        | some e => camSpan cyc ang e.2.1
        | none => cyc
      (d.onGander h fun g => { g with
        limpEntry := some j, ang := ang, d := g.dNext, dNext := span, period := t - g.tPrev
        tPrev := t, rejRev := if es.head?.map (·.1) = some j then 0 else g.rejRev }).ganderAccepts h

/-- A cam edge of tick `t`, qualified. -/
def ganderCam (d : Dev) (h : Half) (c t : Nat) (level : Bool) : Dev :=
  let g := d.gdr h
  let cyc := max 1 (d.cycLen h)
  let a := wrapA cyc (d.ganderAngleAt h t)
  let m0 := d.camMatches h c a level
  let m1 := d.cyc720 h && d.camMatches h c ((a + rev) % cyc) level
  if !g.sync then d
  else if g.camLimp then
    if d.f (Reg.WHL_CAMCFG h) F.WHL_CAMCFG_LIMPCAM = c then d.gLimpEdge h c t level else d
  else if !d.phaseCam h c then d
  else if g.phk then (if m0 then d.camSeen h c a level else d).gCamCheck h c m0 m1
  else d.gCamVote h m0 m1

/-- LAG: one path has not reported an edge or a loss within 2 µs (R365). The rule applies while both
paths hold sync, and to a loss that one path alone recorded. -/
def ganderLate (d : Dev) (h : Half) : Dev :=
  match (d.gdr h).waiting with
  | some (_, t) =>
    if t + usTk 2 ≤ d.now then
      let d1 := d.paired h
      if (d.tracking h && (d.gdr h).sync) || (d.gdr h).lost then d1.ganderFault h F.GDR_FLAG_LAG else d1
    else d
  | none => d

/-! ### Permits (R366, R367) -/

/-- The output of a channel. -/
def chanOutput (d : Dev) (h : Half) (c : Nat) : Option Output :=
  let v := d.valsNow h c
  outputOf v.action v.target

/-- Permits that the unit of an output may have open: two for a bank, one for an IGN or GAO output. -/
def permitMax (u : Nat) : Nat := if u < 0x100 then 2 else 1

/-- Whether a permit belongs to a unit. -/
def onUnit (d : Dev) (h : Half) (u : Nat) (p : Permit) : Bool :=
  match d.chanOutput h p.chan with
  | some o => decide (o.unit = u)
  | none => false

/-- The open permits of a unit. -/
def openCount (d : Dev) (h : Half) (u : Nat) : Nat :=
  ((d.gdr h).permits.filter fun p => p.openNow && d.onUnit h u p).length

/-- The window that a pending start of a channel would have now (R211, R366): its passage placed on the unwrapped angle,
the half-width W, and the far edge L later, for a DRV start later by DEFER_MAX too. -/
def permitOf (d : Dev) (h : Half) (c : Nat) : Option Permit :=
  let x := d.chan h c
  let v := d.valsNow h c
  let om := d.ganderSpeed h
  let cfg := d.rd (Reg.GDR_CFG h)
  let w := 256 * ofN (getF cfg F.GDR_CFG_PWIN) + 16 * ofN (getF cfg F.GDR_CFG_SPDK) * speedRpm om / 1000
  let pending := decide (x.occ = .pending ∨ x.occ = .slot ∨ x.occ = .deferred) ||
    (decide (x.occ = .launched) && !x.passed)
  match d.chanOutput h c, x.pass with
  | some o, some a =>
    if (d.gdr h).sync && (d.gdr h).phk && pending && d.chEn h c then
      some
        { chan := c, openNow := decide (d.openCount h o.unit < permitMax o.unit)
          centre := (a : Rat) + (v.offset : Rat) * om, w := w, omega := om
          len := 2 * w + ofN (d.culim h c) + (match o with
            | .ls n => ofN (d.deferMax h (n / 2)) * om
            | _ => 0) }
    else none
  | _, _ => none

/-- The Gander's angle at a tick past the opening C − W of a permit, on the unwrapped angle of the half (R366). -/
def permitPast (d : Dev) (h : Half) (p : Permit) (t : Nat) : Rat :=
  nearest (d.cycLen h) (d.ganderAngleAt h t) (d.phi h) - (p.centre - p.w)

/-- A start permit opens at C − W, and not past its far edge (R366); a third one of a bank, or a second one of an
output, waits. -/
def openPermit (d : Dev) (h : Half) (c : Nat) : Dev :=
  match d.permitOf h c with
  | none => d
  | some p =>
    let q := d.permitPast h p d.now
    if decide (0 ≤ q ∧ q ≤ p.len) && !(d.gdr h).permits.any (fun p => decide (p.chan = c)) then
      (d.onGander h fun g => { g with permits := g.permits ++ [p], silent := false }).incF (Reg.GDR_CNT h)
        F.GDR_CNT_PERMITS
    else d

/-- The longest waiting permit of a unit opens in the place of one that closed; one whose far edge has passed does not
(R366). -/
def promote (d : Dev) (h : Half) (u : Nat) : Dev :=
  let d1 := d.onGander h fun g => { g with
    permits := g.permits.filter fun p => p.openNow || !d.onUnit h u p || decide (d.permitPast h p d.now ≤ p.len) }
  if d1.openCount h u < permitMax u then
    match (d1.gdr h).permits.find? fun p => !p.openNow && d1.onUnit h u p with
    | some q => d1.onGander h fun g => { g with
        permits := g.permits.map fun p => if p.chan = q.chan then { p with openNow := true } else p }
    | none => d1
  else d1

/-- The permit of a channel taken away (R366). -/
def closePermit (d : Dev) (h : Half) (c : Nat) : Dev :=
  let d1 := d.onGander h fun g => { g with permits := g.permits.filter fun p => decide (p.chan ≠ c) }
  match d.chanOutput h c with
  | some o => d1.promote h o.unit
  | none => d1

/-- The permit of a channel closes as the Gander's angle passes its far edge (R366) (corners DEDUCED, log 56). -/
def permitEnd (d : Dev) (h : Half) (c : Nat) : Dev :=
  if (d.gdr h).permits.any fun p => decide (p.chan = c) && decide (p.len < d.permitPast h p d.now) then d.closePermit h c
  else d

/-- The last tick of the present DRIVE cycle (corners DEDUCED, log 59). -/
def driveEnd (d : Dev) : Nat := d.now / 4 * 4 + 3

/-- The permits that open in the present DRIVE cycle count as open (R24). -/
def opensNow (d : Dev) (h : Half) (o : Output) : Dev :=
  ((d.half h).chans.map (·.1)).foldl
    (fun d c => match d.permitOf h c with
      | some p =>
        if decide (d.chanOutput h c = some o) && !(d.gdr h).permits.any (fun p => decide (p.chan = c)) &&
            decide (d.permitPast h p (d.now / 4 * 4 - 1) < 0 ∧ 0 ≤ d.permitPast h p d.driveEnd) then
          (d.onGander h fun g => { g with permits := g.permits ++ [p], silent := false }).incF (Reg.GDR_CNT h)
            F.GDR_CNT_PERMITS
        else d
      | none => d) d

/-- The earliest open permit of an output (R366): one that closes in the present DRIVE cycle counts as closed (R24). -/
def permitFor (d : Dev) (h : Half) (o : Output) : Option Permit :=
  (d.gdr h).permits.find? fun p =>
    p.openNow && decide (d.chanOutput h p.chan = some o) && decide (d.permitPast h p d.driveEnd ≤ p.len)

/-- DRIVE cycles of a number of ticks, as a fraction. -/
def driveQ (tk : Rat) : Rat := tk / 4

/-- The end rule and M that come with a permit (R367) (corners DEDUCED, log 59). -/
def endRule (d : Dev) (h : Half) (p : Permit) (c : Nat) : Passed :=
  let v := d.valsNow h p.chan
  let dtol := ofN (d.f (Reg.GDR_CFG h) F.GDR_CFG_DTOL)
  let hyd : Rat :=
    if v.action = 6 ∧ d.bit (Reg.DRV_PCFG h v.profile) F.DRV_PCFG_HYDRAULIC then
      100 * ofN (d.f (Reg.DRV_PHYD h v.profile) F.DRV_PHYD_HYD_LIM)
    else 0
  let ms : Rat :=
    if v.action = 5 then
      let w := d.rd (Reg.IGN_MS h v.target)
      1000 * ofN (d.f (Reg.IGN_CFG h v.target) F.IGN_CFG_MSN * (getF w F.IGN_MS_SPK + getF w F.IGN_MS_RECH))
    else 0
  let up := fun (x : Rat) => x.ceil.toNat + 1
  if v.endAngle then
    let cyc := max 1 (d.cycLen h)
    let s := (ofN v.endVal - p.centre) / ofN cyc
    let span := (s - (s.floor : Rat)) * ofN cyc
    let span := if span = 0 then ofN cyc else span
    { chan := c, start := d.now
      m := up (driveQ ((span + 2 * p.w) / (if p.omega ≤ 0 then 1 else p.omega)) + hyd + ms)
      endA := some (v.endVal, p.w + hyd * 4 * p.omega), lo := 0, hi := 0, ended := false }
  else
    let dur := driveQ (ofN v.endVal)
    { chan := c, start := d.now, m := up (dur + dtol + hyd + ms), endA := none
      lo := (dur - hyd - dtol).floor.toNat, hi := up (dur + hyd + dtol), ended := false }

/-! ### The voter (R24, R368) -/

/-- GDR_VOTE, the count of refusals and limits, and the flag (R368). -/
def voteRecord (d : Dev) (h : Half) (o : Output) (why : Nat) (x : Fld) : Dev :=
  let k : Nat × Nat := match o with
    | .ls n => (0, n)
    | .ign k => (1, k)
    | .gao k => (2, k)
  ((d.wr (Reg.GDR_VOTE h) (BitVec.ofNat 32 (k.1 * 2 ^ 20 + why * 2 ^ 16 + k.2 * 256))).satF (Reg.GDR_CNT h)
    F.GDR_CNT_REFUSED).flagH h (Reg.GDR_FLAG h) x 0x52

/-- A refusal or a limit (R357, R368): the occurrence carries VOTE, class VOTE is raised. -/
def voteFault (d : Dev) (h : Half) (c : Nat) (o : Output) (why : Nat) (x : Fld) (cut : Bool) : Dev :=
  ((d.voteRecord h o why x).dropOcc h c rVOTE cut).fault .vote (.half h)

/-- What a start edge does at its output (R202, R224, R231). -/
def outputStart (d : Dev) (h : Half) (c : Nat) (v : Vals) (o : Output) : Dev :=
  match o with
  | .ls _ => d.startShot h c v
  | .ign k => d.ignStart h k (d.chan h c).restrikes
  | .gao k =>
    (d.gaoAct h k v.action v.param).setChan h c { d.chan h c with live := d.bit (Reg.GAO_CFG h k) F.GAO_CFG_EN }

/-- What an end edge does at its output. -/
def outputEnd (d : Dev) (h : Half) (c : Nat) (v : Vals) (o : Output) : Dev :=
  match o with
  | .ls n => d.shotEnd h c (n / 2)
  | .ign k => d.ignEnd h k
  | .gao k => d.gaoEnd h k v.param (d.chan h c).live

/-- A start edge at the voter (R24): passed by the earliest permit of its output that is open in this DRIVE cycle, or
refused (corners DEDUCED, log 59). -/
def voteStart (d : Dev) (h : Half) (c : Nat) (v : Vals) (o : Output) : Dev :=
  let d := d.opensNow h o
  match d.permitFor h o with
  | none => d.voteFault h c o 1 F.GDR_FLAG_REF_START false
  | some p =>
    let rule := d.endRule h p c
    let d1 := d.closePermit h p.chan
    let d2 := (d1.setChan h c { d1.chan h c with passed := true }).outputStart h c v o
    if hasEnd v.action then
      d2.onHalf h fun s => { s with passed := sparseInsert s.passed o.key rule }
    else d2.complete h c d2.now

/-- The voter's count: the DRIVE clock edges since the passed start edge (R367). -/
def driveCount (d : Dev) (p : Passed) : Nat := d.now / 4 - p.start / 4

/-- Whether the end rule of a passed actuation admits an edge now (R367) (corners DEDUCED, log 59). -/
def endFits (d : Dev) (h : Half) (p : Passed) : Bool :=
  match p.endA with
  | some (e, w) =>
    let cyc := ofN (max 1 (d.cycLen h))
    let q := (d.ganderAngle h - ofN e) / cyc
    let q := (q - (q.floor : Rat)) * cyc
    decide (q ≤ w) || decide (cyc - q ≤ w)
  | none =>
    let n := driveCount d p
    decide (p.lo ≤ n) && decide (n ≤ p.hi)

/-- A half that has ended safely while an end edge was on its way: the IGN or GAO output is safe after that edge (R175,
R232). -/
def safeAfter (d : Dev) (h : Half) (o : Output) : Dev :=
  if d.issuing h && decide (d.mode ≠ .halt) then d
  else match o with
    | .ls _ => d
    | .ign k => d.softOff h k
    | .gao k => d.gaoSafe h k

/-- An end edge at the voter (R367, R368). An occurrence with restrikes is counted on to the last of them (R226) (corners
DEDUCED, log 59). -/
def voteEnd (d : Dev) (h : Half) (c : Nat) (v : Vals) (o : Output) : Dev :=
  match sparseFind (d.half h).passed o.key with
  | some p =>
    if p.chan = c ∧ p.ended = false ∧ d.endFits h p = true then
      let d1 := d.onHalf h fun s => { s with passed := sparseErase s.passed o.key }
      let d2 := (d1.outputEnd h c v o).safeAfter h o
      let counts := match o with
        | .ign k => (d2.ign h k).nextT.isSome
        | _ => false
      let d3 := if counts then
          d2.onHalf h fun s => { s with passed := sparseInsert s.passed o.key { p with ended := true } }
        else d2
      d3.complete h c d3.now
    else d.voteFault h c o 2 F.GDR_FLAG_REF_END true
  | none => d.voteFault h c o 2 F.GDR_FLAG_REF_END true

/-- The next edge of a launched actuation reaches the voter. -/
def edgeAtVoter (d : Dev) (h : Half) (c : Nat) : Dev :=
  let x := d.chan h c
  let v := d.valsNow h c
  match x.occ, outputOf v.action v.target with
  | .launched, some o =>
    if !x.passed then
      if x.start ≤ d.now then d.voteStart h c v o else d
    else
      match x.endT with
      | some e => if x.ending && decide (e / 65536 ≤ d.now) then d.voteEnd h c v o else d
      | none => d
  | _, _ => d

/-- An output ended safely by the voter itself (R368). -/
def endOutput (d : Dev) (h : Half) (o : Output) : Dev :=
  match o with
  | .ls n => d.cutBank h (n / 2)
  | .ign k => d.softOff h k
  | .gao k => d.gaoSafe h k

/-- The output of a number of `Output.key`. -/
def outputAt (k : Nat) : Output := if k < 0x100 then .ls k else if k < 0x200 then .ign (k - 0x100) else .gao (k - 0x200)

/-- An end edge of a passed actuation is on its way and reaches the voter in the present DRIVE cycle: it passes (R368). -/
def endsNow (d : Dev) (h : Half) (c : Nat) : Bool :=
  (d.chan h c).ending && (d.chan h c).endT.any fun t => decide (t / 65536 / 4 = d.now / 4)

/-- The count of a passed actuation reaches M (R368): its output is ended safely, the occurrence is cut, class VOTE is
raised. After the end edge only restrikes are left to end (R226). -/
def limitReached (d : Dev) (h : Half) (c : Nat) : Dev :=
  match (d.half h).passed.find? fun e => decide (e.2.chan = c) with
  | some (k, p) =>
    let o := outputAt k
    if p.m ≤ driveCount d p ∧ (p.ended || !d.endsNow h c) = true then
      let d1 := (d.onHalf h fun s => { s with passed := sparseErase s.passed k }).endOutput h o
      if p.ended then (d1.voteRecord h o 3 F.GDR_FLAG_DURMAX).fault .vote (.half h)
      else d1.voteFault h c o 3 F.GDR_FLAG_DURMAX true
    else d
  | none => d

/-- The permit lanes carry no word for 8 µs (R368). -/
def laneSilent (d : Dev) (h : Half) : Dev :=
  ((d.permitsClosed h).onGander h fun g => { g with silent := true }).ganderFault h F.GDR_FLAG_LANE_SIL

end Dev

/-! ### The commands -/

/-- OUTPUT_EDGE_AT_VOTER (R23, R24, R367, R368). -/
def execOutputEdgeAtVoter (t : Tick) (h : Half) (c : Fin 256) (s : State) : Out :=
  s.onDev t fun d => d.edgeAtVoter h c.val

/-- PERMIT_OPEN (R366). -/
def execPermitOpen (t : Tick) (h : Half) (c : Fin 256) (s : State) : Out :=
  s.onDev t fun d => d.openPermit h c.val

/-- PERMIT_CLOSE (R366). -/
def execPermitClose (t : Tick) (h : Half) (c : Fin 256) (s : State) : Out :=
  s.onDev t fun d => d.permitEnd h c.val

/-- DURATION_LIMIT (R368). -/
def execDurationLimit (t : Tick) (h : Half) (c : Fin 256) (s : State) : Out :=
  s.onDev t fun d => d.limitReached h c.val

/-- PERMIT_LANE_SILENT (R368). -/
def execPermitLaneSilent (t : Tick) (h : Half) (s : State) : Out :=
  s.onDev t fun d => if d.operating then d.laneSilent h else d

/-- GANDER_EDGE (R83, R84, R363): a timed edge of the Gander's comparators is processed once its qualification time,
its pulse or QWIN has passed (corners DEDUCED, log 56). -/
def execGanderEdge (t : Tick) (h : Half) (e : GanderEdge) (s : State) : Out :=
  s.onDev t fun d =>
    if d.capturing h then
      match e with
      | .crank age crkd near width corrupt =>
        match d.ganderTakes h crkd near width with
        | some (due, rev) => if due ≤ age then d.ganderCrank h (d.now - age) rev corrupt else d
        | none => d
      | .cam c age level =>
        if getB (d.rd (Reg.SNS_CFG h)) ⟨8 + c.val, 8 + c.val⟩ && d.camTimes h c.val level &&
            decide (d.camFilt h ≤ age) then
          d.ganderCam h c.val (d.now - age) level
        else d
    else d

/-- GANDER_LAG_TIMEOUT (R365). -/
def execGanderLagTimeout (t : Tick) (h : Half) (s : State) : Out :=
  s.onDev t fun d => d.ganderLate h

end Sys2Proof.Machine
end

