-- ==== Sys2Proof/Machine/Bus.lean ====
section
/-! DEFINITION. The internal bus: what a read of any address answers and what a write to it does, by the access code
of its register or by the command that has a row of its own (R5 to R8, R11, R379 to R385). -/

namespace Sys2Proof.Machine

open Sys2Proof

/-- The state that a command answers; no command of the bus ends in a fault. -/
def after (o : Out) (s : State) : State :=
  match o with
  | .next s' => s'
  | .fault _ => s
  | .refused _ => s

/-- A present moment: the tick at which an access is made. -/
def State.tickNow (s : State) : Tick := s.dev.timeBase

namespace Dev

/-! ### Registers that show what other state holds -/

/-- The code of the device mode (R25). -/
def modeNo (d : Dev) : Nat :=
  match d.mode with
  | .unpowered | .standby => 0
  | .boot => 1
  | .load => 2
  | .operate => 3
  | .halt => 4
  | .service => 5

/-- SYS_MODE. -/
def modeView (d : Dev) : Word :=
  BitVec.ofNat 32 (bnat d.devSafe * 2 ^ 17 + bnat d.debugReq * 2 ^ 16 + modeCode (d.hmode .b) * 2 ^ 8 +
    modeCode (d.hmode .a) * 2 ^ 4 + d.modeNo)

/-- The code that ANG_MODE shows: a half that does not operate reads IDLE (R51). -/
def angModeCode (m : HMode) : Nat := if m = .off then 0 else modeCode m

/-- ANG_MODE. -/
def angModeView (d : Dev) (h : Half) : Word :=
  BitVec.ofNat 32 (angModeCode (d.half h).prev * 16 + angModeCode (d.hmode h))

/-- EVC_ARM of a group: the ARMED state of its channels (R160). -/
def evcArmView (d : Dev) (h : Half) (g : Nat) : Word := maskOf 16 fun j => d.armed h (16 * g + j)

/-- EVC_GSTAT of a group. -/
def evcGroupView (d : Dev) (h : Half) (g : Nat) : Word :=
  let drp := maskOf 16 fun j =>
    let w := d.rd (Reg.EVC_STAT h (16 * g + j))
    getB w F.EVC_STAT_DROP || getB w F.EVC_STAT_CUT
  let evt := maskOf 16 fun j =>
    let c := 16 * g + j
    d.bit (Reg.EVC_STAT h c) F.EVC_STAT_DONE &&
      (decide (d.chAction h c = 0) || getB (d.ctrl h c) F.EVC_CTRL_IE)
  evt ||| (drp <<< (16 : Nat))

/-- EVC_PRED of a channel: it reads 0 while the channel's events are withheld and no launched edge stands (R165). -/
def predView (d : Dev) (h : Half) (c : Nat) : Word :=
  if d.chIssues h c || decide ((d.chan h c).occ = .launched) then d.rd (Reg.EVC_PRED h c) else 0

/-- IGN_SUM. -/
def ignSumView (d : Dev) (h : Half) : Word := maskOf 12 fun k => decide (getF (d.rd (Reg.IGN_STAT h k)) ⟨7, 5⟩ ≠ 0)

/-- BST_STAT. -/
def boostView (d : Dev) (h : Half) : Word :=
  putB (putB (d.rd (Reg.BST_STAT h)) F.BST_STAT_RUN (d.boostRuns h)) F.BST_STAT_SOFT (d.boostSoft h)

/-- GDR_STAT (corners DEDUCED, log 57). -/
def ganderView (d : Dev) (h : Half) : Word :=
  let g := (d.half h).gander
  BitVec.ofNat 32 (g.idx % 512 * 2 ^ 16 + (g.permits.filter (·.openNow)).length % 256 * 2 ^ 8 + bnat g.phk * 4 +
    bnat g.sync * 2 + bnat (d.operating && (d.half h).enabled && !g.silent))

/-- SAF_STAT. -/
def safView (d : Dev) : Word :=
  let w := d.rd Reg.SAF_STAT
  putB (putB (putB (putB (putB w F.SAF_STAT_SENT_LATCH d.sentinel) F.SAF_STAT_SAFEREQ d.safeReq) F.SAF_STAT_FAULTN
    d.faultLow) F.SAF_STAT_RECOV_PERM d.recover) F.SAF_STAT_DEV_SAFE d.devSafe

/-- LNK_STAT: HL and HBV as they are stored. -/
def linkView (d : Dev) : Word :=
  let l := d.link
  (d.rd Reg.LNK_STAT &&& 0x18) ||| BitVec.ofNat 32 (l.rxExp.toNat * 2 ^ 24 + l.txSeq.toNat * 2 ^ 16 +
    min 15 l.unacked.length * 2 ^ 12 + min 15 l.rx.length * 2 ^ 8 +
    if l.up then 2 else if l.align then 1 else 0)

/-- The views of a half's registers. -/
def halfView (d : Dev) (m : Master) (h : Half) (o : Nat) : Option Word :=
  if o = 0x20 then some (d.senseView h)
  else if o = 0x204 then some (d.crkoView h 0)
  else if o = 0x214 then some (d.crkoView h 1)
  else if o = 0x2000 then some (d.angModeView h)
  else if o = 0x2010 then some (sparseGet 0 d.angLatch (latchKey h m))
  else if o = 0x21100 then some (d.ignSumView h)
  else if o = 0x23010 then some (d.boostView h)
  else if o = 0x26000 then some (d.newView h 0)
  else if o = 0x26004 then some (d.newView h 1)
  else if o = 0x30004 then some (d.ganderView h)
  else if o = 0x30008 then some (BitVec.ofNat 32 (wrapA (d.cycLen h) (d.ganderAngle h)))
  else if 0x12000 ≤ o ∧ o < 0x120C0 then
    ((Legal.unit o 0x12000 4 16).map (d.evcArmView h)).or ((Legal.unit o 0x12080 4 16).map (d.evcGroupView h))
  else if 0x10000 ≤ o ∧ o < 0x12000 then (Legal.unit o 0x10018 32 256).map (d.predView h)
  else if 0x14000 ≤ o ∧ o < 0x16000 ∧ 32 ≤ o % 64 then some (d.oldRd (Half.base h + o))
  else if o = 0x1600C then some (d.dmdStatView h)
  else if 0x22400 ≤ o ∧ o < 0x22580 then some (d.oldRd (Half.base h + o))
  else if 0x25000 ≤ o ∧ o < 0x26000 then
    ((Legal.unit o 0x25014 64 64).map fun a => lo32 (sparseGet 0 (d.acc h a).runLatch (portNo m))).or
      ((Legal.unit o 0x25020 64 64).map fun a => lo32 (sparseGet 0 (d.acc h a).recLatch (portNo m)))
  else none

/-- The views of an engine's registers. -/
def coltView (d : Dev) (e o : Nat) : Option Word :=
  let x := d.coltE e
  if o = 0x14 then some (BitVec.ofNat 32 (x.cb * 2 ^ 16 + x.ca))
  else if o = 0x18 then some x.tsr
  else if o = 0x1C then some x.rsr
  else if o = 0x28 then some (d.coltStatView e)
  else if o = 0x30 then some (x.ex.setWidth 32)
  else if o = 0x34 then some ((x.ex >>> (32 : Nat)).setWidth 32)
  else none

/-- The views of the interrupt controller's registers. -/
def irqView (d : Dev) (o : Nat) : Option Word :=
  (((Legal.unit o 0x10000 4 16).map fun k => maskWord d.irq.pend (k % 8)).or
    ((Legal.unit o 0x10040 4 16).map fun k => maskWord d.irq.en (k % 8))).or
      ((Legal.unit o 0x10120 4 6).map d.tgtStatView)

/-- The views of the device registers. -/
def devView (d : Dev) (m : Master) (a : Nat) : Option Word :=
  if a < 0x10000 then
    if a = Reg.SYS_ID then some d.idView else if a = Reg.SYS_MODE then some d.modeView else none
  else if a < 0x20000 then d.irqView a
  else if a < 0x30000 then
    if a = Reg.MULE_SUM then some d.muleSumView else (Legal.unit a 0x20008 64 16).map d.muleStatView
  else if a < 0x40000 then
    if a = Reg.TMB_HI then some (sparseGet 0 d.tmbLatch (portNo m))
    else if a = Reg.TMR_GFLAG then some d.gflagView
    else (Legal.unit a 0x30010 4 2).map d.armView
  else if a < 0x50000 then
    if a = Reg.PWM_TRIPSTAT then some d.tripStatView
    else ((Legal.unit a 0x40010 32 32).map d.pwmCntView).or ((Legal.unit a 0x40014 32 32).map fun c =>
      d.pwmStatView c ((Config.freeWord d.freeCtr).getLsbD 0))
  else if a < 0x60000 then
    if a = Reg.COLT_SUM then some d.coltSumView
    else if a = Reg.COLT_PINLVL then some d.pinView
    else if a = Reg.COLT_GFLAG_SET ∨ a = Reg.COLT_GFLAG_CLR then some (d.rd Reg.COLT_GFLAG)
    else if a < 0x50200 then d.coltView ((a - 0x50000) / 64) (a % 64) else none
  else if a = Reg.LNK_STAT then some d.linkView
  else if a = Reg.SAF_STAT then some d.safView
  else none

/-- The word that a register without an action on reading shows. -/
def view (d : Dev) (m : Master) (a : Nat) : Word :=
  ((match halfOffset a with
    | some (h, o) => d.halfView m h o
    | none => d.devView m a)).getD (d.rd a)

/-- A read of PWM_STAT draws the level of a pin at high impedance (log 2). -/
def drawn (d : Dev) (a : Nat) : Dev := if (Legal.unit a 0x40014 32 32).isSome then d.draw.2 else d

/-! ### RAM (R384) -/

/-- The RAM regions. -/
def inRam (a : Nat) : Bool :=
  inRange a 0x200000 0x40000 || inRange a 0x300000 0x10000 || inRange a 0x310000 0x1800 || inRange a 0x340000 0x20000

/-- A read access of a register block, or of a word of RAM. -/
def plainRead (y : DevMem) (m : Master) (a : Nat) : DevMem :=
  let d := y.1
  if a % 4 ≠ 0 then (d.busErr, y.2)
  else if inRam a then
    (d.onRead a (logSeen y a) id, y.2)
  else match regAt a with
    | none => (d.busErr, y.2)
    | some none => (d.onRead a 0 id, y.2)
    | some (some _) => (d.onRead a (d.view m a) fun d => d.drawn a, y.2)

/-! ### Writes by access code (R7) -/

/-- The counts that go with the flags cleared: those of DRV_STAT (R192, R209) and SKIPS of a compare (R95). -/
def flagCounts (d : Dev) (a : Nat) (v : Word) : Dev :=
  match halfOffset a with
  | some (h, o) =>
    if o = 0x22000 then
      let d1 := if getB v F.DRV_STAT_LOWBOOST then d.clrCount (Reg.DRV_STAT h) F.DRV_STAT_LOWB_CNT else d
      if getB v F.DRV_STAT_OVLP_DROP then d1.clrCount (Reg.DRV_STAT h) F.DRV_STAT_OVLP_CNT else d1
    else match Legal.unit o 0x110 32 8 with
      | some n => if getB v F.ASC_STAT_SKIP then d.clrCount (Reg.ASC_STAT h n) F.ASC_STAT_SKIPS else d
      | none => d
  | none => d

/-- The W1C flags of a write cleared, but for those that hardware set in this cycle (R8). -/
def w1cWrite (d : Dev) (a : Nat) (clr : Word) : Dev :=
  (d.wr a (d.rd a &&& ~~~(clr &&& ~~~(d.hwSet a)))).rebase a (d.oldRd a &&& ~~~clr)

/-- The RW bits set, the W1C flags cleared; a register of TX fields alone answers with a bus error. A write to a
register that has TX fields beside others acts on the others and leaves the TX fields (DESIGN CHOICE, log 68). -/
def codeWrite (d : Dev) (a : Nat) (v : Word) : Dev :=
  match regAt a with
  | none => d.busErr
  | some none => d
  | some (some r) =>
    if r.tx ≠ 0 ∧ r.rw ||| r.w1c ||| r.w1s ||| r.wo = 0 then d.busErr
    else
      let d1 := if r.w1c = 0 then d else d.w1cWrite a (BitVec.ofNat 32 r.w1c &&& v)
      (d1.rwWrite a v).flagCounts a v

/-- A write access by the access code of its register (corners DEDUCED, log 63). -/
def plainWrite (d : Dev) (a : Nat) (v : Word) : Dev :=
  if a % 4 ≠ 0 ∨ (regAt a).isNone then d.busErr else d.onWrite a fun d => d.codeWrite a v

end Dev

/-! ### Registers whose write is a command with a row of its own -/

/-- A word written to CTX_CTL (R75). -/
def ctxCtlWord (t : Tick) (m : Master) (v : Word) (s : State) : Out :=
  match getF v F.CTX_CTL_CMD with
  | 1 => execCtxOpen t m s
  | 2 => execCtxCommit t m (BitVec.ofNat 8 (getF v F.CTX_CTL_COUNT)) (BitVec.ofNat 2 (getF v F.CTX_CTL_WHEN)) s
  | 3 => execCtxAbort t m s
  | _ => s.onDev t fun d => d.onWrite Reg.CTX_CTL fun d => d.ctxCtl m id

/-- A word written to DMD_CMT (R183, R187). -/
def dmdCmtWord (t : Tick) (m : Master) (h : Half) (v : Word) (s : State) : Out :=
  match getF v F.DMD_CMT_CMD with
  | 1 => execDmdCommit t m h (BitVec.ofNat 8 (getF v F.DMD_CMT_GROUPS)) (BitVec.ofNat 8 (getF v F.DMD_CMT_XGROUPS))
      (BitVec.ofNat 2 (getF v F.DMD_CMT_WHEN)) s
  | 2 => execDmdAbort t m h s
  | _ => s.onDev t fun d => d.onWrite (Reg.DMD_CMT h) id

/-- A word written to COLT_CTRL (R297). -/
def coltCtrlWord (t : Tick) (m : Master) (e : Fin 8) (v : Word) (s : State) : Out :=
  match getF v F.COLT_CTRL_CMD with
  | 1 => execColtStart t m e s
  | 2 => execColtStop t m e s
  | 3 => execColtFlush t m e s
  | _ => s.onDev t fun d => d.onWrite (Reg.COLT_CTRL e.val) id

/-- A word written to MULE_CMD (R303, R312). -/
def muleCmdWord (t : Tick) (m : Master) (c : Fin 16) (v : Word) (s : State) : Out :=
  match getF v F.MULE_CMD_CMD with
  | 1 => execMuleCommit t m c s
  | 2 => execMuleStop t m c s
  | 3 => execMuleWithdraw t m c s
  | _ => s.onDev t fun d => d.onWrite (Reg.MULE_CMD c.val) id

/-- The commands of a half's registers. -/
def halfCmd (t : Tick) (m : Master) (h : Half) (o : Nat) (v : Word) (s : State) : Option Out :=
  if o < 0x1000 then
    if o = 0x28 then some (execSnsCountClear t m h v s)
    else ((Legal.unit o 0x100 32 8).map fun n => execAscEnable t m h (Fin.ofNat 8 n) v s).or
      ((Legal.unit o 0x200 16 2).map fun k =>
        s.onDev t fun d => d.onWrite (Reg.CRKO_CTRL h k) fun d => d.crkoCtrl h k v)
  else if o = 0x1014 then some (execResyncPermit t m h v s)
  else if o = 0x103C then some (execWhlCountClear t m h v s)
  else if o = 0x20A0 then some (execWeClear t m h v s)
  else if 0x12000 ≤ o ∧ o < 0x12100 then
    if o = 0x120C0 then some (execEvcStatusClear t m h v s)
    else ((Legal.unit o 0x12000 4 16).map fun g => execChannelArm t m h (Fin.ofNat 16 g) v s).or
      ((Legal.unit o 0x12040 4 16).map fun g => execChannelDisarm t m h (Fin.ofNat 16 g) v s)
  else if 0x14000 ≤ o ∧ o < 0x16000 then
    if (o - 0x14000) % 64 < 32 then
      some (execStagedSlotWrite t m h (Fin.ofNat 128 ((o - 0x14000) / 64)) (Fin.ofNat 8 ((o - 0x14000) % 64 / 4)) v s)
    else none
  else if o = 0x16000 then some (dmdCmtWord t m h v s)
  else if o = 0x22004 then some (execBankClear t m h v s)
  else if o = 0x22008 then some (execHydClear t m h v s)
  else none

/-- The commands of the configuration registers: SYS, TRIM, IMG, CTX. -/
def sysCmd (t : Tick) (m : Master) (a : Nat) (v : Word) (s : State) : Option Out :=
  if a = Reg.SYS_SWRST then some (execSoftwareReset t m v s)
  else if a = Reg.SYS_SVCKEY then some (execServiceKeyWrite t m v s)
  else if a = Reg.TRIM_CMD then some (execTrimRewrite t m v s)
  else if a = Reg.IMG_KEYCTL then some (execKeySlotProgram t m v s)
  else if a = Reg.CTX_CTL then some (ctxCtlWord t m v s)
  else (((Legal.unit a 0x1100 4 64).map fun k => execTrimBufferWrite t m (Fin.ofNat 64 k) v s).or
    ((Legal.unit a 0x2040 4 4).map fun k => execKeyDataWrite t m (Fin.ofNat 4 k) v s)).or
      ((Legal.unit a 0x2200 4 128).map fun k => execCtxBufWrite t m (Fin.ofNat 128 k) v s)

/-- The commands of the interrupt controller. -/
def irqCmd (t : Tick) (m : Master) (a : Nat) (v : Word) (s : State) : Option Out :=
  if a < 0x10080 then
    let k := Fin.ofNat 8 ((a - 0x10000) / 4)
    match (a - 0x10000) / 32 with
    | 0 => some (execIrqPendSet t m k v s)
    | 1 => some (execIrqPendClear t m k v s)
    | 2 => some (execIrqEnableSet t m k v s)
    | _ => some (execIrqEnableClear t m k v s)
  else ((Legal.unit a 0x10148 4 2).map fun g => execIrqComplete t m (Fin.ofNat 2 g) v s).or
    ((Legal.unit a 0x10100 4 6).map fun k =>
      s.onDev t fun d => d.onWrite (Reg.IRQ_TGTCTL k) fun d => (d.rwWrite (Reg.IRQ_TGTCTL k) v).settleIrq)

/-- The commands of the Mule. -/
def muleCmd (t : Tick) (m : Master) (a : Nat) (v : Word) (s : State) : Option Out :=
  if a = Reg.MULE_SWREQ then some (execMuleSoftwareRequest t m v s)
  else if a < 0x20400 then
    let c := Fin.ofNat 16 ((a - 0x20000) / 64)
    let o := (a - 0x20000) % 64
    if o = 0 then some (execMuleEnableWrite t m c v s)
    else if o = 4 then some (muleCmdWord t m c v s)
    else if 0x20 ≤ o ∧ o < 0x30 then some (execMuleShadowWrite t m c (Fin.ofNat 4 ((o - 0x20) / 4)) v s)
    else none
  else none

/-- The commands of the timers and the PWM channels. -/
def timeCmd (t : Tick) (m : Master) (a : Nat) (v : Word) (s : State) : Option Out :=
  if a < 0x40000 then
    ((Legal.unit a 0x30010 4 2).map fun k => execTimerArmWrite t m (Fin.ofNat 2 k) v s).or
      ((Legal.unit a 0x30018 4 2).map fun k => execTimerDisarm t m (Fin.ofNat 2 k) v s)
  else if a < 0x40400 then
    let c := Fin.ofNat 32 ((a - 0x40000) / 32)
    match (a - 0x40000) % 32 / 4 with
    | 0 => some (execPwmEnable t m c v s)
    | 1 => some (execPwmPerWrite t m c v s)
    | 2 => some (execPwmRiseWrite t m c v s)
    | 3 => some (execPwmFallWrite t m c v s)
    | _ => none
  else if a = Reg.PWM_SYNC then some (execPwmSyncRestart t (some m) v s)
  else if a = Reg.PWM_TRIPCLR then some (execTripClear t m v s)
  else none

/-- The commands of the Colt engines (corners DEDUCED, log 46). -/
def coltCmd (t : Tick) (m : Master) (a : Nat) (v : Word) (s : State) : Option Out :=
  if a < 0x50200 then
    let e := Fin.ofNat 8 ((a - 0x50000) / 64)
    let o := (a - 0x50000) % 64
    if o = 0x08 then some (coltCtrlWord t m e v s)
    else if o = 0x20 then some (execColtTxPush t m e v s)
    else if o = 0x3C then some (execColtInject t m e v s)
    else none
  else if a = Reg.COLT_TRIG then
    some (s.onDev t fun d => d.onWrite Reg.COLT_TRIG fun d => (bitsOf v 8).foldl Dev.coltTrig d)
  else if a = Reg.COLT_GFLAG_SET then some (execColtFlagSet t m v s)
  else if a = Reg.COLT_GFLAG_CLR then some (execColtFlagClear t m v s)
  else if 0x51000 ≤ a ∧ a < 0x52000 then
    let e := Fin.ofNat 8 ((a - 0x51000) / 512)
    let i := Fin.ofNat 64 ((a - 0x51000) % 512 / 8)
    some (if a % 8 = 0 then execColtTableStage t m e i v s else execColtTableCommit t m e i v s)
  else none

/-- The commands of the host ports' and the safety registers. -/
def portCmd (t : Tick) (m : Master) (a : Nat) (v : Word) (s : State) : Option Out :=
  if a = Reg.NVL_PCTL then some (execFlashCommand t m v s)
  else if a = Reg.SAF_RECOVER then some (execSafRecoverWrite t m v s)
  else if a = Reg.SAF_TEST then some (execSafTest t m v s)
  else if a = Reg.NVL_PADDR ∨ (0x70840 ≤ a ∧ a < 0x70878) then
    some (s.onDev t fun d => d.onWrite a fun d => d.onNvl fun d => d.rwWrite a v)
  else ((Legal.unit a 0x70040 16 4).map fun b =>
      s.onDev t fun d => d.onWrite a fun d => d.streamCfg b v).or
    ((Legal.unit a 0x70048 16 4).map fun b => s.onDev t fun d => d.onWrite a fun d => d.streamAddWrite b v)

/-- The command that a write to an address is, if it is one (corners DEDUCED, log 63). -/
def cmdAt (t : Tick) (m : Master) (a : Nat) (v : Word) (s : State) : Option Out :=
  if a % 4 ≠ 0 then none
  else match halfOffset a with
    | some (h, o) => halfCmd t m h o v s
    | none =>
      if a < 0x10000 then sysCmd t m a v s
      else if a < 0x20000 then irqCmd t m a v s
      else if a < 0x30000 then muleCmd t m a v s
      else if a < 0x50000 then timeCmd t m a v s
      else if a < 0x60000 then coltCmd t m a v s
      else if a < 0x200000 then portCmd t m a v s
      else if Dev.inRange a (learnBase .a) 0xC00 then
        some (execLearnedTableWrite t m .a (Fin.ofNat 768 ((a - learnBase .a) / 4)) v s)
      else if Dev.inRange a (learnBase .b) 0xC00 then
        some (execLearnedTableWrite t m .b (Fin.ofNat 768 ((a - learnBase .b) / 4)) v s)
      else if Dev.inRange a 0x340000 0x20000 then
        some (s.onBoth t fun d ram =>
          if d.reach a true then (d.okay 0, Memory.setWord ram a v) else (d.busErr, ram))
      else none

/-- A word written by a bus master (R7, R379 to R385) (corners DEDUCED, log 63). -/
def busWrite (m : Master) (a : Nat) (v : Word) (s : State) : State :=
  let t := s.tickNow
  match cmdAt t m a v s with
  | some o => after o s
  | none => after (s.onDev t fun d => d.plainWrite a v) s

/-! ### Registers whose read is a command with a row of its own -/

/-- The read commands. -/
def readCmd (t : Tick) (m : Master) (a : Nat) (s : State) : Option Out :=
  match halfOffset a with
  | some (h, o) =>
    if o = 0x200C then some (execAngleRead t m h s)
    else if o < 0x1000 then (Legal.unit o 0x40 4 6).map fun n => execCaptureRead t m h (Fin.ofNat 6 n) s
    else ((Legal.unit o 0x2501C 64 64).map fun a => execAccRecordRead t m h (Fin.ofNat 64 a) s).or
      ((Legal.unit o 0x25010 64 64).map fun a => execAccSumRead t m h (Fin.ofNat 64 a) s)
  | none =>
    if a = Reg.TMB_LO then some (execTimeBaseRead t m s)
    else if a < 0x20000 then (Legal.unit a 0x10140 4 2).map fun g => execIrqClaim t m (Fin.ofNat 2 g) s
    else if a < 0x60000 then (Legal.unit a 0x50024 64 8).map fun e => execColtRxPop t m (Fin.ofNat 8 e) s
    else ((Legal.unit a 0x60008 64 6).map fun r => execSentDataRead t m (Fin.ofNat 6 r) s).or
      ((Legal.unit a 0x6001C 64 6).map fun r => execSentSerialRead t m (Fin.ofNat 6 r) s)

/-- A word read by a bus master: what it reads stands in the answer (R382) (corners DEDUCED, log 63). -/
def busRead (m : Master) (a : Nat) (s : State) : State :=
  let t := s.tickNow
  match readCmd t m a s with
  | some o => after o s
  | none => after (s.onBoth t fun d ram => Dev.plainRead (d, ram) m a) s

/-! ### The command -/

/-- REGISTER_WRITE (R7): any address; where it has a row of its own, the write is that row's command. -/
def execRegisterWrite (t : Tick) (m : Master) (addr v : Word) (s : State) : Out :=
  .next (busWrite m addr.toNat v { s with dev := s.dev.advance t })

end Sys2Proof.Machine
end

