-- ==== Sys2Proof/Machine/Link.lean ====
section
/-! DEFINITION. The Afavo link: its states, frames, answers and retransmission, the messages (R327 to R344). -/

namespace Sys2Proof.Machine

open Sys2Proof

namespace Dev

/-! ### Link states (R329, R335) -/

/-- A flag of LNK_FLAG that raises no source. -/
def linkFlag (d : Dev) (x : Fld) : Dev := d.mark Reg.LNK_FLAG x

/-- A received frame that is discarded or NAKed, counted. -/
def linkErr (d : Dev) : Dev := d.incF Reg.LNK_CNT F.LNK_CNT_ERRCNT

/-- The link goes DOWN (R329, R335): device frames not acknowledged are discarded, accepted frames stay without
their responses, and the transmitter holds its steady zero. -/
def linkDown (d : Dev) : Dev :=
  let d1 := d.onLink fun l => { l with
    up := false, align := false, hold := true, commas := 0, chars := 0, errs := []
    rx := l.rx.map fun p => (false, p.2), txq := [], unacked := [], resend := 0, answers := [], nakFull := none
    nvmFor := l.nvmFor.map fun p => (false, p.2)
    time := { l.time with downT := d.now, lineT := 0, frameC := none, skip := 0 } }
  d1.flag Reg.LNK_FLAG F.LNK_FLAG_DOWN 0xEE

/-- The link comes UP (R329, R335): its first frame is a STATUS with SEQ 0 and RESTART (corners DEDUCED, log 49). -/
def linkUp (d : Dev) : Dev :=
  let d1 := d.onLink fun l => { l with
    up := true, align := false, commas := 0, chars := 0, errs := [], txSeq := 0
    txq := [⟨0, 0x31, [1], none, 0, 0⟩], time := { l.time with statT := d.now, lineT := d.now, frameC := none, skip := 0 } }
  d1.flag Reg.LNK_FLAG F.LNK_FLAG_UP 0xEE

/-- Bit lock (R329): ALIGN, where the link is DOWN, its hold over and the port at work (corners DEDUCED, log 49). -/
def bitLock (d : Dev) : Dev :=
  if d.busRun && !d.link.up && !d.link.hold then d.onLink fun l => { l with align := true, commas := 0 } else d

/-- A character that is no control character of the link, or an error. -/
def badChar : LinkChar → Bool
  | .error => true
  | .data _ => false
  | .control b => !(decide (b = 0xBC ∨ b = 0xFB ∨ b = 0xFD ∨ b = 0x5C ∨ b = 0x7C))

/-- A code or disparity error while UP: the fourth within 256 characters takes the link DOWN (corners DEDUCED, log 49). -/
def charError (d : Dev) : Dev :=
  let n := d.link.chars
  let e := (d.link.errs ++ [n]).filter fun k => decide (n < k + 256)
  let d1 := d.onLink fun l => { l with errs := e }
  if 4 ≤ e.length then d1.linkDown else d1

/-- The characters since a frame's K27.7, those of answers inserted into it left out (R332): an answer is four characters. -/
def frameChar (c : LinkChar) (x : LinkTime) : LinkTime :=
  match c with
  | .control 0xFB => { x with frameC := some 0, skip := 0 }
  | .control 0xFD => { x with frameC := none }
  | .control 0x5C | .control 0x7C => { x with skip := 3 }
  | _ => if x.skip = 0 then { x with frameC := x.frameC.map (· + 1) } else { x with skip := x.skip - 1 }

/-- A comma seen at this tick. -/
def commaSeen (d : Dev) (c : LinkChar) : Dev :=
  if c = .control 0xBC then d.onTime fun x => { x with commaT := d.now } else d

/-- A received character (R328, R329) (corners DEDUCED, log 49). -/
def character (d : Dev) (c : LinkChar) : Dev :=
  let d := d.commaSeen c
  if d.link.up then
    let d1 := d.onLink fun l => { l with chars := l.chars + 1, time := frameChar c l.time }
    if badChar c then (d1.linkFlag F.LNK_FLAG_CODE_ERR).charError else d1
  else if d.link.align then
    if badChar c then (d.linkFlag F.LNK_FLAG_CODE_ERR).onLink fun l => { l with commas := 0 }
    else if c = .control 0xBC then
      if 7 ≤ d.link.commas then d.linkUp else d.onLink fun l => { l with commas := l.commas + 1 }
    else d.onLink fun l => { l with commas := 0 }
  else d

/-- 4 µs without a K28.5 take the link DOWN (R329). -/
def commaLate (d : Dev) : Dev :=
  if d.link.up && decide (d.link.time.commaT + usTk 4 ≤ d.now) then d.linkDown else d

/-- The steady zero after DOWN ends after 8 µs (R329). -/
def holdEnd' (d : Dev) : Dev :=
  if d.link.time.downT + usTk 8 ≤ d.now then d.onLink fun l => { l with hold := false } else d

/-- A frame without its K29.7 in 73 characters is discarded without an answer (R332). -/
def frameLate (d : Dev) : Dev :=
  if d.link.up && d.link.time.frameC.any fun n => decide (73 ≤ n) then
    d.linkErr.onTime fun x => { x with frameC := none }
  else d

/-! ### Received frames (R330 to R333) -/

/-- The bytes under a frame's CRC. -/
def frameBytes (f : Frame) : List Byte := [f.type, f.seq, f.lenField, f.flags] ++ f.payload

/-- An answer queued: ACK has CODE 0. -/
def answerWith (d : Dev) (seq code : Byte) : Dev := d.onLink fun l => { l with answers := l.answers ++ [(seq, code)] }

/-- A NAK carries the expected SEQ. -/
def nak (d : Dev) (code : Byte) : Dev := (d.answerWith d.link.rxExp code).linkErr

/-- The types that the host may send (R337) (corners DEDUCED, log 50). -/
def hostType (t : Byte) : Bool :=
  decide (t = 0x01 ∨ t = 0x02 ∨ t = 0x10 ∨ t = 0x11 ∨ t = 0x18 ∨ t = 0x19 ∨ t = 0x30 ∨ t = 0x40)

/-- A frame accepted: it waits for its execution, or is answered FORMAT where no execution has its TYPE (R337)
(corners DEDUCED, log 50). -/
def acceptFrame (d : Dev) (f : Frame) : Dev :=
  let d1 := (d.onLink fun l => { l with rxExp := f.seq + 1 }).answerWith f.seq 0
  if hostType f.type then d1.onLink fun l => { l with
    rx := l.rx ++ [(true, f)]
    time := if f.type = 0x30 then { l.time with hbAt := l.time.hbAt ++ [d.now] } else l.time }
  else d1.respond true f.seq f.type 3 0 []

/-- A frame with a correct CRC judged (R333) (corners DEDUCED, log 50). -/
def judgeFrame (d : Dev) (f : Frame) : Dev :=
  let e := d.link.rxExp
  let back := e - f.seq
  if 64 < f.lenField.toNat ∨ f.lenField.toNat ≠ f.payload.length ∨ f.flags &&& 0xFC ≠ 0 then
    (d.linkFlag F.LNK_FLAG_FMT_ERR).nak 3
  else if f.flags.getLsbD 1 then d.acceptFrame f
  else if f.seq = e then if 8 ≤ d.link.rx.length then d.nak 4 else d.acceptFrame f
  else if 1 ≤ back.toNat ∧ back.toNat ≤ 8 then d.answerWith (e - 1) 0
  else (d.linkFlag F.LNK_FLAG_SEQ_ERR).nak 2

/-- A received frame (R332, R333). -/
def receive (d : Dev) (f : Frame) : Dev :=
  let d := d.onTime fun x => { x with frameC := none, skip := 0 }
  if !d.link.up then d
  else if f.codeError then (d.linkFlag F.LNK_FLAG_CODE_ERR).linkErr
  else if 64 < f.payload.length then d.linkErr
  else if crc32 (frameBytes f) = f.crc then d.judgeFrame f
  else (d.linkFlag F.LNK_FLAG_CRC_ERR).nak 1

/-! ### Answers to device frames (R334) -/

/-- The place of a SEQ among the unacknowledged frames. -/
def unackedAt (d : Dev) (seq : Byte) : Option Nat := d.link.unacked.findIdx? fun x => decide (x.seq = some seq)

/-- Frames up to a place acknowledged. -/
def ackTo (d : Dev) (i : Nat) : Dev :=
  d.onLink fun l => { l with unacked := l.unacked.drop (i + 1), resend := min l.resend (l.unacked.length - (i + 1)) }

/-- Every frame from a place on is to be sent again (corners DEDUCED, log 51). -/
def resendFrom (d : Dev) (i : Nat) : Dev := d.onLink fun l => { l with resend := l.unacked.length - i }

/-- A frame fails: it and the later ones are sent again; its third failure takes the link DOWN (corners DEDUCED, log 51). -/
def failAt (d : Dev) (i : Nat) : Dev :=
  let d1 := d.onLink fun l => { l with unacked := l.unacked.modify i fun x => { x with tries := x.tries + 1 } }
  if (d1.link.unacked[i]?.map (·.tries)).any fun n => decide (3 ≤ n) then d1.linkDown else d1.resendFrom i

/-- An answer received: with a wrong CRC-8 or an unknown CODE it counts for nothing (corners DEDUCED, log 49). -/
def answered (d : Dev) (isNak : Bool) (seq code crc : Byte) : Dev :=
  if !d.link.up || decide (crc8 [seq, code] ≠ crc) then d
  else if isNak then
    if 1 ≤ code.toNat ∧ code.toNat ≤ 4 then
      let d1 := d.linkFlag F.LNK_FLAG_NAK_RX
      if code = 4 then d1.onLink fun l => { l with nakFull := some seq, time := { l.time with nakT := d.now } }
      else match d1.unackedAt seq with
        | some i => d1.failAt i
        | none => d1
    else d
  else if code = 0 then
    match d.unackedAt seq with
    | some i => d.ackTo i
    | none => d
  else d

/-- The oldest frame that is not already to be sent again and whose K29.7 was sent 2 µs ago. -/
def overdue (d : Dev) : Option Nat :=
  (d.link.unacked.take (d.link.unacked.length - d.link.resend)).findIdx? fun x => decide (x.endT + usTk 2 ≤ d.now)

/-- No ACK in 2 µs after its K29.7: the frame fails (corners DEDUCED, log 51). -/
def ackLate (d : Dev) : Dev :=
  if d.link.up then
    match d.overdue with
    | some i => d.failAt i
    | none => d
  else d

/-- 2 µs after a NAK FULL. -/
def fullResend (d : Dev) : Dev :=
  match d.link.nakFull with
  | some seq =>
    if d.link.time.nakT + usTk 2 ≤ d.now then
      let d1 := d.onLink fun l => { l with nakFull := none }
      match d1.unackedAt seq with
      | some i => d1.resendFrom i
      | none => d1
    else d
  | none => d

/-! ### Transmission (R334 to R336, R342, R343) -/

/-- A STATUS payload with its values (R338). -/
def statusBytes (d : Dev) (reason : List Byte) : List Byte :=
  let t := d.now
  reason.take 1 ++ [0, 0, 0] ++ wordBytes d.modeView ++ wordBytes (d.rd Reg.SYS_BOOTSTAT) ++ wordBytes d.linkView ++
    wordBytes (d.dmdStatView .a) ++
    wordBytes (if d.grade = .tzn5110 ∨ d.mode = .boot ∨ d.mode = .load then 0 else d.dmdStatView .b) ++
    wordBytes (lo32 t) ++ wordBytes (hi32 t)

/-- The bytes of a frame: FLAGS has RESTART in the first STATUS after UP, RETX in a retransmission. -/
def outBytes (x : OutFrame) (retx : Bool) : List Byte :=
  [x.type, x.seq.getD 0, BitVec.ofNat 8 x.payload.length, BitVec.ofNat 8 (bnat retx + 2 * bnat (decide (x.prio = 0)))] ++
    x.payload

/-- The tick at which the K29.7 of a frame begun now has been sent: K27.7, header, payload, CRC and K29.7, 20 ns
each (corners DEDUCED, log 49). -/
def frameEndT (d : Dev) (x : OutFrame) : Nat := d.now + 8 * (x.payload.length + 10)

/-- A new frame sent: it takes the next SEQ and waits for its ACK; one idle follows it (R328). -/
def sendNew (d : Dev) (x : OutFrame) : Dev :=
  let y := { x with seq := some d.link.txSeq, endT := d.frameEndT x }
  d.onLink fun l => { l with
    txSeq := l.txSeq + 1, unacked := l.unacked ++ [y], sent := outBytes y false
    time := { l.time with lineT := y.endT + 8 } }

/-- The frame at a place of the queue leaves it and is sent. -/
def sendQueued (d : Dev) (x : OutFrame) : Dev :=
  let d1 := d.onLink fun l => { l with txq := l.txq.erase x }
  d1.sendNew (if x.type = 0x31 then { x with payload := d1.statusBytes x.payload } else x)

/-- An IRQ message that the link carries (R325, R341, R351). -/
def linkMsg (d : Dev) (q : IrqMsg) : Bool :=
  decide (2 ≤ q.tgt) && !(d.rd Reg.LNK_CFG).getLsbD (16 + (q.tgt - 2))

/-- The IRQ_MSG of a queued message (R338). -/
def msgFrame (q : IrqMsg) : OutFrame :=
  ⟨3, 0x21, [BitVec.ofNat 8 q.src, BitVec.ofNat 8 (q.prio % 4 + (q.tgt - 2) % 4 * 4)] ++
    (wordBytes (BitVec.ofNat 32 q.seq)).take 2, none, 0, 0⟩

/-- The first waiting frame of the classes up to a number; of the lowest class the oldest. -/
def firstOf (l : List OutFrame) (top : Nat) : Option OutFrame :=
  (List.range (top + 1)).findSome? fun p => l.find? fun x => decide (x.prio = p)

/-- The first STREAM buffer with a frame. -/
def firstStream (d : Dev) : Option Nat := (List.range 4).find? d.streamReady

/-- A new frame in the order of the classes (R336) (corners DEDUCED, log 51). -/
def sendNext (d : Dev) (ram : List Host.Cell) : Dev :=
  match firstOf d.link.txq 2 with
  | some x => d.sendQueued x
  | none =>
    match d.takeMsg d.linkMsg with
    | some (q, d1) => d1.sendNew (msgFrame q)
    | none =>
      match firstOf d.link.txq 4 with
      | some x => d.sendQueued x
      | none =>
        match d.firstStream with
        | some b =>
          let r := d.streamTake ram b
          r.2.sendNew ⟨5, 0x20, r.1, none, 0, 0⟩
        | none => d

/-- An answer sent: it is inserted into a frame that runs, whose end it puts off by its four characters (R332). -/
def sendAnswer (d : Dev) (seq code : Byte) (rest : List (Byte × Byte)) : Dev :=
  d.onLink fun l => { l with
    answers := rest, sent := [if code = 0 then 0x5C else 0x7C, seq, code, crc8 [seq, code]]
    unacked := l.unacked.map fun x => if d.now < x.endT then { x with endT := x.endT + 32 } else x
    time := { l.time with lineT := max l.time.lineT d.now + 32 } }

/-- A frame sent once more. -/
def sendAgain (d : Dev) (x : OutFrame) : Dev :=
  ((d.onLink fun l => { l with
    unacked := l.unacked.set (l.unacked.length - l.resend) { x with endT := d.frameEndT x }
    resend := l.resend - 1, sent := outBytes x true, time := { l.time with lineT := d.frameEndT x + 8 } }).incF
      Reg.LNK_CNT F.LNK_CNT_RETXCNT).linkFlag F.LNK_FLAG_RETX

/-- The next character sequence sent: an answer at any time, a retransmission, a new frame while fewer than eight wait for
their ACK; a frame begins where the line is free. -/
def transmit (d : Dev) (ram : List Host.Cell) : Dev :=
  let l := d.link
  if !l.up then d
  else match l.answers with
    | (seq, code) :: rest => d.sendAnswer seq code rest
    | [] =>
      if d.now < l.time.lineT then d
      else if l.resend ≠ 0 then
        match l.unacked[l.unacked.length - l.resend]? with
        | some x => d.sendAgain x
        | none => d
      else if l.unacked.length < 8 then d.sendNext ram
      else d

/-! ### Execution of accepted frames (R338 to R341) -/

/-- The next frame to execute, if it has a TYPE: executions are made one at a time in SEQ order. -/
def nextFrame (d : Dev) (type : Byte) : Option (Bool × Frame) :=
  if d.link.nvmFor.isSome then none
  else match d.link.rx with
    | p :: _ => if p.2.type = type then some p else none
    | [] => none

/-- Execution begins: the frame leaves the buffer. -/
def popFrame (d : Dev) : Dev := d.onLink fun l => { l with rx := l.rx.drop 1 }

/-- A response to a frame. -/
def reply (d : Dev) (p : Bool × Frame) (status count : Nat) (data : List Byte) : Dev :=
  d.respond p.1 p.2.seq p.2.type status count data

/-- Messages that are answered DENIED in BOOT and LOAD (R340) (corners DEDUCED, log 50). -/
def messagesOpen (d : Dev) : Bool := d.operating || decide (d.mode = .service)

end Dev

/-! ### Sequences of accesses -/

/-- Words read from ascending addresses, up to the first bus error (R340). -/
def readWords (m : Master) (a : Nat) : Nat → List Byte → State → State × List Byte × Bool
  | 0, acc, s => (s, acc, true)
  | n + 1, acc, s =>
    let s1 := busRead m a s
    if s1.dev.answer.err then (s1, acc, false) else readWords m (a + 4) n (acc ++ wordBytes s1.dev.answer.data) s1

/-- Address and value pairs written in order, up to the first bus error; how many were written. -/
def writePairs (m : Master) : List (Nat × Word) → Nat → State → State × Nat × Bool
  | [], n, s => (s, n, true)
  | (a, v) :: l, n, s =>
    let s1 := busWrite m a v s
    if s1.dev.answer.err then (s1, n, false) else writePairs m l (n + 1) s1

/-- Words written to ascending addresses. -/
def writeWords (m : Master) (a : Nat) (ws : List Word) (s : State) : State × Nat × Bool :=
  writePairs m (ws.zipIdx.map fun p => (a + 4 * p.2, p.1)) 0 s

/-- The words of a payload from byte 4 on. -/
def payloadWords (p : List Byte) : List Word := (List.range ((p.length - 4) / 4)).map fun i => wordAt p (4 + 4 * i)

/-- A frame of a TYPE executed: one that breaks its layout is answered FORMAT, one not allowed in the present mode
DENIED (R338, R340) (corners DEDUCED, log 50). -/
def runFrame (type : Byte) (layout : List Byte → Bool) (allowed : Dev → Bool) (run : Bool × Frame → State → State)
    (s : State) : State :=
  match s.dev.nextFrame type with
  | none => s
  | some p =>
    let s1 : State := { s with dev := s.dev.popFrame }
    if !layout p.2.payload then { s1 with dev := s1.dev.reply p 3 0 [] }
    else if !allowed s1.dev then { s1 with dev := s1.dev.reply p 4 0 [] }
    else run p s1

/-- REG_RD (R338, R340). -/
def runRegRd (s : State) : State :=
  runFrame 0x01
    (fun p => decide (p.length = 8 ∧ (wordAt p 0).toNat % 4 = 0 ∧ 1 ≤ (p.getD 4 0).toNat ∧ (p.getD 4 0).toNat ≤ 15 ∧
      p.drop 5 = [0, 0, 0]))
    (fun _ => true)
    (fun f s =>
      let p := f.2.payload
      let r := readWords .link (wordAt p 0).toNat (p.getD 4 0).toNat [] s
      { r.1 with dev := r.1.dev.reply f (if r.2.2 then 0 else 1) (r.2.1.length / 4) r.2.1 }) s

/-- REG_WR (R338, R340). -/
def runRegWr (s : State) : State :=
  runFrame 0x02
    (fun p => decide (8 ≤ p.length ∧ p.length % 4 = 0 ∧ p.length ≤ 64 ∧ (wordAt p 0).toNat % 4 = 0))
    (fun _ => true)
    (fun f s =>
      let p := f.2.payload
      let r := writeWords .link (wordAt p 0).toNat (payloadWords p) s
      { r.1 with dev := r.1.dev.reply f (if r.2.2 then 0 else 1) r.2.1 [] }) s

/-- The half that a byte names. -/
def halfOfByte (b : Byte) : Half := if b = 1 then .b else .a

/-- DMD_STAGE (R338): the masked words of a staged slot, ascending. -/
def runDmdStage (s : State) : State :=
  runFrame 0x10
    (fun p =>
      let mask := p.getD 2 0
      decide (p.length % 4 = 0 ∧ 8 ≤ p.length ∧ (p.getD 0 0).toNat ≤ 1 ∧ (p.getD 1 0).toNat ≤ 127 ∧ p.getD 3 0 = 0 ∧
        mask &&& 0xC0 = 0 ∧ ((List.range 6).filter fun k => mask.getLsbD k).length = (p.length - 4) / 4))
    Dev.messagesOpen
    (fun f s =>
      let p := f.2.payload
      let h := halfOfByte (p.getD 0 0)
      let ks := (List.range 6).filter fun k => (p.getD 2 0).getLsbD k
      let r := writePairs .link
        ((ks.zip (payloadWords p)).map fun q => (Reg.DMD_ANGLE h (p.getD 1 0).toNat + 4 * q.1, q.2)) 0 s
      { r.1 with dev := r.1.dev.reply f (if r.2.2 then 0 else 1) r.2.1 [] }) s

/-- DMD_COMMIT (R341): the three writes as one sequence. -/
def runDmdCommit (s : State) : State :=
  runFrame 0x11 (fun p => decide (p.length = 12 ∧ (p.getD 0 0).toNat ≤ 1 ∧ p.getD 3 0 &&& 0xCC = 0))
    Dev.messagesOpen
    (fun f s =>
      let p := f.2.payload
      let h := halfOfByte (p.getD 0 0)
      let cmt := wordOf (p.getD 3 0) (p.getD 1 0) (p.getD 2 0) 0
      let r := writePairs .link
        [(Reg.DMD_WHEN_LO h, wordAt p 4), (Reg.DMD_WHEN_HI h, wordAt p 8), (Reg.DMD_CMT h, cmt)] 0 s
      { r.1 with dev := r.1.dev.reply f (if r.2.2 then 0 else 1) 0 [] }) s

/-- CTX_STAGE (R338): entries of CTX_BUF; COUNT in the response counts whole entries. -/
def runCtxStage (s : State) : State :=
  runFrame 0x18
    (fun p =>
      let e := (p.getD 0 0).toNat
      let n := (p.getD 1 0).toNat
      decide (1 ≤ n ∧ n ≤ 7 ∧ e + n ≤ 64 ∧ p.getD 2 0 = 0 ∧ p.getD 3 0 = 0 ∧ p.length = 4 + 8 * n))
    Dev.messagesOpen
    (fun f s =>
      let p := f.2.payload
      let r := writeWords .link (Reg.CTX_BUF (2 * (p.getD 0 0).toNat)) (payloadWords p) s
      { r.1 with dev := r.1.dev.reply f (if r.2.2 then 0 else 1) (r.2.1 / 2) [] }) s

/-- CTX_COMMIT (R341): the three writes as one sequence. -/
def runCtxCommit (s : State) : State :=
  runFrame 0x19 (fun p => decide (p.length = 12)) Dev.messagesOpen
    (fun f s =>
      let p := f.2.payload
      let r := writePairs .link
        [(Reg.CTX_WHEN_LO, wordAt p 4), (Reg.CTX_WHEN_HI, wordAt p 8), (Reg.CTX_CTL, wordAt p 0)] 0 s
      { r.1 with dev := r.1.dev.reply f (if r.2.2 then 0 else 1) 0 [] }) s

/-- NVM_PASS (R354): the same writes as those of a host; the answer waits for DONE, or is BUSY (corners DEDUCED, log 50). -/
def runNvmPass (s : State) : State :=
  runFrame 0x40
    (fun p => decide (8 ≤ p.length ∧ (p.getD 2 0).toNat ≤ 56 ∧ p.getD 3 0 = 0 ∧ p.getD 1 0 &&& 0x0C = 0 ∧
      p.getD 1 0 &&& 0x03 ≠ 3))
    (fun d => decide (d.mode = .service))
    (fun f s =>
      let p := f.2.payload
      let d := s.dev
      if d.bit Reg.NVL_PSTAT F.NVL_PSTAT_BUSY then { s with dev := d.reply f 5 0 [] }
      else
        let n := p.length - 8
        let b1 := (p.getD 1 0).toNat
        let ctl := BitVec.ofNat 32 ((p.getD 2 0).toNat * 2 ^ 26 + n * 2 ^ 20 + b1 / 16 * 2 ^ 16 + b1 % 4 * 2 ^ 12 + 2 ^ 8 +
          (p.getD 0 0).toNat)
        let d1 := ((d.wr Reg.NVL_PADDR (wordAt p 4)).pdataPut (p.drop 8)).pctlWrite ctl
        { s with dev := d1.onLink fun l => { l with nvmFor := some (f.1, f.2.seq) } }) s

/-- HEARTBEAT (R340, R345): it does not wait for the frames before it. -/
def runHeartbeat (d : Dev) : Dev :=
  match d.link.rx.find? fun p => decide (p.2.type = 0x30) with
  | none => d
  | some p =>
    let at' := d.link.time.hbAt.headD d.now
    let d1 := d.onLink fun l => { l with rx := l.rx.erase p, time := { l.time with hbAt := l.time.hbAt.drop 1 } }
    if p.2.payload.length = 4 then d1.heartbeat false (wordAt p.2.payload 0) at' else d1.reply p 3 0 []

/-- The STATUS of each STAT_PER ms while the link is UP (R342). -/
def Dev.statusDue (d : Dev) : Dev :=
  let per := 400000 * d.f Reg.LNK_CFG F.LNK_CFG_STAT_PER
  if d.link.up && decide (per ≠ 0 ∧ d.link.time.statT + per ≤ d.now) then
    (d.onTime fun x => { x with statT := x.statT + per }).queueStatus 5
  else d

/-! ### The commands -/

/-- LINK_BIT_LOCK (R329). -/
def execLinkBitLock (t : Tick) (s : State) : Out := s.onDev t Dev.bitLock

/-- LINK_CHARACTER (R328, R329). -/
def execLinkCharacter (t : Tick) (c : LinkChar) (s : State) : Out := s.onDev t fun d => d.character c

/-- COMMA_TIMEOUT (R329). -/
def execCommaTimeout (t : Tick) (s : State) : Out := s.onDev t Dev.commaLate

/-- DOWN_HOLD_END (R329). -/
def execDownHoldEnd (t : Tick) (s : State) : Out := s.onDev t Dev.holdEnd'

/-- FRAME_RECEIVED (R332, R333). -/
def execFrameReceived (t : Tick) (f : Frame) (s : State) : Out := s.onDev t fun d => d.receive f

/-- FRAME_LENGTH_TIMEOUT (R332): discarded without an answer. -/
def execFrameLengthTimeout (t : Tick) (s : State) : Out := s.onDev t Dev.frameLate

/-- ANSWER_RECEIVED (R334). -/
def execAnswerReceived (t : Tick) (nak : Bool) (seq code crc : Byte) (s : State) : Out :=
  s.onDev t fun d => d.answered nak seq code crc

/-- ACK_TIMEOUT (R334). -/
def execAckTimeout (t : Tick) (s : State) : Out := s.onDev t Dev.ackLate

/-- NAK_FULL_RESEND (R334). -/
def execNakFullResend (t : Tick) (s : State) : Out := s.onDev t Dev.fullResend

/-- FRAME_TRANSMIT (R334 to R336). -/
def execFrameTransmit (t : Tick) (s : State) : Out := s.onBoth t fun d m => (d.transmit m, m)

/-- REG_RD (R340). -/
def execRegRd (t : Tick) (s : State) : Out := .next (runRegRd { s with dev := s.dev.advance t })

/-- REG_WR (R340). -/
def execRegWr (t : Tick) (s : State) : Out := .next (runRegWr { s with dev := s.dev.advance t })

/-- DMD_STAGE (R338). -/
def execDmdStage (t : Tick) (s : State) : Out := .next (runDmdStage { s with dev := s.dev.advance t })

/-- DMD_COMMIT_MESSAGE (R341). -/
def execDmdCommitMessage (t : Tick) (s : State) : Out := .next (runDmdCommit { s with dev := s.dev.advance t })

/-- CTX_STAGE (R338). -/
def execCtxStage (t : Tick) (s : State) : Out := .next (runCtxStage { s with dev := s.dev.advance t })

/-- CTX_COMMIT_MESSAGE (R341). -/
def execCtxCommitMessage (t : Tick) (s : State) : Out := .next (runCtxCommit { s with dev := s.dev.advance t })

/-- HEARTBEAT (R345). -/
def execHeartbeat (t : Tick) (s : State) : Out := s.onDev t runHeartbeat

/-- NVM_PASS (R354). -/
def execNvmPass (t : Tick) (s : State) : Out := .next (runNvmPass { s with dev := s.dev.advance t })

/-- STATUS_PERIOD (R342). -/
def execStatusPeriod (t : Tick) (s : State) : Out :=
  s.onDev t Dev.statusDue

end Sys2Proof.Machine
end

