-- ==== Sys2Proof/Machine/MuleRun.lean ====
section
/-! DEFINITION. The bursts of the Mule: its accesses, one after the other, and the read-back (R307 to R314). -/

namespace Sys2Proof.Machine

open Sys2Proof

namespace Dev

/-- The bytes of a burst with the swap of the set applied (R310). -/
def swapBytes (mode : Nat) : List Byte → List Byte
  | a :: b :: c :: d :: l =>
    match mode with
    | 1 => b :: a :: d :: c :: swapBytes mode l
    | 2 => c :: d :: a :: b :: swapBytes mode l
    | 3 => d :: c :: b :: a :: swapBytes mode l
    | _ => a :: b :: c :: d :: swapBytes mode l
  | [a, b] => if mode = 1 then [b, a] else [a, b]
  | l => l

/-- Bytes of RAM as a bus read sees them (R152). -/
def seenBytes (y : DevMem) (a n : Nat) : List Byte :=
  (List.range n).map fun i => ((wordBytes (logSeen y ((a + i) / 4 * 4))).getD ((a + i) % 4) 0)

/-- A request served: its burst begins (R305, R306). -/
def burstStart (d : Dev) (c : Nat) : Dev :=
  let x := d.muleC c
  if x.inBurst then d
  else
    let n := min (8 * (d.f (Reg.MULE_ACTL c) F.MULE_SCTL_BEATS + 1)) (d.rd (Reg.MULE_ALEN c)).toNat
    d.setMule c { x with reqs := x.reqs.drop 1, inBurst := true, size := n, buf := [], done := 0 }

/-- Bytes read by one access join the buffer; the swap is made once it is full. -/
def burstTake (d : Dev) (c : Nat) (bs : List Byte) : Dev :=
  let x := d.muleC c
  let buf := x.buf ++ bs
  let full := decide (x.size ≤ buf.length)
  d.setMule c { x with
    buf := if full then swapBytes (d.f (Reg.MULE_ACTL c) F.MULE_SCTL_SWAP) buf else buf }

/-- The stream buffers that a burst of a channel to an address fills (R343) (corners DEDUCED, log 52). -/
def ringsFilled (d : Dev) (c a : Nat) : List Nat :=
  (List.range 4).filter fun b =>
    let w := d.rd (Reg.LNK_STRCFG b)
    let r := d.ring b
    getB w F.LNK_STRCFG_EN && !getB w F.LNK_STRCFG_SW && decide (getF w F.LNK_STRCFG_MCH = c) && inRange a r.1 r.2

/-- Bytes written by one access; after the last one the burst ends, and the set's last burst asks for the
read-back. A write that reset the device leaves no burst (corners DEDUCED, log 47). -/
def burstPut (d : Dev) (c n : Nat) : Dev :=
  let x := d.muleC c
  if !x.inBurst then d
  else if x.done + n < x.size then d.setMule c { x with done := x.done + n }
  else
    let ctl := d.rd (Reg.MULE_ACTL c)
    let src := (d.rd (Reg.MULE_ASADDR c)).toNat
    let dst := (d.rd (Reg.MULE_ADADDR c)).toNat
    let left := (d.rd (Reg.MULE_ALEN c)).toNat - x.size
    let d1 := (d.ringsFilled c dst).foldl (fun d b => d.send (.stream b x.size)) d
    (d1.showSet c (sideAt (srcSide ctl) src x.size) (sideAt (dstSide ctl) dst x.size) left).setMule c { x with
      inBurst := false, size := 0, buf := [], done := 0, readback := decide (left = 0) }

/-- Whether a beat may be written at an address of RAM (R143, R384). -/
def beatMay (d : Dev) (a : Nat) : Bool :=
  match d.regionAt a with
  | some .stream => true
  | some .learned =>
    if a < learnBase .b then d.learnWritable .a ((a - learnBase .a) / 4)
    else d.learnWritable .b ((a - learnBase .b) / 4)
  | _ => false

/-- The last address that a finished set wrote: its word, or a byte of its beat (R311). -/
def lastAddr (s : Side) (a : Nat) : Nat :=
  match s.mode with
  | 1 => a
  | 2 => a / s.ring * s.ring + (a % s.ring + s.ring - 1) % s.ring
  | _ => a - 1

end Dev

/-- The device of a state changed. -/
def State.mapDev (s : State) (g : Dev → Dev) : State := { s with dev := g s.dev }

/-- The reading access of a burst: a word of a register, or what the burst takes of a beat of RAM (R307, R309). -/
def muleReadStep (c : Fin 16) (s : State) : State :=
  let d := s.dev
  let x := d.muleC c.val
  let ctl := d.rd (Reg.MULE_ACTL c.val)
  let a := Dev.sideAt (Dev.srcSide ctl) (d.rd (Reg.MULE_ASADDR c.val)).toNat x.buf.length
  if d.isReg a then
    let s1 := busRead (.mule c) a s
    if s1.dev.answer.err then s1.mapDev fun d => d.muleError c.val 1
    else s1.mapDev fun d => d.burstTake c.val (wordBytes d.answer.data)
  else
    let n := min (8 - a % 8) (x.size - x.buf.length)
    s.mapDev fun d => d.burstTake c.val (Dev.seenBytes (s.dev, s.ram) a n)

/-- The writing access of a burst. -/
def muleWriteStep (c : Fin 16) (s : State) : State :=
  let d := s.dev
  let x := d.muleC c.val
  let ctl := d.rd (Reg.MULE_ACTL c.val)
  let a := Dev.sideAt (Dev.dstSide ctl) (d.rd (Reg.MULE_ADADDR c.val)).toNat x.done
  if d.isReg a then
    let s1 := busWrite (.mule c) a (wordAt x.buf x.done) s
    if s1.dev.answer.err then s1.mapDev fun d => d.muleError c.val 2
    else s1.mapDev fun d => d.burstPut c.val 4
  else
    let n := min (8 - a % 8) (x.size - x.done)
    if d.beatMay a then
      { s with dev := d.burstPut c.val n, ram := Memory.setBytes s.ram a ((x.buf.drop x.done).take n) }
    else s.mapDev fun d => d.muleError c.val 2

/-- One access of a channel, if it is its turn (R308). -/
def muleAccess (c : Fin 16) (s : State) : State :=
  if s.dev.muleTurn c.val then
    let s1 := s.mapDev fun d => d.burstStart c.val
    let x := s1.dev.muleC c.val
    if x.buf.length < x.size then muleReadStep c s1 else muleWriteStep c s1
  else s

/-- A number of accesses of a channel. -/
def muleAccesses (c : Fin 16) : Nat → State → State
  | 0, s => s
  | n + 1, s => muleAccesses c n (muleAccess c s)

/-- The read-back of a finished set (R311): its side effects, then the completion, or BAD (corners DEDUCED, log 52). -/
def muleReadback (c : Fin 16) (s : State) : State :=
  let d := s.dev
  if (d.muleC c.val).readback && decide (d.mode = .operate ∨ d.mode = .service) then
    let a := Dev.lastAddr (Dev.dstSide (d.rd (Reg.MULE_ACTL c.val))) (d.rd (Reg.MULE_ADADDR c.val)).toNat
    if d.isReg a then
      let s1 := busRead (.mule c) (a / 4 * 4) s
      if s1.dev.answer.err then s1.mapDev fun d => d.muleError c.val 3 else s1.mapDev fun d => d.muleDone c.val
    else s.mapDev fun d => d.muleDone c.val
  else s

/-! ### The commands -/

/-- MULE_BURST (R307 to R310, R313, R314): the next accesses of a channel. -/
def execMuleBurst (t : Tick) (c : Fin 16) (accesses : Nat) (s : State) : Out :=
  .next (muleAccesses c accesses { s with dev := s.dev.advance t })

/-- MULE_READBACK_END (R311, R313). -/
def execMuleReadbackEnd (t : Tick) (c : Fin 16) (s : State) : Out :=
  .next (muleReadback c { s with dev := s.dev.advance t })

end Sys2Proof.Machine
end

