-- ==== Sys2Proof/Machine/Spi.lean ====
section
/-! DEFINITION. The SPI host port (R349 to R351). -/

namespace Sys2Proof.Machine

open Sys2Proof

namespace Dev

/-- The port takes frames: from the end of step 3 on, while enabled (R349). -/
def spiOn (d : Dev) : Bool := d.busRun && d.bit Reg.SPH_CFG F.SPH_CFG_EN

/-- A message waits for the SPI port (R350, R351). -/
def spiMsg (d : Dev) (q : IrqMsg) : Bool :=
  decide (2 ≤ q.tgt) && (d.rd Reg.LNK_CFG).getLsbD (16 + (q.tgt - 2))

/-- A frame of correct length begins: it is counted, and the response to the last one is shifted out (corners DEDUCED, log
54). -/
def spiFrame (d : Dev) : Dev :=
  (d.incF Reg.SPH_STAT F.SPH_STAT_FCNT).onLink fun l => { l with spiOut := l.spiResp }

/-- The response to the frame just executed (corners DEDUCED, log 54). -/
def spiAnswer (d : Dev) (cmd : BitVec 4) (status : Nat) (data : Word) : Dev :=
  d.onLink fun l => { l with
    spiResp := ⟨cmd, status, d.f Reg.SPH_STAT F.SPH_STAT_FCNT, d.faultLow, d.hostLost, d.irq.queue.any d.spiMsg, data⟩ }

/-- A frame not executed, counted, with its flag. -/
def spiErr (d : Dev) (x : Fld) : Dev := (d.incF Reg.SPH_STAT F.SPH_STAT_ERRCNT).flag Reg.SPH_FLAG x 0xCD

/-- The frames that are not executed (R349, R350) (corners DEDUCED, log 54). -/
def spiReject (d : Dev) (why : SpiReject) : Dev :=
  if !d.spiOn then d
  else match why with
    | .length => d.spiErr F.SPH_FLAG_FRAME
    | .crc c => ((d.spiFrame).spiErr F.SPH_FLAG_CRC_ERR).spiAnswer c 2 0
    | .command c => ((d.spiFrame).spiErr F.SPH_FLAG_FMT_ERR).spiAnswer c 3 0
    | .early =>
      ((d.spiFrame).spiErr F.SPH_FLAG_EARLY).onLink fun l => { l with
        spiOut := { l.spiResp with status := 15, data := 0 } }

/-- The oldest queued message for the port, and among those of one age the one of the lower target (R350) (corners DEDUCED,
log 54). -/
def spiTake (d : Dev) : Word × Dev :=
  match d.takeMsg d.spiMsg with
  | some (q, d1) => (BitVec.ofNat 32 (q.seq % 0x10000 * 2 ^ 16 + (q.tgt - 2) % 4 * 2 ^ 10 + q.prio % 4 * 2 ^ 8 + q.src % 256), d1)
  | none => (0xFFFFFFFF, d)

end Dev

/-- A frame whose access is made by the port. -/
def spiRun (s : State) (g : State → State) : State := if s.dev.spiOn then g { s with dev := s.dev.spiFrame } else s

/-! ### The commands -/

/-- SPI_NOP (R350). -/
def execSpiNop (t : Tick) (s : State) : Out :=
  s.onDev t fun d => if d.spiOn then d.spiFrame.spiAnswer 0 0 0 else d

/-- SPI_RD (R350). -/
def execSpiRd (t : Tick) (w : BitVec 20) (s : State) : Out :=
  .next (spiRun { s with dev := s.dev.advance t } fun s =>
    let r := busRead .spi (4 * w.toNat) s
    { r with dev := r.dev.spiAnswer 1 (bnat r.dev.answer.err) r.dev.answer.data })

/-- SPI_WR (R350). -/
def execSpiWr (t : Tick) (w : BitVec 20) (v : Word) (s : State) : Out :=
  .next (spiRun { s with dev := s.dev.advance t } fun s =>
    let r := busWrite .spi (4 * w.toNat) v s
    { r with dev := r.dev.spiAnswer 2 (bnat r.dev.answer.err) 0 })

/-- SPI_HB (R345, R350). -/
def execSpiHb (t : Tick) (v : Word) (s : State) : Out :=
  s.onDev t fun d => if d.spiOn then (d.spiFrame.heartbeat true v d.now).spiAnswer 3 0 0 else d

/-- SPI_MSGRD (R350). -/
def execSpiMsgrd (t : Tick) (s : State) : Out :=
  s.onDev t fun d =>
    if d.spiOn then
      let r := d.spiFrame.spiTake
      r.2.spiAnswer 4 0 r.1
    else d

/-- SPI_FRAME_REJECT (R349, R350). -/
def execSpiFrameReject (t : Tick) (why : SpiReject) (s : State) : Out := s.onDev t fun d => d.spiReject why

end Sys2Proof.Machine
end

