-- ==== Sys2Proof/Machine/Dispatch.lean ====
section
/-! DEFINITION. The command each constructor runs: one arm per row of the opcode table. -/

namespace Sys2Proof.Machine

open Sys2Proof

def exec (i : Instr) (s : State) : Host.Outcome State Fault Refusal :=
  match i with
  | .supplyValid t env => Sys2Proof.Machine.execSupplyValid t env s
  | .powerOnReset t => Sys2Proof.Machine.execPowerOnReset t s
  | .brownReset t => Sys2Proof.Machine.execBrownReset t s
  | .pinReset t => Sys2Proof.Machine.execPinReset t s
  | .resetNRelease t => Sys2Proof.Machine.execResetNRelease t s
  | .softwareReset t m v => Sys2Proof.Machine.execSoftwareReset t m v s
  | .tapReset t => Sys2Proof.Machine.execTapReset t s
  | .vddcEarlyWarning t okA okB => Sys2Proof.Machine.execVddcEarlyWarning t okA okB s
  | .standbyEntry t wakeIn => Sys2Proof.Machine.execStandbyEntry t wakeIn s
  | .vbatLost t => Sys2Proof.Machine.execVbatLost t s
  | .wakeInAsserted t => Sys2Proof.Machine.execWakeInAsserted t s
  | .standbyCrankEdge t h e => Sys2Proof.Machine.execStandbyCrankEdge t h e s
  | .settleExpiry t h => Sys2Proof.Machine.execSettleExpiry t h s
  | .wakeSupplyTimeout t => Sys2Proof.Machine.execWakeSupplyTimeout t s
  | .jtagDebugRequest t => Sys2Proof.Machine.execJtagDebugRequest t s
  | .jtagDebugResume t => Sys2Proof.Machine.execJtagDebugResume t s
  | .serviceKeyWrite t m v => Sys2Proof.Machine.execServiceKeyWrite t m v s
  | .keyDataWrite t m k v => Sys2Proof.Machine.execKeyDataWrite t m k v s
  | .keySlotProgram t m v => Sys2Proof.Machine.execKeySlotProgram t m v s
  | .keyProgramDone t => Sys2Proof.Machine.execKeyProgramDone t s
  | .trimBufferWrite t m k v => Sys2Proof.Machine.execTrimBufferWrite t m k v s
  | .trimRewrite t m v => Sys2Proof.Machine.execTrimRewrite t m v s
  | .trimRewriteDone t readBackOk => Sys2Proof.Machine.execTrimRewriteDone t readBackOk s
  | .ctxOpen t m => Sys2Proof.Machine.execCtxOpen t m s
  | .ctxCommit t m count when => Sys2Proof.Machine.execCtxCommit t m count when s
  | .ctxAbort t m => Sys2Proof.Machine.execCtxAbort t m s
  | .ctxBufWrite t m k v => Sys2Proof.Machine.execCtxBufWrite t m k v s
  | .ctxChecksEnd t => Sys2Proof.Machine.execCtxChecksEnd t s
  | .ctxSwitch t => Sys2Proof.Machine.execCtxSwitch t s
  | .crankTimedEdge t h peak holds => Sys2Proof.Machine.execCrankTimedEdge t h peak holds s
  | .crankPulseEnd t h => Sys2Proof.Machine.execCrankPulseEnd t h s
  | .crankEdgeHandover t h => Sys2Proof.Machine.execCrankEdgeHandover t h s
  | .crkdEdge t h e => Sys2Proof.Machine.execCrkdEdge t h e s
  | .camTimedEdge t h c peak e => Sys2Proof.Machine.execCamTimedEdge t h c peak e s
  | .camEdgeHandover t h c => Sys2Proof.Machine.execCamEdgeHandover t h c s
  | .thresholdFloorTimeout t h => Sys2Proof.Machine.execThresholdFloorTimeout t h s
  | .snsCountClear t m h v => Sys2Proof.Machine.execSnsCountClear t m h v s
  | .captureRead t m h n => Sys2Proof.Machine.execCaptureRead t m h n s
  | .camMissingEdge t h c => Sys2Proof.Machine.execCamMissingEdge t h c s
  | .stallTimeout t h => Sys2Proof.Machine.execStallTimeout t h s
  | .rundownSpeedTimeout t h => Sys2Proof.Machine.execRundownSpeedTimeout t h s
  | .resyncPermit t m h v => Sys2Proof.Machine.execResyncPermit t m h v s
  | .resync t h => Sys2Proof.Machine.execResync t h s
  | .whlCountClear t m h v => Sys2Proof.Machine.execWhlCountClear t m h v s
  | .toothPassEnd t h => Sys2Proof.Machine.execToothPassEnd t h s
  | .prePassEnd t h => Sys2Proof.Machine.execPrePassEnd t h s
  | .channelEvaluationDone t h c => Sys2Proof.Machine.execChannelEvaluationDone t h c s
  | .clampReached t h => Sys2Proof.Machine.execClampReached t h s
  | .catchupTimeout t h => Sys2Proof.Machine.execCatchupTimeout t h s
  | .catchupEnd t h => Sys2Proof.Machine.execCatchupEnd t h s
  | .learnedTableAdjust t h => Sys2Proof.Machine.execLearnedTableAdjust t h s
  | .rippleDerivation t h => Sys2Proof.Machine.execRippleDerivation t h s
  | .weClear t m h v => Sys2Proof.Machine.execWeClear t m h v s
  | .ripClear t m h v => Sys2Proof.Machine.execRipClear t m h v s
  | .learnedTableWrite t m h j v => Sys2Proof.Machine.execLearnedTableWrite t m h j v s
  | .angleRead t m h => Sys2Proof.Machine.execAngleRead t m h s
  | .ascFire t h n => Sys2Proof.Machine.execAscFire t h n s
  | .ascDeferredFire t h n => Sys2Proof.Machine.execAscDeferredFire t h n s
  | .ascEnable t m h n v => Sys2Proof.Machine.execAscEnable t m h n v s
  | .crkoFall t h o => Sys2Proof.Machine.execCrkoFall t h o s
  | .crkoFillEdge t h => Sys2Proof.Machine.execCrkoFillEdge t h s
  | .crkoDelayedRise t h o => Sys2Proof.Machine.execCrkoDelayedRise t h o s
  | .slotTake t h c => Sys2Proof.Machine.execSlotTake t h c s
  | .startLaunch t h c => Sys2Proof.Machine.execStartLaunch t h c s
  | .endLaunch t h c => Sys2Proof.Machine.execEndLaunch t h c s
  | .internalActionIssue t h c => Sys2Proof.Machine.execInternalActionIssue t h c s
  | .anchorReached t h c => Sys2Proof.Machine.execAnchorReached t h c s
  | .heldTimeout t h c => Sys2Proof.Machine.execHeldTimeout t h c s
  | .channelArm t m h g v => Sys2Proof.Machine.execChannelArm t m h g v s
  | .channelDisarm t m h g v => Sys2Proof.Machine.execChannelDisarm t m h g v s
  | .evcStatusClear t m h v => Sys2Proof.Machine.execEvcStatusClear t m h v s
  | .outputEdgeAtVoter t h c => Sys2Proof.Machine.execOutputEdgeAtVoter t h c s
  | .permitOpen t h c => Sys2Proof.Machine.execPermitOpen t h c s
  | .permitClose t h c => Sys2Proof.Machine.execPermitClose t h c s
  | .durationLimit t h c => Sys2Proof.Machine.execDurationLimit t h c s
  | .permitLaneSilent t h => Sys2Proof.Machine.execPermitLaneSilent t h s
  | .dmdCommit t m h groups xgroups when => Sys2Proof.Machine.execDmdCommit t m h groups xgroups when s
  | .dmdAbort t m h => Sys2Proof.Machine.execDmdAbort t m h s
  | .stagedSlotWrite t m h n w v => Sys2Proof.Machine.execStagedSlotWrite t m h n w v s
  | .dmdChecksEnd t h => Sys2Proof.Machine.execDmdChecksEnd t h s
  | .crossHalfTimeFix t h => Sys2Proof.Machine.execCrossHalfTimeFix t h s
  | .dmdSwitch t h => Sys2Proof.Machine.execDmdSwitch t h s
  | .boostPhaseEnd t h b atLevel => Sys2Proof.Machine.execBoostPhaseEnd t h b atLevel s
  | .fastDecayTimeEnd t h b => Sys2Proof.Machine.execFastDecayTimeEnd t h b s
  | .transitionEnd t h b => Sys2Proof.Machine.execTransitionEnd t h b s
  | .peakTimeEnd t h b => Sys2Proof.Machine.execPeakTimeEnd t h b s
  | .holdTimeout t h b => Sys2Proof.Machine.execHoldTimeout t h b s
  | .chopThreshold t h b upper => Sys2Proof.Machine.execChopThreshold t h b upper s
  | .openLoadCheck t h b code => Sys2Proof.Machine.execOpenLoadCheck t h b code s
  | .monitorBlankEnd t h b f => Sys2Proof.Machine.execMonitorBlankEnd t h b f s
  | .bankProtectionTrip t h b cause => Sys2Proof.Machine.execBankProtectionTrip t h b cause s
  | .bootstrapRefresh t h b f => Sys2Proof.Machine.execBootstrapRefresh t h b f s
  | .openingKnee t h x => Sys2Proof.Machine.execOpeningKnee t h x s
  | .closingArm t h b => Sys2Proof.Machine.execClosingArm t h b s
  | .closingKnee t h x => Sys2Proof.Machine.execClosingKnee t h x s
  | .closingSearchTimeout t h b => Sys2Proof.Machine.execClosingSearchTimeout t h b s
  | .resultRecordWrite t h b => Sys2Proof.Machine.execResultRecordWrite t h b s
  | .deferredLaunch t h c => Sys2Proof.Machine.execDeferredLaunch t h c s
  | .deferralTimeout t h c => Sys2Proof.Machine.execDeferralTimeout t h c s
  | .bankClear t m h v => Sys2Proof.Machine.execBankClear t m h v s
  | .hydClear t m h v => Sys2Proof.Machine.execHydClear t m h v s
  | .boostPeriodStart t h milliVolts => Sys2Proof.Machine.execBoostPeriodStart t h milliVolts s
  | .boostGateOff t h => Sys2Proof.Machine.execBoostGateOff t h s
  | .vbstMeasure t h milliVolts => Sys2Proof.Machine.execVbstMeasure t h milliVolts s
  | .vbstOvervoltage t h => Sys2Proof.Machine.execVbstOvervoltage t h s
  | .vbstOvRelease t h => Sys2Proof.Machine.execVbstOvRelease t h s
  | .vbstUndervoltage t h => Sys2Proof.Machine.execVbstUndervoltage t h s
  | .dwellTimeout t h k => Sys2Proof.Machine.execDwellTimeout t h k s
  | .restrikeStep t h k => Sys2Proof.Machine.execRestrikeStep t h k s
  | .softOffEnd t h k => Sys2Proof.Machine.execSoftOffEnd t h k s
  | .timeBaseRead t m => Sys2Proof.Machine.execTimeBaseRead t m s
  | .timerArmWrite t m k v => Sys2Proof.Machine.execTimerArmWrite t m k v s
  | .timerArmRequest t n src tick => Sys2Proof.Machine.execTimerArmRequest t n src tick s
  | .timerDisarm t m k v => Sys2Proof.Machine.execTimerDisarm t m k v s
  | .timerFire t n => Sys2Proof.Machine.execTimerFire t n s
  | .pwmReload t c => Sys2Proof.Machine.execPwmReload t c s
  | .pwmEdge t c rise => Sys2Proof.Machine.execPwmEdge t c rise s
  | .pwmPerWrite t m c v => Sys2Proof.Machine.execPwmPerWrite t m c v s
  | .pwmRiseWrite t m c v => Sys2Proof.Machine.execPwmRiseWrite t m c v s
  | .pwmFallWrite t m c v => Sys2Proof.Machine.execPwmFallWrite t m c v s
  | .pwmEnable t m c v => Sys2Proof.Machine.execPwmEnable t m c v s
  | .pwmSyncRestart t m v => Sys2Proof.Machine.execPwmSyncRestart t m v s
  | .tripQualified t j => Sys2Proof.Machine.execTripQualified t j s
  | .tripReleased t j => Sys2Proof.Machine.execTripReleased t j s
  | .tripClear t m v => Sys2Proof.Machine.execTripClear t m v s
  | .delayLineRecalibration t taps => Sys2Proof.Machine.execDelayLineRecalibration t taps s
  | .conversionEnd t h k code => Sys2Proof.Machine.execConversionEnd t h k code s
  | .urgentRequest t h e tick => Sys2Proof.Machine.execUrgentRequest t h e tick s
  | .urgentSampleStart t h k => Sys2Proof.Machine.execUrgentSampleStart t h k s
  | .urgentConversionEnd t h k code => Sys2Proof.Machine.execUrgentConversionEnd t h k code s
  | .accSample t h a => Sys2Proof.Machine.execAccSample t h a s
  | .windowOpen t h a tick => Sys2Proof.Machine.execWindowOpen t h a tick s
  | .windowClose t h a tick => Sys2Proof.Machine.execWindowClose t h a tick s
  | .accRecordWrite t h a => Sys2Proof.Machine.execAccRecordWrite t h a s
  | .accRecordRead t m h a => Sys2Proof.Machine.execAccRecordRead t m h a s
  | .accSumRead t m h a => Sys2Proof.Machine.execAccSumRead t m h a s
  | .sentEdge t e => Sys2Proof.Machine.execSentEdge t e s
  | .sentIntervalTimeout t r => Sys2Proof.Machine.execSentIntervalTimeout t r s
  | .sentDataRead t m r => Sys2Proof.Machine.execSentDataRead t m r s
  | .sentSerialRead t m r => Sys2Proof.Machine.execSentSerialRead t m r s
  | .coltStart t m e => Sys2Proof.Machine.execColtStart t m e s
  | .coltStop t m e => Sys2Proof.Machine.execColtStop t m e s
  | .coltFlush t m e => Sys2Proof.Machine.execColtFlush t m e s
  | .coltEngineCycle t e pins => Sys2Proof.Machine.execColtEngineCycle t e pins s
  | .coltPaceEdge t e pins => Sys2Proof.Machine.execColtPaceEdge t e pins s
  | .coltTrigger t e => Sys2Proof.Machine.execColtTrigger t e s
  | .coltInject t m e v => Sys2Proof.Machine.execColtInject t m e v s
  | .coltTableCommit t m e j v => Sys2Proof.Machine.execColtTableCommit t m e j v s
  | .coltTableStage t m e j v => Sys2Proof.Machine.execColtTableStage t m e j v s
  | .coltTxPush t m e v => Sys2Proof.Machine.execColtTxPush t m e v s
  | .coltRxPop t m e => Sys2Proof.Machine.execColtRxPop t m e s
  | .coltFlagSet t m v => Sys2Proof.Machine.execColtFlagSet t m v s
  | .coltFlagClear t m v => Sys2Proof.Machine.execColtFlagClear t m v s
  | .muleCommit t m c => Sys2Proof.Machine.execMuleCommit t m c s
  | .muleStop t m c => Sys2Proof.Machine.execMuleStop t m c s
  | .muleWithdraw t m c => Sys2Proof.Machine.execMuleWithdraw t m c s
  | .muleEnableWrite t m c v => Sys2Proof.Machine.execMuleEnableWrite t m c v s
  | .muleShadowWrite t m c w v => Sys2Proof.Machine.execMuleShadowWrite t m c w v s
  | .muleRequest t src line => Sys2Proof.Machine.execMuleRequest t src line s
  | .muleSoftwareRequest t m v => Sys2Proof.Machine.execMuleSoftwareRequest t m v s
  | .muleBurst t c accesses => Sys2Proof.Machine.execMuleBurst t c accesses s
  | .muleReadbackEnd t c => Sys2Proof.Machine.execMuleReadbackEnd t c s
  | .irqSourceRaise t n => Sys2Proof.Machine.execIrqSourceRaise t n s
  | .irqPendSet t m k v => Sys2Proof.Machine.execIrqPendSet t m k v s
  | .irqPendClear t m k v => Sys2Proof.Machine.execIrqPendClear t m k v s
  | .irqEnableSet t m k v => Sys2Proof.Machine.execIrqEnableSet t m k v s
  | .irqEnableClear t m k v => Sys2Proof.Machine.execIrqEnableClear t m k v s
  | .irqClaim t m g => Sys2Proof.Machine.execIrqClaim t m g s
  | .irqComplete t m g v => Sys2Proof.Machine.execIrqComplete t m g v s
  | .linkBitLock t => Sys2Proof.Machine.execLinkBitLock t s
  | .linkCharacter t c => Sys2Proof.Machine.execLinkCharacter t c s
  | .commaTimeout t => Sys2Proof.Machine.execCommaTimeout t s
  | .downHoldEnd t => Sys2Proof.Machine.execDownHoldEnd t s
  | .frameReceived t f => Sys2Proof.Machine.execFrameReceived t f s
  | .frameLengthTimeout t => Sys2Proof.Machine.execFrameLengthTimeout t s
  | .answerReceived t nak seq code crc => Sys2Proof.Machine.execAnswerReceived t nak seq code crc s
  | .ackTimeout t => Sys2Proof.Machine.execAckTimeout t s
  | .nakFullResend t => Sys2Proof.Machine.execNakFullResend t s
  | .frameTransmit t => Sys2Proof.Machine.execFrameTransmit t s
  | .regRd t => Sys2Proof.Machine.execRegRd t s
  | .regWr t => Sys2Proof.Machine.execRegWr t s
  | .dmdStage t => Sys2Proof.Machine.execDmdStage t s
  | .dmdCommitMessage t => Sys2Proof.Machine.execDmdCommitMessage t s
  | .ctxStage t => Sys2Proof.Machine.execCtxStage t s
  | .ctxCommitMessage t => Sys2Proof.Machine.execCtxCommitMessage t s
  | .heartbeat t => Sys2Proof.Machine.execHeartbeat t s
  | .nvmPass t => Sys2Proof.Machine.execNvmPass t s
  | .statusPeriod t => Sys2Proof.Machine.execStatusPeriod t s
  | .streamBytesAdded t b n => Sys2Proof.Machine.execStreamBytesAdded t b n s
  | .streamFlushTimeout t b => Sys2Proof.Machine.execStreamFlushTimeout t b s
  | .heartbeatLate t => Sys2Proof.Machine.execHeartbeatLate t s
  | .hostLossGraceEnd t h => Sys2Proof.Machine.execHostLossGraceEnd t h s
  | .spiNop t => Sys2Proof.Machine.execSpiNop t s
  | .spiRd t w => Sys2Proof.Machine.execSpiRd t w s
  | .spiWr t w v => Sys2Proof.Machine.execSpiWr t w v s
  | .spiHb t v => Sys2Proof.Machine.execSpiHb t v s
  | .spiMsgrd t => Sys2Proof.Machine.execSpiMsgrd t s
  | .spiFrameReject t why => Sys2Proof.Machine.execSpiFrameReject t why s
  | .flashCommand t m v => Sys2Proof.Machine.execFlashCommand t m v s
  | .flashCommandDone t bytes => Sys2Proof.Machine.execFlashCommandDone t bytes s
  | .faultReaction t cls sc => Sys2Proof.Machine.execFaultReaction t cls sc s
  | .eccReadError t addr double => Sys2Proof.Machine.execEccReadError t addr double s
  | .scrubPass t differs => Sys2Proof.Machine.execScrubPass t differs s
  | .parityError t sc => Sys2Proof.Machine.execParityError t sc s
  | .clockMonitorWindow t w tree => Sys2Proof.Machine.execClockMonitorWindow t w tree s
  | .pllMStop t => Sys2Proof.Machine.execPllMStop t s
  | .supplyWindowFault t out => Sys2Proof.Machine.execSupplyWindowFault t out s
  | .temperatureSample t logic power => Sys2Proof.Machine.execTemperatureSample t logic power s
  | .ganderEdge t h e => Sys2Proof.Machine.execGanderEdge t h e s
  | .ganderLagTimeout t h => Sys2Proof.Machine.execGanderLagTimeout t h s
  | .sentinelTimeout t => Sys2Proof.Machine.execSentinelTimeout t s
  | .returnHeartbeatTimeout t => Sys2Proof.Machine.execReturnHeartbeatTimeout t s
  | .laneWordError t => Sys2Proof.Machine.execLaneWordError t s
  | .laneHandshakeTimeout t => Sys2Proof.Machine.execLaneHandshakeTimeout t s
  | .safeReqQualified t => Sys2Proof.Machine.execSafeReqQualified t s
  | .safeReqRelease t => Sys2Proof.Machine.execSafeReqRelease t s
  | .safRecoverWrite t m v => Sys2Proof.Machine.execSafRecoverWrite t m v s
  | .deviceSafeEnd t => Sys2Proof.Machine.execDeviceSafeEnd t s
  | .safTest t m v => Sys2Proof.Machine.execSafTest t m v s
  | .safTestDone t pass => Sys2Proof.Machine.execSafTestDone t pass s
  | .crossLinkLoss t h => Sys2Proof.Machine.execCrossLinkLoss t h s
  | .crossLinkReturn t h => Sys2Proof.Machine.execCrossLinkReturn t h s
  | .registerWrite t m addr v => Sys2Proof.Machine.execRegisterWrite t m addr v s
  | .fastDecayEnd t h b => Sys2Proof.Machine.execFastDecayEnd t h b s

end Sys2Proof.Machine
end

