-- ==== Sys2Proof/Safety.lean ====
section
/-! DEFINITION. The terms in which claims speak of a run: a command that completes, what it leaves
unchanged, and the invariant of the memory. -/

namespace Sys2Proof.Machine

open Sys2Proof

/-- The device at a command's tick, before the command's own effect (log 1). -/
abbrev State.devAt (s : State) (t : Tick) : Dev := s.dev.advance t

/-- The command answers a next state in which only the device differs: RAM and the queue are as before,
and the device satisfies `Q`. -/
def Does (c : Instr) (s : State) (Q : Dev → Prop) : Prop :=
  ∃ d' : Dev, exec c s = .next { s with dev := d' } ∧ Q d'

/-- The command answers a next state in which the device and RAM may differ, the queue is as before, and
`Q` holds of the two. -/
def DoesMem (c : Instr) (s : State) (Q : Dev → List Host.Cell → Prop) : Prop :=
  ∃ (d' : Dev) (m' : List Host.Cell), exec c s = .next { s with dev := d', ram := m' } ∧ Q d' m'

/-- Every register but those listed reads as before. -/
def RegsKept (d d' : Dev) (as : List Nat) : Prop := ∀ a : Nat, a ∉ as → d'.rd a = d.rd a

/-- Every bit of a word outside the listed fields is as before. -/
def BitsKept (v v' : Word) (fs : List Fld) : Prop :=
  ∀ i : Nat, i < 32 → (∀ f ∈ fs, i < f.lo ∨ f.hi < i) → v'.getLsbD i = v.getLsbD i

/-- What no register holds is as before, the record of the present cycle's start apart (log 13); a claim about a command
that changes a hidden field puts that field's old value back first. -/
def HiddenKept (d d' : Dev) : Prop := { d' with regs := d.regs, snap := d.snap } = d

/-- The memory invariant: RAM keeps its canonical form (log 5). -/
def State.ramOk (s : State) : Prop := Memory.wf s.ram = true

/-- The bus access that a command is, where it is a read or a write of one named address (R7): its tick, the
address, whether it writes. The key registers of the image answer outside SERVICE with KEY_DENIED (R68) and are
not listed. -/
def busAccess : Instr → Option (Tick × Nat × Bool)
  | .softwareReset t _ _ => some (t, Reg.SYS_SWRST, true)
  | .serviceKeyWrite t _ _ => some (t, Reg.SYS_SVCKEY, true)
  | .trimBufferWrite t _ k _ => some (t, Reg.TRIM_BUF k.val, true)
  | .trimRewrite t _ _ => some (t, Reg.TRIM_CMD, true)
  | .ctxOpen t _ => some (t, Reg.CTX_CTL, true)
  | .ctxCommit t _ _ _ => some (t, Reg.CTX_CTL, true)
  | .ctxAbort t _ => some (t, Reg.CTX_CTL, true)
  | .ctxBufWrite t _ k _ => some (t, Reg.CTX_BUF k.val, true)
  | .snsCountClear t _ h _ => some (t, Reg.SNS_CNTCLR h, true)
  | .captureRead t _ h n => some (t, Reg.SNS_CAP_TIME h n.val, false)
  | .resyncPermit t _ h _ => some (t, Reg.WHL_RESYNC h, true)
  | .whlCountClear t _ h _ => some (t, Reg.WHL_CNTCLR h, true)
  | .weClear t _ h _ => some (t, Reg.ANG_LEARNCTL h, true)
  | .ripClear t _ h _ => some (t, Reg.ANG_LEARNCTL h, true)
  | .learnedTableWrite t _ h j _ => some (t, learnBase h + 4 * j.val, true)
  | .angleRead t _ h => some (t, Reg.ANG_ANGLE h, false)
  | .ascEnable t _ h n _ => some (t, Reg.ASC_CTRL h n.val, true)
  | .channelArm t _ h g _ => some (t, Reg.EVC_ARM h g.val, true)
  | .channelDisarm t _ h g _ => some (t, Reg.EVC_DISARM h g.val, true)
  | .evcStatusClear t _ h _ => some (t, Reg.EVC_STCLR h, true)
  | .dmdCommit t _ h _ _ _ => some (t, Reg.DMD_CMT h, true)
  | .dmdAbort t _ h => some (t, Reg.DMD_CMT h, true)
  | .stagedSlotWrite t _ h n w _ => some (t, Reg.DMD_ANGLE h n.val + 4 * w.val, true)
  | .bankClear t _ h _ => some (t, Reg.DRV_BANKCLR h, true)
  | .hydClear t _ h _ => some (t, Reg.DRV_HYDCLR h, true)
  | .timeBaseRead t _ => some (t, Reg.TMB_LO, false)
  | .timerArmWrite t _ k _ => some (t, Reg.TMR_ARM k.val, true)
  | .timerDisarm t _ k _ => some (t, Reg.TMR_DISARM k.val, true)
  | .pwmPerWrite t _ c _ => some (t, Reg.PWM_PER c.val, true)
  | .pwmRiseWrite t _ c _ => some (t, Reg.PWM_RISE c.val, true)
  | .pwmFallWrite t _ c _ => some (t, Reg.PWM_FALL c.val, true)
  | .pwmEnable t _ c _ => some (t, Reg.PWM_CFG c.val, true)
  | .pwmSyncRestart t (some _) _ => some (t, Reg.PWM_SYNC, true)
  | .tripClear t _ _ => some (t, Reg.PWM_TRIPCLR, true)
  | .accRecordRead t _ h a => some (t, Reg.ACC_RSUMLO h a.val, false)
  | .accSumRead t _ h a => some (t, Reg.ACC_SUMLO h a.val, false)
  | .sentDataRead t _ r => some (t, Reg.SNT_DATA r.val, false)
  | .sentSerialRead t _ r => some (t, Reg.SNT_SER r.val, false)
  | .coltStart t _ e => some (t, Reg.COLT_CTRL e.val, true)
  | .coltStop t _ e => some (t, Reg.COLT_CTRL e.val, true)
  | .coltFlush t _ e => some (t, Reg.COLT_CTRL e.val, true)
  | .coltInject t _ e _ => some (t, Reg.COLT_INJHI e.val, true)
  | .coltTableCommit t _ e i _ => some (t, Reg.COLT_TAB_HI e.val i.val, true)
  | .coltTableStage t _ e i _ => some (t, Reg.COLT_TAB_LO e.val i.val, true)
  | .coltTxPush t _ e _ => some (t, Reg.COLT_TXFIFO e.val, true)
  | .coltRxPop t _ e => some (t, Reg.COLT_RXFIFO e.val, false)
  | .coltFlagSet t _ _ => some (t, Reg.COLT_GFLAG_SET, true)
  | .coltFlagClear t _ _ => some (t, Reg.COLT_GFLAG_CLR, true)
  | .muleCommit t _ c => some (t, Reg.MULE_CMD c.val, true)
  | .muleStop t _ c => some (t, Reg.MULE_CMD c.val, true)
  | .muleWithdraw t _ c => some (t, Reg.MULE_CMD c.val, true)
  | .muleEnableWrite t _ c _ => some (t, Reg.MULE_CFG c.val, true)
  | .muleShadowWrite t _ c w _ => some (t, Reg.MULE_SSADDR c.val + 4 * w.val, true)
  | .muleSoftwareRequest t _ _ => some (t, Reg.MULE_SWREQ, true)
  | .irqPendSet t _ k _ => some (t, Reg.IRQ_PEND_SET k.val, true)
  | .irqPendClear t _ k _ => some (t, Reg.IRQ_PEND_CLR k.val, true)
  | .irqEnableSet t _ k _ => some (t, Reg.IRQ_EN_SET k.val, true)
  | .irqEnableClear t _ k _ => some (t, Reg.IRQ_EN_CLR k.val, true)
  | .irqClaim t _ g => some (t, Reg.IRQ_CLAIM g.val, false)
  | .irqComplete t _ g _ => some (t, Reg.IRQ_COMPLETE g.val, true)
  | .flashCommand t _ _ => some (t, Reg.NVL_PCTL, true)
  | .safRecoverWrite t _ _ => some (t, Reg.SAF_RECOVER, true)
  | .safTest t _ _ => some (t, Reg.SAF_TEST, true)
  | _ => none

/-- The commands that may write RAM: the load, the switch of a transaction, the tooth log's edges and markers, the learned tables, and the
accesses of the bus masters. -/
def touchesRam : Instr → Bool
  | .supplyValid .. | .resetNRelease .. | .ctxChecksEnd .. | .ctxSwitch .. => true
  | .toothPassEnd .. | .crankEdgeHandover .. | .camEdgeHandover .. | .camMissingEdge .. | .stallTimeout .. => true
  | .rundownSpeedTimeout .. | .resync .. | .learnedTableAdjust .. | .weClear .. | .ripClear .. => true
  | .learnedTableWrite .. | .rippleDerivation .. => true
  | .regWr .. | .spiWr .. | .muleBurst .. | .registerWrite .. => true
  | _ => false

end Sys2Proof.Machine
end

