-- ==== Sys2Proof/Certificates/Slice0/Obligations.lean ====
section
/-! DEFINITION. The statements for the provers: what each command does to the block, with its frame, family by
family. `Does` and `DoesMem` say that a command answers a next state, and what holds of it. -/

open Sys2Proof Sys2Proof.Machine

/-! ### The block as a whole -/

namespace Sys2Proof.Claims

/-- A step with a command at the front of the queue is that command on the state with the queue's rest. -/
def StepRunsFrontCommandRule : Prop :=
  ∀ (s : State) (c : Instr) (rest : List Instr), s.pending = c :: rest →
    step s = exec c { s with pending := rest }

/-- On an empty queue a step is one tick of the time base where it runs, and nothing else (log 1). -/
def EmptyQueueIsOneTickRule : Prop :=
  ∀ s : State, s.pending = [] →
    ∃ d' : Dev, step s = .next { s with dev := d' } ∧
      d'.timeBase = (if s.dev.timeRun then s.dev.timeBase + 1 else s.dev.timeBase) ∧
      { d' with timeBase := s.dev.timeBase, snap := s.dev.snap } = s.dev

end Sys2Proof.Claims

open Sys2Proof.Claims

/-- A step runs the front command on the queue's rest; on an empty queue it is one tick (log 1). What the model chose
in it: log 1. -/
def Obligations.StepTakesTheFrontCommand : Prop :=
  StepRunsFrontCommandRule ∧ EmptyQueueIsOneTickRule

/-- Every command answers a next state and leaves the waiting commands as they are: none faults, none is refused, on
any state and any operands. What the model chose in it: log 1, 65. -/
def Obligations.EveryCommandCompletesAndKeepsTheQueue : Prop :=
  ∀ (c : Instr) (s : State), ∃ s' : State, exec c s = .next s' ∧ s'.pending = s.pending

/-- RAM keeps its canonical form over every step. What the model chose in it: log 5. -/
def Obligations.StepKeepsRamCanonical : Prop :=
  ∀ s s' : State, s.ramOk → step s = .next s' → s'.ramOk

/-- Only the commands that `touchesRam` names can change RAM: every other command leaves every byte as it is. -/
def Obligations.OtherCommandsLeaveRam : Prop :=
  ∀ (c : Instr) (s s' : State), touchesRam c = false → exec c s = .next s' → s'.ram = s.ram

/-- A read or write that the device mode or the grade does not open is a bus error: no effect at the target, a
read returns 0 (R2, R25, R382). -/
def Obligations.UnopenedAccessIsBusError : Prop :=
  ∀ (c : Instr) (s : State) (t : Tick) (a : Nat) (w : Bool), busAccess c = some (t, a, w) →
    (s.devAt t).reach a w = false →
    ∃ d' : Dev, exec c s = .next { s with dev := d' } ∧ d'.answer = ⟨true, 0⟩ ∧
      { d' with answer := (s.devAt t).answer } = s.devAt t

/-! ### Power, resets, STANDBY, HALT, SERVICE (02_modes_and_startup) -/

namespace Sys2Proof.Claims

/-- What a reset leaves: BOOT before step 1, time base and bus at rest, both halves out of their modes, and every
register but the listed ones at the reset value of its heading. -/
def ResetTo (d' : Dev) (kept : List Nat) : Prop :=
  d'.mode = .boot ∧ d'.timeRun = false ∧ d'.timeBase = 0 ∧ d'.busRun = false ∧ d'.stopped = false ∧
    d'.a = Init.half ∧ d'.b = Init.half ∧ d'.link = Init.link ∧ d'.irq = Init.irq ∧
    ∀ a : Nat, a ∉ kept → d'.rd a = regReset a

/-- AON state carried over a reset: SYS_WAKE, the phase memory, the wake request. -/
def AonKept (d d' : Dev) : Prop :=
  d'.rd Reg.SYS_WAKE = d.rd Reg.SYS_WAKE ∧ d'.pmA = d.pmA ∧ d'.pmB = d.pmB ∧ d'.wakeReq = d.wakeReq ∧
    d'.wakeOut = d.wakeOut

end Sys2Proof.Claims

/-- The reset sources of R39 but wake: each moves the device to BOOT with its SYS_RSTCAUSE bit; power-on loses AON
state and sets COLD, the others keep it. A TAP reset resets nothing of the device. What the model chose in it: log 14,
18. -/
def Obligations.ResetSourcesEnterBoot : Prop :=
  ∀ (s : State) (t : Tick),
    let d := s.devAt t
    let aon := [Reg.SYS_RSTCAUSE, Reg.SYS_WAKE, Reg.SYS_PMCFG, Reg.SYS_PMSTAT .a, Reg.SYS_PMSTAT .b,
      Reg.IMG_KEYSTAT, Reg.TRIM_STAT, Reg.SYS_BOOTSTAT]
    Does (.powerOnReset t) s (fun d' => ResetTo d' [Reg.IMG_KEYSTAT, Reg.TRIM_STAT] ∧
      d'.bit Reg.SYS_RSTCAUSE F.SYS_RSTCAUSE_POR = true ∧ d'.bit Reg.SYS_WAKE F.SYS_WAKE_COLD = true ∧
      d'.pmA = Init.phaseMem ∧ d'.pmB = Init.phaseMem ∧ d'.wakeReq = false) ∧
    (d.powered = true → Does (.brownReset t) s (fun d' => ResetTo d' aon ∧ AonKept d d' ∧
      d'.bit Reg.SYS_RSTCAUSE F.SYS_RSTCAUSE_BROWN = true ∧
      BitsKept (d.rd Reg.SYS_RSTCAUSE) (d'.rd Reg.SYS_RSTCAUSE) [F.SYS_RSTCAUSE_BROWN])) ∧
    (d.powered = true → Does (.pinReset t) s (fun d' => ResetTo d' aon ∧ AonKept d d' ∧
      d'.bit Reg.SYS_RSTCAUSE F.SYS_RSTCAUSE_PIN = true ∧ d'.waitReset = true ∧
      BitsKept (d.rd Reg.SYS_RSTCAUSE) (d'.rd Reg.SYS_RSTCAUSE) [F.SYS_RSTCAUSE_PIN])) ∧
    (∀ m : Master, d.reach Reg.SYS_SWRST true = true →
      Does (.softwareReset t m 0xC3A5) s (fun d' => ResetTo d' aon ∧ AonKept d d' ∧
        d'.bit Reg.SYS_RSTCAUSE F.SYS_RSTCAUSE_SOFT = true ∧
        BitsKept (d.rd Reg.SYS_RSTCAUSE) (d'.rd Reg.SYS_RSTCAUSE) [F.SYS_RSTCAUSE_SOFT])) ∧
    (∀ (m : Master) (v : Word), v ≠ 0xC3A5 → d.reach Reg.SYS_SWRST true = true →
      Does (.softwareReset t m v) s (fun d' => d'.bit Reg.SYS_FLAG F.SYS_FLAG_KEY_ERR = true ∧
        RegsKept d d' [Reg.SYS_FLAG] ∧ HiddenKept d { d' with answer := d.answer, irq := d.irq })) ∧
    Does (.tapReset t) s (fun d' => d' = d)

namespace Sys2Proof.Claims

/-- Supplies failing: the early warning hands over each half's index, STANDBY keeps the AON state only, loss of
VBAT keeps nothing (R42, R45). -/
def SupplyLossKeepsOnlyAonRule : Prop :=
  ∀ (s : State) (t : Tick),
    let d := s.devAt t
    (d.powered = true → ∀ okA okB : Bool, Does (.vddcEarlyWarning t okA okB) s (fun d' =>
      (∀ h : Half, d'.phaseMem h =
        match d.indexHeld h, (match h with | .a => okA | .b => okB) with
        | some (k, rev), true =>
          { Init.phaseMem with index := some k, rev := rev, sig := d.rd (Reg.WHL_SIG h), len := d.edges h }
        | _, _ => Init.phaseMem) ∧
      RegsKept d d' [] ∧ HiddenKept d { d' with pmA := d.pmA, pmB := d.pmB })) ∧
    (d.powered = true → ∀ wakeIn : Bool, Does (.standbyEntry t wakeIn) s (fun d' =>
      d'.mode = .standby ∧ d'.busRun = false ∧ d'.wakeReq = wakeIn ∧ d'.wakeOut = wakeIn ∧
      (∀ h : Half, (d'.phaseMem h).count = 0 ∧ (d'.phaseMem h).sig = (d.phaseMem h).sig ∧
        ((d'.phaseMem h).settled = true ↔ d.f Reg.SYS_PMCFG (Dev.pmFields h).1 = 0)) ∧
      d'.rd Reg.SYS_PMCFG = d.rd Reg.SYS_PMCFG)) ∧
    Does (.vbatLost t) s (fun d' => d'.mode = .unpowered ∧ d'.pmA = Init.phaseMem ∧ d'.pmB = Init.phaseMem ∧
      d'.wakeReq = false ∧ d'.wakeOut = false)

/-- STANDBY: a wake request drives WAKE_OUT and records its cause once; SETTLE ends; a crank edge is counted by the
direction that the half's source gives it, and before SETTLE has ended wakes nothing; an ambiguous one sets DIR_ERR; the
100 ms that end without supplies change nothing (R43, R45, R46). -/
def StandbyWakesRule : Prop :=
  ∀ (s : State) (t : Tick),
    let d := s.devAt t
    (d.mode = .standby → d.wakeReq = false → Does (.wakeInAsserted t) s (fun d' =>
      d'.wakeReq = true ∧ d'.wakeOut = true ∧ d'.bit Reg.SYS_WAKE F.SYS_WAKE_WAKE_IN = true ∧
      d'.bit Reg.SYS_WAKE F.SYS_WAKE_MOTION_A = false ∧ d'.bit Reg.SYS_WAKE F.SYS_WAKE_MOTION_B = false ∧
      RegsKept d d' [Reg.SYS_WAKE] ∧ HiddenKept d { d' with wakeReq := d.wakeReq, wakeOut := d.wakeOut })) ∧
    (d.mode = .standby → d.wakeReq = true → Does (.wakeInAsserted t) s (fun d' => d' = d)) ∧
    (∀ h : Half, d.mode = .standby →
      (d.phaseMem h).entryT + 400000000 * d.f Reg.SYS_PMCFG (Dev.pmFields h).1 ≤ t.toNat →
      Does (.settleExpiry t h) s (fun d' =>
        d'.phaseMem h = { d.phaseMem h with settled := true } ∧ d'.phaseMem h.other = d.phaseMem h.other ∧
        RegsKept d d' [] ∧ HiddenKept d { d' with pmA := d.pmA, pmB := d.pmB })) ∧
    (∀ h : Half, t.toNat < (d.phaseMem h).entryT + 400000000 * d.f Reg.SYS_PMCFG (Dev.pmFields h).1 →
      Does (.settleExpiry t h) s (fun d' => d' = d)) ∧
    (∀ h : Half, d.mode = .standby →
      let p := d.phaseMem h
      let counted := fun (fwd : Bool) (d' : Dev) =>
        (d'.phaseMem h).count = p.count + (if fwd then 1 else -1) ∧ (d'.phaseMem h).dirErr = p.dirErr ∧
        (p.settled = false → d'.wakeReq = d.wakeReq ∧ d'.wakeOut = d.wakeOut) ∧
        d'.phaseMem h.other = d.phaseMem h.other ∧ RegsKept d d' [Reg.SYS_WAKE]
      let unclear := fun d' : Dev =>
        d'.phaseMem h = { p with dirErr := true } ∧ d'.phaseMem h.other = d.phaseMem h.other ∧
        RegsKept d d' [] ∧ HiddenKept d { d' with pmA := d.pmA, pmB := d.pmB }
      let fwdMax := 1000 * getF p.dirCfg F.SNS_DIRCFG_FWD_MAX
      let revMin := 1000 * getF p.dirCfg F.SNS_DIRCFG_REV_MIN
      let qwin := 10 * getF p.dirCfg F.SNS_DIRCFG_QWIN
      (∀ (crkd : Bool) (gap : Nat), p.src = 2 →
        (qwin < gap → Does (.standbyCrankEdge t h (.timed crkd gap)) s (counted (crkd == p.fwdLvl))) ∧
        (gap ≤ qwin → Does (.standbyCrankEdge t h (.timed crkd gap)) s unclear)) ∧
      (∀ w : Nat, p.src = 1 → w ≤ 2 * revMin →
        (w ≤ fwdMax → Does (.standbyCrankEdge t h (.pulse w)) s (counted true)) ∧
        (fwdMax < w → revMin ≤ w → Does (.standbyCrankEdge t h (.pulse w)) s (counted false)) ∧
        (fwdMax < w → w < revMin → Does (.standbyCrankEdge t h (.pulse w)) s unclear)) ∧
      (p.src = 0 → ∀ e : WakeEdge, Does (.standbyCrankEdge t h e) s (fun d' => d' = d))) ∧
    Does (.wakeSupplyTimeout t) s (fun d' => d' = d)

end Sys2Proof.Claims

/-- Supply loss, STANDBY and its wakes keep and change the AON state only. What the model chose in it: log 16. -/
def Obligations.StandbyAndSupplyLoss : Prop :=
  SupplyLossKeepsOnlyAonRule ∧ StandbyWakesRule

namespace Sys2Proof.Claims

/-- The power-up sequence stopped by a code: CODE and STEP say where, the device stays where it is (R31, R35). -/
def StoppedBy (d' : Dev) (code step : Nat) (m : Mode) : Prop :=
  d'.stopped = true ∧ d'.mode = m ∧ d'.f Reg.SYS_BOOTSTAT F.SYS_BOOTSTAT_CODE = code ∧
    d'.f Reg.SYS_BOOTSTAT F.SYS_BOOTSTAT_STEP = step

end Sys2Proof.Claims

/-- The power-up sequence from BOOT, and from the release of RESET_N where that held it in step 1: a stop of each kind
leaves its code; without one the image loads, and a load that accepts a copy enters OPERATE (R31, R32, R35, R36, R41,
R63). What the model chose in it: log 9, 15, 20, 21, 69, 70. -/
def Obligations.PowerUpSequence : Prop :=
  ∀ (s : State) (t : Tick) (env : PowerUp),
    let d := s.devAt t
    let up := fun (d' : Dev) (t0 : Nat) => d'.timeRun = true ∧ d'.busRun = true ∧ d'.timeBase = BitVec.ofNat 64 t0 ∧
      d'.wakeOut = false
    let ends := fun (t0 : Nat) (d' : Dev) (m' : List Host.Cell) =>
      (env.stop = some .pllM → StoppedBy d' 0x32 3 .boot ∧ d'.timeRun = d.timeRun ∧ d'.busRun = false) ∧
      (env.stop = some .pllG → StoppedBy d' 0x33 3 .boot ∧ d'.timeRun = d.timeRun ∧ d'.busRun = false) ∧
      (env.stop = some .delayLine → StoppedBy d' 0x41 4 .boot ∧ up d' t0) ∧
      (∀ k : Fin 4, env.stop = some (.adc k) → d.grade = .tzn5120 ∨ k.val < 2 →
        StoppedBy d' (0x51 + k.val) 5 .boot ∧ up d' t0) ∧
      (env.stop = some .march → StoppedBy d' 0x61 6 .boot ∧ up d' t0) ∧
      (env.stop = some .ecc → StoppedBy d' 0x62 6 .boot ∧ up d' t0) ∧
      (env.stop = none → env.probe = .silent → StoppedBy d' 0x71 7 .load ∧ up d' t0) ∧
      (env.stop = none → ∀ (n : Nat) (k : Byte) (sfdp quad : Bool), Dev.probed env.probe = some (n, k, sfdp, quad) →
        ∃ y : DevMem, y.1.mode = .load ∧ up y.1 t0 ∧ y.1.f Reg.SYS_BOOTSTAT F.SYS_BOOTSTAT_STEP = 7 ∧
          y.1.bit Reg.SYS_BOOTSTAT F.SYS_BOOTSTAT_SINGLE_READ = !quad ∧ y.2 = [] ∧
          match Image.load y env.flash (2 ^ n) with
          | (z, some _) => d'.stopped = true ∧ m' = z.2
          | (z, none) => (d'.mode = .operate ∨ d'.mode = .halt) ∧
            (d', m') = Dev.enterOperate ({ z.1 with regs := (z.1.setF Reg.SYS_BOOTSTAT F.SYS_BOOTSTAT_STEP 0xA).regs },
              z.2) env)
    (d.mode = .boot → d.stopped = false → d.busRun = false → d.waitReset = false →
      DoesMem (.supplyValid t env) s (ends t.toNat)) ∧
    (d.mode = .boot → d.stopped = false → d.busRun = false → d.waitReset = true →
      DoesMem (.supplyValid t env) s (fun d' m' =>
        d' = { d with heldUp := some (t.toNat, env) } ∧ m' = s.ram)) ∧
    (∀ t0 : Nat, d.mode = .boot → d.stopped = false → d.busRun = false → d.waitReset = true →
      d.heldUp = some (t0, env) → DoesMem (.resetNRelease t) s (ends t0)) ∧
    (d.heldUp = none → DoesMem (.resetNRelease t) s (fun d' m' =>
      d' = { d with waitReset := false } ∧ m' = s.ram))

/-- JTAG and SERVICE (R49 to R51): a debug request moves OPERATE to HALT; in BOOT and LOAD it is held, shown as
HALT_PEND and taken as OPERATE is entered; in SERVICE and STANDBY it is ignored. A resume gives OPERATE a fresh
window, two key words at most 100 SYS cycles apart enter SERVICE or set SVC_DENIED, anything else KEY_ERR. What the
model chose in it: log 17. -/
def Obligations.HaltAndServiceEntry : Prop :=
  ∀ (s : State) (t : Tick),
    let d := s.devAt t
    (d.mode = .operate → Does (.jtagDebugRequest t) s (fun d' => d' = d.enterHalt ∧ d'.mode = .halt ∧
      ∀ g : Half, d'.hmode g = d.hmode g)) ∧
    (d.mode = .boot ∨ d.mode = .load → Does (.jtagDebugRequest t) s (fun d' => d' = { d with debugReq := true } ∧
      d'.modeView.getLsbD 16 = true)) ∧
    (∀ (y : DevMem) (env : PowerUp), y.1.debugReq = true → (Dev.enterOperate y env).1.mode = .halt) ∧
    (d.mode = .service ∨ d.mode = .standby → Does (.jtagDebugRequest t) s (fun d' => d' = d)) ∧
    (d.mode = .halt → Does (.jtagDebugResume t) s (fun d' => d'.mode = .operate ∧
      d'.link.lastHb = none ∧ d'.link.hbFirst = some d.now ∧ d'.a = d.a ∧ d'.b = d.b)) ∧
    (d.mode ≠ .halt → Does (.jtagDebugResume t) s (fun d' => d' = d)) ∧
    (∀ m : Master, d.reach Reg.SYS_SVCKEY true = true →
      (d.svcKey = none → Does (.serviceKeyWrite t m 0x5E7C) s (fun d' =>
        d'.svcKey = some (m, d.now) ∧ RegsKept d d' [] ∧
        HiddenKept d { d' with svcKey := d.svcKey, answer := d.answer })) ∧
      (∀ t0 : Nat, d.svcKey = some (m, t0) → d.now ≤ t0 + 200 → d.serviceMay = true →
        Does (.serviceKeyWrite t m 0xA183) s (fun d' =>
          d'.mode = .service ∧ d'.bit Reg.SYS_READY F.SYS_READY_RDY = false)) ∧
      (∀ t0 : Nat, d.svcKey = some (m, t0) → d.now ≤ t0 + 200 → d.serviceMay = false →
        Does (.serviceKeyWrite t m 0xA183) s (fun d' =>
          d'.bit Reg.SYS_FLAG F.SYS_FLAG_SVC_DENIED = true ∧ d'.svcKey = none ∧ d'.mode = d.mode ∧
          RegsKept d d' [Reg.SYS_FLAG])) ∧
      (∀ v : Word, v ≠ 0x5E7C →
        (v ≠ 0xA183 ∨ d.svcKey = none ∨ ∃ (k : Master) (t0 : Nat), d.svcKey = some (k, t0) ∧
          (k ≠ m ∨ t0 + 200 < d.now)) →
        Does (.serviceKeyWrite t m v) s (fun d' =>
          d'.bit Reg.SYS_FLAG F.SYS_FLAG_KEY_ERR = true ∧ d'.svcKey = none ∧ d'.mode = d.mode ∧
          RegsKept d d' [Reg.SYS_FLAG])))

namespace Sys2Proof.Claims

/-- The key slot: in SERVICE and while it is open it takes its four words and the programming key; the programming
ends with PROG and the check value; every other write sets KEY_DENIED without a bus error (R68). -/
def KeySlotRule : Prop :=
  ∀ (s : State) (t : Tick) (m : Master) (k : Fin 4) (v : Word),
    let d := s.devAt t
    let refused := fun d' : Dev => d'.bit Reg.IMG_FLAG F.IMG_FLAG_KEY_DENIED = true ∧ d'.answer = ⟨false, 0⟩ ∧
      RegsKept d d' [Reg.IMG_FLAG] ∧ HiddenKept d { d' with answer := d.answer, irq := d.irq }
    (d.reach (Reg.IMG_KEY k.val) false = true → d.mode = .service → d.slotClosed = false →
      Does (.keyDataWrite t m k v) s (fun d' =>
        (∀ j : Nat, j < 4 → d'.keyStage.getD (4 * k.val + j) 0 = (wordBytes v).getD j 0) ∧
        (∀ i : Nat, i < 16 → i / 4 ≠ k.val → d'.keyStage.getD i 0 = d.keyStage.getD i 0) ∧
        RegsKept d d' [] ∧ HiddenKept d { d' with keyStage := d.keyStage, answer := d.answer })) ∧
    (d.reach Reg.IMG_KEYCTL false = true → d.mode = .service → d.slotClosed = false →
      Does (.keySlotProgram t m 0x4B59) s (fun d' => d'.keyBusy = true ∧ RegsKept d d' [] ∧
        HiddenKept d { d' with keyBusy := d.keyBusy, answer := d.answer })) ∧
    (d.reach Reg.IMG_KEYCTL false = true → d.mode = .service → v ≠ 0x4B59 →
      Does (.keySlotProgram t m v) s refused) ∧
    (d.reach Reg.IMG_KEYCTL false = true → d.mode ≠ .service ∨ d.slotClosed = true →
      Does (.keyDataWrite t m k v) s refused ∧ Does (.keySlotProgram t m v) s refused) ∧
    (d.keyBusy = true → Does (.keyProgramDone t) s (fun d' =>
      ∃ key : List Byte, key.length = 16 ∧ d'.keySlot = some key ∧
        d'.bit Reg.IMG_KEYSTAT F.IMG_KEYSTAT_PROG = true ∧ d'.slotClosed = true ∧
        (∀ j : Nat, j < 16 → key.getD j 0 = d.keyStage.getD j 0) ∧
        (∀ j : Nat, j < 3 → (wordBytes (d'.rd Reg.IMG_KEYSTAT)).getD (j + 1) 0 =
          (aes128 key (List.replicate 16 0)).getD j 0) ∧
        RegsKept d d' [Reg.IMG_KEYSTAT]))

/-- The trim page: TRIM_BUF and TRIM_CMD answer in SERVICE while BUSY is 0 and give a bus error otherwise; the key
starts the rewrite of a page whose CRC is right; its end counts the rewrite and sets DONE (R73). -/
def TrimPageRewriteRule : Prop :=
  ∀ (s : State) (t : Tick) (m : Master) (k : Fin 64) (v : Word),
    let d := s.devAt t
    let st := Reg.TRIM_STAT
    (d.reach (Reg.TRIM_BUF k.val) true = true →
      (d.mode = .service → d.bit st F.TRIM_STAT_BUSY = false → Does (.trimBufferWrite t m k v) s (fun d' =>
        d'.rd (Reg.TRIM_BUF k.val) = v ∧ RegsKept d d' [Reg.TRIM_BUF k.val] ∧
        HiddenKept d { d' with answer := d.answer })) ∧
      (d.mode ≠ .service ∨ d.bit st F.TRIM_STAT_BUSY = true → Does (.trimBufferWrite t m k v) s (fun d' =>
        d'.answer = ⟨true, 0⟩ ∧ RegsKept d d' [] ∧ HiddenKept d { d' with answer := d.answer }))) ∧
    (d.reach Reg.TRIM_CMD true = true → d.mode = .service → d.bit st F.TRIM_STAT_BUSY = false →
      Does (.trimRewrite t m 0x7A31) s (fun d' =>
        (Dev.pageOk d.trimBytes = true → d'.bit st F.TRIM_STAT_BUSY = true ∧ d'.f st F.TRIM_STAT_ERR = 0) ∧
        (Dev.pageOk d.trimBytes = false → d'.bit st F.TRIM_STAT_BUSY = false ∧ d'.f st F.TRIM_STAT_ERR = 1) ∧
        d'.trimCells = d.trimCells ∧ RegsKept d d' [st])) ∧
    (d.reach Reg.TRIM_CMD true = true → d.mode = .service → d.bit st F.TRIM_STAT_BUSY = false → v ≠ 0x7A31 →
      Does (.trimRewrite t m v) s (fun d' => d'.answer = ⟨false, 0⟩ ∧ RegsKept d d' [] ∧
        HiddenKept d { d' with answer := d.answer })) ∧
    (∀ ok : Bool, d.bit st F.TRIM_STAT_BUSY = true → Does (.trimRewriteDone t ok) s (fun d' =>
      d'.bit st F.TRIM_STAT_BUSY = false ∧ d'.bit st F.TRIM_STAT_DONE = true ∧
      d'.f st F.TRIM_STAT_ERR = (if ok then 0 else 2) ∧ d'.wear = min (d.wear + 1) 0xFFFF ∧
      d'.f st F.TRIM_STAT_WCNT = min d'.wear 2047 ∧ d'.bit st F.TRIM_STAT_WEAR = decide (1000 < d'.wear) ∧
      (ok = true → d'.trimCells = d.trimBytes) ∧ RegsKept d d' [st]))

end Sys2Proof.Claims

/-- Key slot and trim page in SERVICE. What the model chose in it: log 27. -/
def Obligations.KeySlotAndTrimPage : Prop :=
  KeySlotRule ∧ TrimPageRewriteRule

/-! ### Configuration transactions (03_image_and_configuration) -/

namespace Sys2Proof.Claims

/-- A transaction has ended with a code: the buffer is free, STATE is IDLE, the done source is raised, CTX_STAT
names the code, the check and the entry; CTX_SEQ and the switch tick move on a switch only (R80). DMD_STAT shows
the commits that waited (R79). -/
def CtxEnded (d d' : Dev) (code check : Nat) (entry : Option Nat) : Prop :=
  let st := Reg.CTX_STAT
  d'.ctx = none ∧ d'.ctxOwner = none ∧ 0xC2 ∈ d'.irq.raised ∧ d'.f st F.CTX_STAT_STATE = 0 ∧
    d'.f st F.CTX_STAT_CODE = code ∧ d'.f st F.CTX_STAT_CHECK = check ∧
    d'.bit st F.CTX_STAT_ENTV = entry.isSome ∧ d'.f st F.CTX_STAT_ENTRY = entry.getD 0 ∧
    (code ≤ 1 → d'.rd Reg.CTX_SEQ = d.rd Reg.CTX_SEQ + 1 ∧ d'.rd Reg.CTX_APPLIED_LO = Dev.lo32 d.now ∧
      d'.rd Reg.CTX_APPLIED_HI = Dev.hi32 d.now ∧
      RegsKept d d' [st, Reg.CTX_SEQ, Reg.CTX_APPLIED_LO, Reg.CTX_APPLIED_HI, Reg.DMD_STAT .a, Reg.DMD_STAT .b]) ∧
    (1 < code → RegsKept d d' [st, Reg.DMD_STAT .a, Reg.DMD_STAT .b])

/-- The transaction buffer: OPEN claims a free buffer, another master gets a bus error, a word is taken from the
owner while OPEN only, ABORT ends with 0x19, OPEN and COMMIT in CHECKING and PENDING set 0x18 alone (R75, R77, R80). -/
def TransactionBufferRule : Prop :=
  ∀ (s : State) (t : Tick) (m : Master),
    let d := s.devAt t
    let st := Reg.CTX_STAT
    (d.reach Reg.CTX_CTL true = true →
      (d.ctxOwner = none → d.ctxState = 0 → Does (.ctxOpen t m) s (fun d' =>
        d'.ctxState = 1 ∧ d'.ctxOwner = some m ∧ d'.f st F.CTX_STAT_OWNER = ownerCode m ∧ RegsKept d d' [st] ∧
        BitsKept (d.rd st) (d'.rd st) [F.CTX_STAT_STATE, F.CTX_STAT_OWNER] ∧
        HiddenKept d { d' with ctxOwner := d.ctxOwner, answer := d.answer })) ∧
      (d.ctxMine m = true → d.ctxState = 1 → Does (.ctxOpen t m) s (fun d' =>
        d' = { d with answer := ⟨false, 0⟩ })) ∧
      (d.ctxMine m = true → 2 ≤ d.ctxState → ∀ (count : BitVec 8) (when : BitVec 2),
        Does (.ctxOpen t m) s (fun d' => d' = ({ d with answer := ⟨false, 0⟩ }).ctxBusy) ∧
        Does (.ctxCommit t m count when) s (fun d' => d' = ({ d with answer := ⟨false, 0⟩ }).ctxBusy ∧
          d'.f st F.CTX_STAT_CODE = 0x18 ∧ d'.ctxState = d.ctxState ∧ RegsKept d d' [st] ∧
          BitsKept (d.rd st) (d'.rd st) [F.CTX_STAT_CODE])) ∧
      (d.ctxMine m = true → d.ctxState = 0 → ∀ (count : BitVec 8) (when : BitVec 2),
        Does (.ctxCommit t m count when) s (fun d' => d' = { d with answer := ⟨false, 0⟩ }) ∧
        Does (.ctxAbort t m) s (fun d' => d' = { d with answer := ⟨false, 0⟩ })) ∧
      (d.ctxMine m = true → d.ctxState ≠ 0 → Does (.ctxAbort t m) s (fun d' => CtxEnded d d' 0x19 0 none)) ∧
      (d.ctxMine m = false → ∀ (count : BitVec 8) (when : BitVec 2),
        Does (.ctxOpen t m) s (fun d' => d' = { d with answer := ⟨true, 0⟩ }) ∧
        Does (.ctxCommit t m count when) s (fun d' => d' = { d with answer := ⟨true, 0⟩ }) ∧
        Does (.ctxAbort t m) s (fun d' => d' = { d with answer := ⟨true, 0⟩ }))) ∧
    (∀ (k : Fin 128) (v : Word), d.reach (Reg.CTX_BUF k.val) true = true →
      (d.ctxState = 1 → d.ctxMine m = true → Does (.ctxBufWrite t m k v) s (fun d' =>
        d'.rd (Reg.CTX_BUF k.val) = v ∧ RegsKept d d' [Reg.CTX_BUF k.val] ∧
        HiddenKept d { d' with answer := d.answer })) ∧
      (d.ctxState ≠ 1 ∨ d.ctxMine m = false → Does (.ctxBufWrite t m k v) s (fun d' =>
        d' = { d with answer := ⟨true, 0⟩ })))

/-- COMMIT of an OPEN transaction is tested in R77's order, and the first condition that holds ends it; a COMMIT
that passes them takes COUNT, the apply point and the speeds and starts the checks. -/
def TransactionCommitRule : Prop :=
  ∀ (s : State) (t : Tick) (m : Master) (count : BitVec 8) (when : BitVec 2),
    let d := s.devAt t
    let n := count.toNat
    let p := Dev.ctxAngleHalf when.toNat
    let lo := (d.rd Reg.CTX_WHEN_LO).toNat
    d.reach Reg.CTX_CTL true = true → d.ctxMine m = true → d.ctxState = 1 →
    let countBad := n = 0 ∨ 64 < n
    let absent := ∃ h : Half, p = some h ∧ (d.half h).enabled = false
    let noAngle := ∃ h : Half, p = some h ∧ d.issuing h = false
    let range := ∃ h : Half, p = some h ∧ d.cycLen h ≤ lo
    (countBad → Does (.ctxCommit t m count when) s (fun d' => CtxEnded d d' 0x10 0 none)) ∧
    (¬countBad → absent → Does (.ctxCommit t m count when) s (fun d' => CtxEnded d d' 0x14 0 none)) ∧
    (¬countBad → ¬absent → d.operating = false →
      Does (.ctxCommit t m count when) s (fun d' => CtxEnded d d' 0x17 0 none)) ∧
    (¬countBad → ¬absent → d.operating = true → noAngle →
      Does (.ctxCommit t m count when) s (fun d' => CtxEnded d d' 0x1A 0 none)) ∧
    (¬countBad → ¬absent → d.operating = true → ¬noAngle → range →
      Does (.ctxCommit t m count when) s (fun d' => CtxEnded d d' 0x1C 0 none)) ∧
    (¬countBad → ¬absent → d.operating = true → ¬noAngle → ¬range →
      Does (.ctxCommit t m count when) s (fun d' =>
        d'.ctxState = 2 ∧ RegsKept d d' [Reg.CTX_STAT] ∧ HiddenKept d { d' with ctx := d.ctx, answer := d.answer } ∧
        ∃ x : Ctx, d'.ctx = some x ∧ x.count = n ∧ x.apply = when.toNat ∧ x.checkEnd = none ∧
          x.tick = lo + (d.rd Reg.CTX_WHEN_HI).toNat * 2 ^ 32 ∧
          (∀ h : Half, p = some h → x.target = d.passageAfter h lo) ∧
          (x.waits = true ↔ ∃ h : Half, (d.half h).commit.isSome = true ∧
            ∃ e ∈ d.ctxEntries n, Dev.halfAt e.1 = some h)))

end Sys2Proof.Claims

/-- Configuration transactions: the buffer, OPEN, ABORT and the tests of COMMIT. What the model chose in it: log 24.
-/
def Obligations.TransactionBufferAndCommit : Prop :=
  TransactionBufferRule ∧ TransactionCommitRule

/-- The end of the checks: the first failure ends the transaction and applies nothing, else it is PENDING, and the
switch comes at once where the apply point is IMMEDIATE or a time already passed; the switch applies every entry, or
waits for the end of a tooth pass that runs, which then carries it out (R21, R76, R77, R78, R80). What the model chose
in it: log 23, 26. -/
def Obligations.TransactionSwitch : Prop :=
  ∀ (s : State) (t : Tick) (x : Ctx),
    let d := s.devAt t
    d.ctx = some x →
    let noPass := (d.track .a).passing = false ∧ (d.track .b).passing = false
    let switched := fun (e : Dev) (late : Bool) (d' : Dev) (m' : List Host.Cell) =>
      ∃ y : DevMem, y = Dev.ctxApply (e, s.ram) (e.ctxEntries x.count) ∧
        CtxEnded y.1 d' (if late then 1 else 0) 0 none ∧ m' = y.2
    (x.waits = false → x.checkEnd = none →
      (∀ (code check : Nat) (entry : Option Nat), d.ctxFails x = some (code, check, entry) →
        1 < code → code < 256 → check < 256 → entry.getD 0 < 64 →
        DoesMem (.ctxChecksEnd t) s (fun d' m' => CtxEnded d d' code check entry ∧ m' = s.ram)) ∧
      (d.ctxFails x = none → x.apply = 2 ∨ x.apply = 3 →
        DoesMem (.ctxChecksEnd t) s (fun d' m' => d'.ctxState = 3 ∧ m' = s.ram ∧ RegsKept d d' [Reg.CTX_STAT] ∧
          HiddenKept d { d' with ctx := d.ctx } ∧
          ∃ x' : Ctx, d'.ctx = some x' ∧ x'.checkEnd = some d.now ∧ x'.apply = x.apply ∧
            ∀ h : Half, h = (if x.apply = 2 then .a else .b) →
              (x'.late = true ↔ (x.target : Rat) ≤ d.phi h) ∧
              x'.target = if (x.target : Rat) ≤ d.phi h then d.nextTarget h x.target else x.target)) ∧
      (d.ctxFails x = none → x.apply = 1 → d.now < x.tick →
        DoesMem (.ctxChecksEnd t) s (fun d' m' => d'.ctxState = 3 ∧ m' = s.ram ∧ RegsKept d d' [Reg.CTX_STAT] ∧
          HiddenKept d { d' with ctx := d.ctx } ∧
          d'.ctx = some { x with checkEnd := some d.now, late := false })) ∧
      (d.ctxFails x = none → x.apply = 0 ∨ (x.apply = 1 ∧ x.tick ≤ d.now) → noPass →
        DoesMem (.ctxChecksEnd t) s (fun d' m' => ∃ e : Dev, e.ctxState = 3 ∧ RegsKept d e [Reg.CTX_STAT] ∧
          HiddenKept d { e with ctx := d.ctx } ∧
          switched e (decide (x.apply = 1 ∧ x.tick < d.now)) d' m')) ∧
      (d.ctxFails x = none → x.apply = 0 ∨ (x.apply = 1 ∧ x.tick ≤ d.now) → ¬noPass →
        DoesMem (.ctxChecksEnd t) s (fun d' m' => d'.ctxState = 3 ∧ m' = s.ram ∧ RegsKept d d' [Reg.CTX_STAT] ∧
          d'.ctx = some { x with
            checkEnd := some d.now, late := decide (x.apply = 1 ∧ x.tick < d.now), reached := true }))) ∧
    (∀ h : Half, x.checkEnd ≠ none → x.reached = true → (d.half .a).commit = none → (d.half .b).commit = none →
      (d.track h).passing = true → (d.track h.other).passing = false →
      DoesMem (.toothPassEnd t h) s (fun d' m' => switched (d.passEnd h) x.late d' m')) ∧
    (d.ctxDue x = true → noPass → DoesMem (.ctxSwitch t) s (fun d' m' => switched d x.late d' m')) ∧
    (d.ctxDue x = true → ¬noPass → DoesMem (.ctxSwitch t) s (fun d' m' =>
      d' = { d with ctx := some { x with reached := true } } ∧ m' = s.ram)) ∧
    (x.checkEnd = none → DoesMem (.ctxSwitch t) s (fun d' m' => d' = d ∧ m' = s.ram))

/-! ### Crank and cam inputs (04_sensor_inputs) -/

namespace Sys2Proof.Claims

/-- Of a half, only the capture stage differs. -/
def SenseOnly (d d' : Dev) : Prop :=
  ∀ g : Half, { d'.half g with sense := (d.half g).sense } = d.half g

/-- A half-wave arms a front end (R81, R82): a Hall input's does; a VR input's does where its peak reaches 30 mV and,
above the floor of the threshold, the programmed percentage of the peak before it; one of unknown peak has armed (log 33). -/
def Arms (hall floor : Bool) (pct prev : Nat) (peak : Option (BitVec 16)) : Prop :=
  hall = true ∨ ∀ p : BitVec 16, peak = some p → 3 ≤ p.toNat ∧ (floor = true ∨ pct * prev ≤ 100 * p.toNat)

/-- A front end's threshold is at its floor (R82): no timed edge yet, or none for eight times the last measured period,
50 ms at most. -/
def AtFloor (x : Front) (now : Nat) : Prop :=
  ∀ t0 : Nat, x.lastT = some t0 → usTk 50000 ≤ now - t0 ∨ ∃ p : Nat, x.period = some p ∧ 8 * p ≤ now - t0

/-- A front end at its timed edge: the edge, and the period since the one before. -/
def frontAt (x : Front) (t : Nat) (peak : Option Nat) : Front :=
  { lastT := some t
    period := match x.lastT with
      | some u => some (t - u)
      | none => x.period
    peak := peak }

/-- A timed crank edge whose half-wave armed its front end reaches the halves of `crankReach` (R81, R84, R85, R86):
under no direction source and under quadrature it waits for its qualification time, and QWIN after it, with its
direction; under pulse width it opens a pulse; an edge that does not hold its level through the filter reaches none, and
one whose half-wave did not arm is none. -/
def CrankTimedEdgesRule : Prop :=
  ∀ (s : State) (t : Tick) (h g : Half) (peak : Option (BitVec 16)) (holds : Bool),
    let d := s.devAt t
    let st := Reg.SNS_STAT h
    let own := (d.half h).sense
    let hall := d.bit (Reg.SNS_CFG h) F.SNS_CFG_CRK_TYPE
    let armed := fun floor : Bool => Arms hall floor (d.f (Reg.SNS_THR h) F.SNS_THR_CRK_PCT)
      (d.f (Reg.SNS_PEAK h) F.SNS_PEAK_CRK_PEAK) peak
    let floor := d.bit st F.SNS_STAT_THR_FLOOR || Dev.floorDue own.front d.now
    let old : Sense := if g = h then { own with
        crkLine := d.bit (Reg.SNS_CFG h) F.SNS_CFG_CRK_POL, front := frontAt own.front t.toNat own.front.peak }
      else (d.half g).sense
    let filt := 4 * d.f (Reg.SNS_FILT (d.crankCfg g)) F.SNS_FILT_CRK_FILT
    let regs := [Reg.SNS_STAT .a, Reg.SNS_STAT .b, Reg.SNS_PEAK h, Reg.SNS_CNT .a, Reg.SNS_CNT .b]
    let sensed := fun (x : Sense) (d' : Dev) => (d'.half g).sense = x ∧ SenseOnly d d' ∧ RegsKept d d' regs ∧
      (∀ p : BitVec 16, peak = some p → hall = false →
        d'.rd (Reg.SNS_PEAK h) = p.setWidth 32 ∧ d'.bit st F.SNS_STAT_THR_FLOOR = false)
    g ∈ d.crankReach h →
    (¬armed floor → Does (.crankTimedEdge t h peak holds) s (fun d' => d' = d)) ∧
    (armed floor → holds = true ∨ filt = 0 →
      (d.dirsrc g = 0 → Does (.crankTimedEdge t h peak holds) s
        (sensed { old with edges := old.edges ++ [⟨t.toNat, t.toNat + filt, false, false, false⟩] })) ∧
      (d.dirsrc g = 2 → Does (.crankTimedEdge t h peak holds) s
        (sensed { old with edges := old.edges ++ [⟨t.toNat, t.toNat + filt + d.qwin g,
          decide ((d.half (d.crankCfg g)).sense.crkdLine ≠ d.bit (Reg.SNS_CFG (d.crankCfg g)) F.SNS_CFG_FWD_LVL), false,
          match old.crkdT with
          | some c => decide (t.toNat - c ≤ d.qwin g)
          | none => false⟩] })) ∧
      (d.dirsrc g = 1 → Does (.crankTimedEdge t h peak holds) s (fun d' =>
        sensed { old with pulse := some t.toNat } d' ∧
        (old.pulse.isSome = true → d'.bit (Reg.SNS_STAT g) F.SNS_STAT_MININT_FLT = true)))) ∧
    (armed floor → holds = false → filt ≠ 0 → Does (.crankTimedEdge t h peak holds) s (sensed old))

/-- Pulse width gives the direction of the edge whose pulse ends; a pulse longer than twice REV_MIN is discarded and
counted (R86, R87). -/
def CrankPulseDirectionRule : Prop :=
  ∀ (s : State) (t : Tick) (h g : Half) (t0 : Nat),
    let d := s.devAt t
    g ∈ d.crankReach h → d.dirsrc g = 1 → (d.half g).sense.pulse = some t0 →
    let own := (d.half g).sense
    let old : Sense := if g = h then { own with crkLine := !d.bit (Reg.SNS_CFG h) F.SNS_CFG_CRK_POL } else own
    let w := Reg.SNS_DIRCFG (d.crankCfg g)
    let fwd := usTk (d.f w F.SNS_DIRCFG_FWD_MAX)
    let rev := usTk (d.f w F.SNS_DIRCFG_REV_MIN)
    let filt := 4 * d.f (Reg.SNS_FILT (d.crankCfg g)) F.SNS_FILT_CRK_FILT
    let len := t.toNat - t0
    (len ≤ 2 * rev → Does (.crankPulseEnd t h) s (fun d' => SenseOnly d d' ∧
      (d'.half g).sense = { old with
        pulse := none
        edges := old.edges ++
          [⟨t0, max t.toNat (t0 + filt), decide (rev ≤ len), decide (fwd < len ∧ len < rev), false⟩] })) ∧
    (2 * rev < len → Does (.crankPulseEnd t h) s (fun d' => SenseOnly d d' ∧
      (d'.half g).sense = { old with pulse := none } ∧
      d'.bit (Reg.SNS_STAT g) F.SNS_STAT_MININT_FLT = true ∧
      d'.f (Reg.SNS_CNT g) F.SNS_CNT_FAULTS = min 0xFFFF (d.f (Reg.SNS_CNT g) F.SNS_CNT_FAULTS + 1)))

/-- The CRKD line, the cams, the captures, the threshold, the counts: each command's effect and its frame (R81 to R84, R86,
R89, R91, R92). -/
def SensorCapturesRule : Prop :=
  ∀ (s : State) (t : Tick) (m : Master) (h : Half),
    let d := s.devAt t
    (∀ (g : Half) (level holds : Bool), g ∈ d.crankReach h →
      let filt := 4 * d.f (Reg.SNS_FILT (d.crankCfg g)) F.SNS_FILT_CRK_FILT
      let seen := t.toNat - filt
      let st := Reg.SNS_CAP_STAT g 1
      let met := fun e : CrankEdge => { e with
        illegal := e.illegal || decide (seen ≤ e.t + d.qwin g ∧ e.t ≤ seen + d.qwin g)
        reverse := if seen ≤ e.t then level != d.bit (Reg.SNS_CFG (d.crankCfg g)) F.SNS_CFG_FWD_LVL else e.reverse }
      (holds = true ∨ filt = 0 → Does (.crkdEdge t h ⟨level, holds⟩) s (fun d' =>
        d'.rd (Reg.SNS_CAP_TIME g 1) = Dev.lo32 seen ∧ d'.bit st F.SNS_CAP_STAT_NEW = true ∧
        d'.bit st F.SNS_CAP_STAT_OVR = (d.bit st F.SNS_CAP_STAT_OVR || d.bit st F.SNS_CAP_STAT_NEW) ∧
        d'.bit st F.SNS_CAP_STAT_LEVEL = level ∧ (d'.half (d.crankCfg g)).sense.crkdLine = level ∧
        (d'.half g).sense.crkdT = some seen ∧
        (d'.half g).sense.edges = (if d.dirsrc g = 2 then (d.half g).sense.edges.map met else (d.half g).sense.edges) ∧
        SenseOnly d d')) ∧
      (holds = false → filt ≠ 0 → Does (.crkdEdge t h ⟨level, holds⟩) s (fun d' => d' = d))) ∧
    (∀ (c : Fin 4) (peak : Option (BitVec 16)) (level holds : Bool),
      let used := d.capturing h = true ∧ d.bit (Reg.SNS_CFG h) ⟨8 + c.val, 8 + c.val⟩ = true
      let x := sparseGet Init.front (d.half h).sense.camFront c.val
      let armed := Arms (d.bit (Reg.SNS_CFG h) ⟨12 + c.val, 12 + c.val⟩) (x.peak.isNone || Dev.floorDue x d.now)
        (d.f (Reg.SNS_THR h) ⟨6 * c.val + 11, 6 * c.val + 6⟩) (x.peak.getD 0) peak
      let filt := 40 * d.f (Reg.SNS_FILT h) F.SNS_FILT_CAM_FILT
      let x' := frontAt x t.toNat (match peak with | some p => some p.toNat | none => x.peak)
      let old := { (d.half h).sense with camFront := sparseInsert (d.half h).sense.camFront c.val x' }
      let line : CamLine := ⟨level, d.camLvl h c.val, t.toNat + filt⟩
      (used → armed → holds = true ∨ filt = 0 → Does (.camTimedEdge t h c peak ⟨level, holds⟩) s (fun d' =>
        (d'.half h).sense = { old with
          camLine := sparseInsert old.camLine c.val line
          cams := if d.camTimes h c.val level then old.cams ++ [⟨c.val, t.toNat, t.toNat + filt, level⟩] else old.cams } ∧
        SenseOnly d d' ∧ RegsKept d d' [])) ∧
      (used → armed → holds = false → filt ≠ 0 → Does (.camTimedEdge t h c peak ⟨level, holds⟩) s (fun d' =>
        (d'.half h).sense = old ∧ SenseOnly d d' ∧ RegsKept d d' [])) ∧
      (¬used ∨ ¬armed → Does (.camTimedEdge t h c peak ⟨level, holds⟩) s (fun d' => d' = d))) ∧
    (let due := d.sensing = true ∧ d.bit (Reg.SNS_CFG h) F.SNS_CFG_CRK_TYPE = false ∧ AtFloor (d.half h).sense.front d.now
     (due → Does (.thresholdFloorTimeout t h) s (fun d' =>
        d'.bit (Reg.SNS_STAT h) F.SNS_STAT_THR_FLOOR = true ∧ RegsKept d d' [Reg.SNS_STAT h] ∧
        BitsKept (d.rd (Reg.SNS_STAT h)) (d'.rd (Reg.SNS_STAT h)) [F.SNS_STAT_THR_FLOOR] ∧ HiddenKept d d')) ∧
     (¬due → Does (.thresholdFloorTimeout t h) s (fun d' => d' = d))) ∧
    (∀ v : Word, d.reach (Reg.SNS_CNTCLR h) true = true → Does (.snsCountClear t m h v) s (fun d' =>
      let cnt := Reg.SNS_CNT h
      d'.f cnt F.SNS_CNT_ILLEGALS = d.f cnt F.SNS_CNT_ILLEGALS - getF (d.oldRd cnt) F.SNS_CNT_ILLEGALS ∧
      d'.f cnt F.SNS_CNT_FAULTS = d.f cnt F.SNS_CNT_FAULTS - getF (d.oldRd cnt) F.SNS_CNT_FAULTS ∧
      RegsKept d d' [cnt] ∧ HiddenKept d { d' with answer := d.answer })) ∧
    (∀ n : Fin 6, d.reach (Reg.SNS_CAP_TIME h n.val) false = true →
      let st := Reg.SNS_CAP_STAT h n.val
      let cap := Reg.SNS_CAP_TIME h n.val
      (getB (d.againNow st) F.SNS_CAP_STAT_NEW = false → Does (.captureRead t m h n) s (fun d' =>
        d'.answer = ⟨false, d.rd cap⟩ ∧ d'.bit st F.SNS_CAP_STAT_NEW = false ∧ RegsKept d d' [st] ∧
        BitsKept (d.rd st) (d'.rd st) [F.SNS_CAP_STAT_NEW] ∧ HiddenKept d { d' with answer := d.answer })) ∧
      (getB (d.againNow st) F.SNS_CAP_STAT_NEW = true → Does (.captureRead t m h n) s (fun d' =>
        d'.answer = ⟨false, d.oldRd cap⟩ ∧ d'.bit st F.SNS_CAP_STAT_NEW = d.bit st F.SNS_CAP_STAT_NEW ∧
        d'.bit st F.SNS_CAP_STAT_OVR = getB (d.oldRd st) F.SNS_CAP_STAT_OVR ∧ RegsKept d d' [st] ∧
        BitsKept (d.rd st) (d'.rd st) [F.SNS_CAP_STAT_OVR] ∧ HiddenKept d { d' with answer := d.answer })))

end Sys2Proof.Claims

/-- Crank edges with their direction, cams, captures and counts. What the model chose in it: log 13, 33. -/
def Obligations.CrankEdgesAndCaptures : Prop :=
  CrankTimedEdgesRule ∧ CrankPulseDirectionRule ∧ SensorCapturesRule

/-! ### Angle-step compares and crank repeat outputs (04_sensor_inputs) -/

namespace Sys2Proof.Claims

/-- What a firing does by ACTION: a source, an urgent request, a Mule request line, a timer (R96). -/
def FiredAs (d d' : Dev) (h : Half) (n : Nat) : Prop :=
  let c := Reg.ASC_CTRL h n
  let tg := d.f c F.ASC_CTRL_TARGET
  match d.f c F.ASC_CTRL_ACTION with
  | 0 => Dev.srcOf h (0x28 + n) ∈ d'.irq.raised ∧ d'.sends = d.sends
  | 1 => Send.urgent h (tg % 16) d.now d.now none ∈ d'.sends
  | 2 => Send.mule (match h with | .a => 38 | .b => 39) (tg % 16) ∈ d'.sends
  | _ => Send.timer tg .compare d.now ∈ d'.sends

/-- A compare in a mode in which it runs, at φ past its NEXT: NEXT advances by STEP modulo its length; at least 40 tk after the previous
firing it fires, sooner the point waits, and a further one is counted as skipped; the point that waits fires once the
40 tk have passed, in a mode in which the compare runs (R93 to R96). -/
def AngleStepCompareFiresRule : Prop :=
  ∀ (s : State) (t : Tick) (h : Half) (n : Fin 8),
    let d := s.devAt t
    let st := Reg.ASC_STAT h n.val
    let nx := Reg.ASC_NEXT h n.val
    let last := sparseFind (d.half h).ascLast n.val
    let waits := sparseFind (d.half h).ascPend n.val
    let u := d.ascTarget h n.val
    let u' : Int := u + d.f (Reg.ASC_STEP h n.val) F.ASC_STEP_STEP
    let met := d.ascRuns h n.val = true ∧ (u : Rat) ≤ d.phi h
    let hit := fun d' : Dev => d'.f st F.ASC_STAT_HITS = (d.f st F.ASC_STAT_HITS + 1) % 65536 ∧
      sparseFind (d'.half h).ascLast n.val = some d.now ∧ FiredAs d d' h n.val
    let moved := fun d' : Dev => d'.ascTarget h n.val = u' ∧
      (d'.f nx F.ASC_NEXT_NEXT : Int) = u' % (max 1 (d.ascLen h) : Nat) % 2 ^ 24
    (met →
      ((∀ t0, last = some t0 → t0 + 40 ≤ d.now) → Does (.ascFire t h n) s (fun d' =>
        hit d' ∧ moved d' ∧ RegsKept d d' [st, nx])) ∧
      (∀ t0, last = some t0 → d.now < t0 + 40 → waits = none → Does (.ascFire t h n) s (fun d' =>
        sparseFind (d'.half h).ascPend n.val = some (t0 + 40) ∧ moved d' ∧ RegsKept d d' [nx] ∧
        d'.sends = d.sends ∧ d'.irq = d.irq)) ∧
      (∀ t0, last = some t0 → d.now < t0 + 40 → waits.isSome = true → Does (.ascFire t h n) s (fun d' =>
        d'.bit st F.ASC_STAT_SKIP = true ∧ d'.f st F.ASC_STAT_SKIPS = min 0xFF (d.f st F.ASC_STAT_SKIPS + 1) ∧
        d'.f st F.ASC_STAT_HITS = d.f st F.ASC_STAT_HITS ∧ moved d' ∧ RegsKept d d' [st, nx] ∧
        { d'.half h with ascAt := (d.half h).ascAt } = d.half h))) ∧
    (¬met → Does (.ascFire t h n) s (fun d' => d' = d)) ∧
    (∀ t0 : Nat, waits = some t0 → t0 ≤ d.now → d.ascRuns h n.val = true → Does (.ascDeferredFire t h n) s (fun d' =>
      hit d' ∧ sparseFind (d'.half h).ascPend n.val = none ∧ RegsKept d d' [st])) ∧
    ((∀ t0 : Nat, waits = some t0 → d.now < t0) ∨ d.ascRuns h n.val = false →
      Does (.ascDeferredFire t h n) s (fun d' => d' = d))

/-- A write of ASC_CTRL: EN going to 1 sets NEXT to the first point of the series after the present angle, EN 0 ends
what waits; with STEP 0 it changes nothing (R93). -/
def AngleStepCompareEnableRule : Prop :=
  ∀ (s : State) (t : Tick) (m : Master) (h : Half) (n : Fin 8) (v : Word),
    let d := s.devAt t
    let c := Reg.ASC_CTRL h n.val
    let nx := Reg.ASC_NEXT h n.val
    let step := d.f (Reg.ASC_STEP h n.val) F.ASC_STEP_STEP
    let anchor := d.f (Reg.ASC_ANCHOR h n.val) F.ASC_ANCHOR_ANCHOR
    d.reach c true = true →
    (getB v F.ASC_CTRL_EN = true → step ≠ 0 → d.bit c F.ASC_CTRL_EN = false →
      Does (.ascEnable t m h n v) s (fun d' => d'.bit c F.ASC_CTRL_EN = true ∧
        BitsKept (d.rd c) (d'.rd c) [F.ASC_CTRL_EN] ∧ RegsKept d d' [c, nx] ∧
        d'.half h.other = d.half h.other ∧ { d'.half h with ascAt := (d.half h).ascAt } = d.half h ∧
        ∃ k : Int, d'.ascTarget h n.val = (anchor : Int) + k * step ∧ d.phi h < (anchor : Rat) + (k : Rat) * (step : Rat) ∧
          (anchor : Rat) + (k : Rat) * (step : Rat) ≤ d.phi h + (step : Rat) ∧
          (d'.f nx F.ASC_NEXT_NEXT : Int) = ((anchor : Int) + k * step) % (max 1 (d.ascLen h) : Nat) % 2 ^ 24)) ∧
    (getB v F.ASC_CTRL_EN = true → step = 0 → Does (.ascEnable t m h n v) s (fun d' =>
      RegsKept d d' [] ∧ HiddenKept d { d' with answer := d.answer })) ∧
    (getB v F.ASC_CTRL_EN = true → step ≠ 0 → d.bit c F.ASC_CTRL_EN = true →
      Does (.ascEnable t m h n v) s (fun d' => d'.bit c F.ASC_CTRL_EN = true ∧ RegsKept d d' [c] ∧
        d'.f nx F.ASC_NEXT_NEXT = d.f nx F.ASC_NEXT_NEXT)) ∧
    (getB v F.ASC_CTRL_EN = false → Does (.ascEnable t m h n v) s (fun d' =>
      d'.bit c F.ASC_CTRL_EN = false ∧ sparseFind (d'.half h).ascPend n.val = none ∧
      BitsKept (d.rd c) (d'.rd c) [F.ASC_CTRL_EN] ∧ RegsKept d d' [c]))

end Sys2Proof.Claims

/-- Angle-step compares fire, wait, skip, and are enabled. What the model chose in it: log 33, 71. -/
def Obligations.AngleStepCompares : Prop :=
  AngleStepCompareFiresRule ∧ AngleStepCompareEnableRule

/-- A crank repeat output falls at its time, rises 40 tk after a forced fall with the high time that half its period
gives, both held while the crank last turned in reverse; where FILL locks it to the reference tooth it counts the next
missing tooth of the wheel table once φ has reached it (R97 to R99). What the model chose in it: log 33, 72. -/
def Obligations.CrankRepeatOutputs : Prop :=
  ∀ (s : State) (t : Tick) (h : Half) (o : Fin 2),
    let d := s.devAt t
    let x := d.crkoOf h o.val
    let w := d.rd (Reg.CRKO_CTRL h o.val)
    let st := Reg.CRKO_STAT h o.val
    let stall := 400000 * d.f (Reg.ANG_STOPCFG h) F.ANG_STOPCFG_STALL
    let forward := d.bit (Reg.SNS_STAT h) F.SNS_STAT_DIR = false
    let only := fun (d' : Dev) (y : Crko) => d'.crkoOf h o.val = y ∧ RegsKept d d' [] ∧
      ∀ p : Nat, p ≠ o.val → d'.crkoOf h p = d.crkoOf h p
    let falls := x.high = true ∧ x.fallT ≤ d.now ∧ forward
    let rises := forward ∧ ∃ t0 : Nat, x.lateT = some t0 ∧ t0 ≤ d.now
    let tr := (d.interp h).track h
    let next := d.nextFill h tr.fill
    (falls → Does (.crkoFall t h o) s (fun d' => only d' { x with high := false })) ∧
    (¬falls → Does (.crkoFall t h o) s (fun d' => d' = d)) ∧
    (rises → Does (.crkoDelayedRise t h o) s (fun d' => only d' { x with
        high := true, riseT := some d.now, lateT := none
        fallT := d.now + (match x.riseT with
          | some r => if stall < d.now - r then 40000 else (d.now - r) / 2
          | none => 40000) })) ∧
    (¬rises → Does (.crkoDelayedRise t h o) s (fun d' => d' = d)) ∧
    (∀ a : Rat, next = some a → a ≤ (tr.phi : Rat) / pow2Q 24 → d.tracking h = true →
      (d.crkoLocks h o.val = true → getB w F.CRKO_CTRL_EN = true → getF w F.CRKO_CTRL_RATIO ≠ 0 →
        Does (.crkoFillEdge t h) s (fun d' =>
          let due := ((x.pos + 1 : Nat) - (getF w F.CRKO_CTRL_PHASE : Int)) % (getF w F.CRKO_CTRL_RATIO : Int) = 0
          (d'.crkoOf h o.val).pos = x.pos + 1 ∧ (d'.track h).fill = a ∧
          RegsKept d d' [Reg.CRKO_STAT h 0, Reg.CRKO_STAT h 1] ∧
          (due → d'.f st F.CRKO_STAT_COUNT = 0 ∧ (d'.crkoOf h o.val).high = !x.high ∧
            (d'.crkoOf h o.val).lateT = (if x.high then some (d.now + 40) else none)) ∧
          (¬due → d'.f st F.CRKO_STAT_COUNT = (d.f st F.CRKO_STAT_COUNT + 1) % 256 ∧
            (d'.crkoOf h o.val).high = x.high ∧ (d'.crkoOf h o.val).lateT = x.lateT))) ∧
      (d.crkoLocks h o.val = false → Does (.crkoFillEdge t h) s (fun d' =>
        d'.crkoOf h o.val = x ∧ d'.rd st = d.rd st))) ∧
    ((∀ a : Rat, next = some a → (tr.phi : Rat) / pow2Q 24 < a) ∨ d.tracking h = false →
      Does (.crkoFillEdge t h) s (fun d' => (d'.half h).crko = (d.half h).crko ∧ RegsKept d d' [] ∧
        (d'.track h).fill = tr.fill))

/-! ### Wheel and synchronisation (05_wheel_and_synchronisation) -/

namespace Sys2Proof.Claims

/-- A sync loss: the record in WHL_LOSS, WHL_LOSSTIME, WHL_CNT and WHL_STAT, then SAFE; what follows the endings
is the crank repeat outputs' count alone. -/
def SyncLost (d d' : Dev) (h : Half) (reason cam t : Nat) : Prop :=
  d'.hmode h = .safe ∧ d'.hmode h.other = d.hmode h.other ∧ d'.mode = d.mode ∧
  ∃ e : Dev,
    e.rd (Reg.WHL_LOSS h) = BitVec.ofNat 32 (reason + 16 * cam + 0x10000 * d.nextIndex h) ∧
    e.rd (Reg.WHL_LOSSTIME h) = Dev.lo32 t ∧ e.bit (Reg.WHL_STAT h) F.WHL_STAT_LOSS = true ∧
    e.f (Reg.WHL_CNT h) F.WHL_CNT_LOSSES = min 0xFFFF (d.f (Reg.WHL_CNT h) F.WHL_CNT_LOSSES + 1) ∧
    RegsKept (e.enterSafe h Dev.rSYNC false) d' [Reg.CRKO_STAT h 0, Reg.CRKO_STAT h 1]

/-- One word went to the tooth log of a half. -/
def Logged (m m' : List Host.Cell) (h : Half) (w : Word) : Prop :=
  ∃ pos : Nat, pos < 8192 ∧ m' = Memory.setWord m (logBase h + 4 * pos) w

/-- A crank edge waits until its qualification time has passed. The validation of a handed-over one: an illegal transition and, in the start-up regime, an edge too soon
after the last are not handed over and counted; another is stored in capture 0. In SAFE it changes no mode, in IDLE
it opens SEEK with its marker (R28, R89, R91). -/
def CrankEdgeValidationRule : Prop :=
  ∀ (s : State) (t : Tick) (h : Half) (e : CrankEdge) (rest : List CrankEdge),
    let d := s.devAt t
    let sense := (d.half h).sense
    let cnt := Reg.SNS_CNT h
    let st := Reg.SNS_STAT h
    let su := d.bit st F.SNS_STAT_REGIME = false
    let soon := ∃ t0 : Nat, sense.lastT = some t0 ∧ su ∧ e.t - t0 < 4 * d.f (Reg.SNS_MININT h) F.SNS_MININT_MIN_INT
    let kept := fun d' : Dev => d'.hmode h = d.hmode h ∧ (d'.half h).wheel = (d.half h).wheel ∧
      (d'.half h).track = (d.half h).track ∧ (d'.half h).sense = { sense with edges := rest, handT := some d.now }
    let stored := fun d' : Dev => (d'.half h).sense = { sense with
      edges := rest, lastT := some e.t, lastRev := e.reverse, handT := some d.now }
    d.capturing h = true → sense.edges = e :: rest → (∀ e' ∈ rest.head?, d.now < e'.due) →
    (d.now < e.due → DoesMem (.crankEdgeHandover t h) s (fun d' m' => d' = d ∧ m' = s.ram)) ∧
    (e.due ≤ d.now → e.illegal = true → DoesMem (.crankEdgeHandover t h) s (fun d' m' => m' = s.ram ∧ kept d' ∧
      d'.bit st F.SNS_STAT_ILLEGAL = true ∧
      d'.f cnt F.SNS_CNT_ILLEGALS = min 0xFFFF (d.f cnt F.SNS_CNT_ILLEGALS + 1) ∧
      (su → d'.f cnt F.SNS_CNT_FAULTS = min 0xFFFF (d.f cnt F.SNS_CNT_FAULTS + 1)) ∧
      (¬su → d'.f cnt F.SNS_CNT_FAULTS = d.f cnt F.SNS_CNT_FAULTS) ∧ RegsKept d d' [st, cnt])) ∧
    (e.due ≤ d.now → e.illegal = false → e.ambiguous = false → soon → DoesMem (.crankEdgeHandover t h) s (fun d' m' =>
      m' = s.ram ∧ kept d' ∧ d'.bit st F.SNS_STAT_MININT_FLT = true ∧
      d'.f cnt F.SNS_CNT_FAULTS = min 0xFFFF (d.f cnt F.SNS_CNT_FAULTS + 1) ∧ RegsKept d d' [st, cnt])) ∧
    (e.due ≤ d.now → e.illegal = false → e.ambiguous = false → ¬soon → d.hmode h = .safe →
      DoesMem (.crankEdgeHandover t h) s (fun d' m' => m' = s.ram ∧ stored d' ∧ d'.hmode h = .safe ∧
        d'.rd (Reg.SNS_CAP_TIME h 0) = Dev.lo32 e.t ∧ d'.bit (Reg.ANG_STAT h) F.ANG_STAT_DIR = e.reverse)) ∧
    (e.due ≤ d.now → e.illegal = false → e.ambiguous = false → ¬soon → d.hmode h = .idle →
      DoesMem (.crankEdgeHandover t h) s (fun d' m' => stored d' ∧ d'.hmode h = .seek ∧
        (d'.half h).wheel.cands = [] ∧ Logged s.ram m' h 0xC1000000))

/-- The window of R107 in PHASE, RUN and crank-based LIMP: an edge below LO is rejected and counted up to MAXREJ,
and past it a sync loss NOISE; below LO or above HI otherwise is a sync loss with its reason; inside, the edge is
accepted with its class; a reverse edge enters RUNDOWN (R28, R107 to R109). -/
def CrankEdgeWindowRule : Prop :=
  ∀ (s : State) (t : Tick) (h : Half) (e : CrankEdge) (rest : List CrankEdge) (t0 : Nat),
    let d := s.devAt t
    let sense := (d.half h).sense
    let x := (d.interp h).track h
    let gap := d.wGap h (d.half h).wheel.k
    let cnt := Reg.WHL_CNT h
    let rej := d.f cnt F.WHL_CNT_REJREV + 1
    let maxrej := d.f (Reg.WHL_SYNCCFG h) F.WHL_SYNCCFG_MAXREJ
    let lost := fun (reason : Nat) (d' : Dev) (m' : List Host.Cell) =>
      SyncLost d d' h reason 0 e.t ∧ Logged s.ram m' h (BitVec.ofNat 32 (0xC5000000 + reason))
    d.capturing h = true → sense.edges = e :: rest → e.due ≤ d.now → (∀ e' ∈ rest.head?, d.now < e'.due) →
    e.illegal = false → e.ambiguous = false → sense.lastT = some t0 → sense.lastRev = false → d.bit (Reg.SNS_STAT h) F.SNS_STAT_REGIME = true →
    d.hmode h = .phase ∨ d.hmode h = .run ∨
      (d.hmode h = .limp ∧ d.bit (Reg.ANG_STAT h) F.ANG_STAT_LIMP_SRC = false) →
    (e.reverse = false → Dev.fit x x.lo x.hi e.t = .below → gap = false → rej ≤ maxrej →
      DoesMem (.crankEdgeHandover t h) s (fun d' m' => m' = s.ram ∧ d'.hmode h = d.hmode h ∧
        d'.bit (Reg.WHL_STAT h) F.WHL_STAT_REJ = true ∧ d'.f (Reg.WHL_STAT h) F.WHL_STAT_CLASS = 4 ∧
        d'.f cnt F.WHL_CNT_REJREV = min rej 15 ∧
        d'.f cnt F.WHL_CNT_REJTOT = min 0xFF (d.f cnt F.WHL_CNT_REJTOT + 1) ∧
        (d'.half h).wheel.k = (d.half h).wheel.k ∧ (d'.half h).track = (d.half h).track)) ∧
    (e.reverse = false → Dev.fit x x.lo x.hi e.t = .below → gap = false → maxrej < rej →
      DoesMem (.crankEdgeHandover t h) s (lost 4)) ∧
    (e.reverse = false → Dev.fit x x.lo x.hi e.t = .below → gap = true →
      DoesMem (.crankEdgeHandover t h) s (lost 2)) ∧
    (e.reverse = false → Dev.fit x x.lo x.hi e.t = .above → gap = true →
      DoesMem (.crankEdgeHandover t h) s (lost 3)) ∧
    (e.reverse = false → Dev.fit x x.lo x.hi e.t = .above → gap = false →
      DoesMem (.crankEdgeHandover t h) s (lost 1)) ∧
    (e.reverse = false → Dev.fit x x.lo x.hi e.t = .inside →
      DoesMem (.crankEdgeHandover t h) s (fun d' m' => ∃ y : Dev,
        let late := decide (x.clamp ≤ x.phi)
        let early := !late && decide ((x.phi : Rat) / pow2Q 24 < x.ak + x.dk)
        y.f (Reg.WHL_STAT h) F.WHL_STAT_CLASS = (if gap then 1 else if late then 3 else if early then 2 else 0) ∧
        y.rd (Reg.SNS_CAP_TIME h 0) = Dev.lo32 e.t ∧ (y.half h).track = (d.half h).track ∧
        let z := Dev.acceptCrank (y, s.ram) h e.t (some (e.t - t0)) late (early && !gap)
        m' = z.2 ∧ RegsKept z.1 d' [Reg.CRKO_STAT h 0, Reg.CRKO_STAT h 1] ∧ d'.hmode h = z.1.hmode h)) ∧
    (e.reverse = true → DoesMem (.crankEdgeHandover t h) s (fun d' _ => d'.hmode h = .rundown ∧ d'.hmode h.other = d.hmode h.other))

end Sys2Proof.Claims

/-- A handed-over crank edge is validated and tested against its window. What the model chose in it: log 29, 30. -/
def Obligations.CrankEdgeValidationAndWindow : Prop :=
  CrankEdgeValidationRule ∧ CrankEdgeWindowRule

namespace Sys2Proof.Claims

/-- The oldest waiting edge of a cam, its time come, with nothing before it in the order of R122: no crank edge whose
time has come, and no edge of a lower cam. -/
def CamFront (d : Dev) (h : Half) (c : Fin 4) (e : CamEdge) : Prop :=
  let sense := (d.half h).sense
  d.capturing h = true ∧ sense.cams.find? (fun x => decide (x.cam = c.val)) = some e ∧ e.due ≤ d.now ∧
    (∀ x ∈ sense.edges.head?, d.now < x.due) ∧ ∀ x ∈ sense.cams, x.cam < c.val → d.now < x.due

/-- A cam edge outside the modes and cams in which it decides anything is captured and nothing else; one whose
qualification time has not passed waits (R84, R91, R122). -/
def CamEdgeCaptureRule : Prop :=
  ∀ (s : State) (t : Tick) (h : Half) (c : Fin 4) (e : CamEdge),
    let d := s.devAt t
    let sense := (d.half h).sense
    let cam := d.bit (Reg.ANG_STAT h) F.ANG_STAT_LIMP_SRC
    let uses := (d.hmode h = .phase ∧ d.phaseCam h c.val = true) ∨ (d.hmode h = .run ∧ d.phaseCam h c.val = true) ∨
      (d.hmode h = .limp ∧ cam = false ∧ d.phaseCam h c.val = true) ∨
      (d.hmode h = .limp ∧ cam = true ∧ d.f (Reg.WHL_CAMCFG h) F.WHL_CAMCFG_LIMPCAM = c.val)
    let time := Reg.SNS_CAP_TIME h (2 + c.val)
    let st := Reg.SNS_CAP_STAT h (2 + c.val)
    let ovr := d.bit st F.SNS_CAP_STAT_OVR || d.bit st F.SNS_CAP_STAT_NEW
    (CamFront d h c e → ¬uses → DoesMem (.camEdgeHandover t h c) s (fun d' m' => m' = s.ram ∧
      d'.rd time = Dev.lo32 e.t ∧ d'.bit st F.SNS_CAP_STAT_NEW = true ∧ d'.bit st F.SNS_CAP_STAT_OVR = ovr ∧
      d'.bit st F.SNS_CAP_STAT_LEVEL = e.level ∧
      d'.half h = { d.half h with sense := { sense with cams := sense.cams.erase e } } ∧
      d'.half h.other = d.half h.other ∧ RegsKept d d' [time, st])) ∧
    ((∀ x ∈ sense.edges.head?, d.now < x.due) → (∀ x ∈ sense.cams, d.now < x.due) →
      DoesMem (.camEdgeHandover t h c) s (fun d' m' => d' = d ∧ m' = s.ram))

/-- The vote of a phase cam edge in PHASE (R113): an edge that fits one revolution alone votes for it, one that fits
neither is a cam error, votes for both are a cam error and start anew; NDEC votes decide the cycle phase, enter RUN,
and for the second revolution move the index with a marker. The edge counts for R116, and its entry as matched (R115). -/
def CamPhaseVoteRule : Prop :=
  ∀ (s : State) (t : Tick) (h : Half) (c : Fin 4) (e : CamEdge),
    let d := s.devAt t
    let w := (d.half h).wheel
    let a : Int := (d.phi h).floor
    let u0 := d.camNear h c.val a e.level
    let u1 := d.camNear h c.val (a + rev) e.level
    let m0 := u0.isSome
    let m1 := u1.isSome
    let ndec := d.f (Reg.WHL_CAMCFG h) F.WHL_CAMCFG_NDEC
    let err : Fld := ⟨8 * c.val + 7, 8 * c.val⟩
    let camErr := fun d' : Dev => d'.bit (Reg.WHL_STAT h) F.WHL_STAT_CAMERR = true ∧
      d'.f (Reg.WHL_CAMERR h) err = min 0xFF (d.f (Reg.WHL_CAMERR h) err + 1)
    let votes := fun (d' : Dev) (n0 n1 : Nat) => d'.hmode h = .phase ∧
      { (d'.half h).wheel with camSeen := w.camSeen } = { w with v0 := n0, v1 := n1, camSince := w.camSince + 1 } ∧
      ∀ u : Int, some u = u0 ∨ some u = u1 → (c.val, u) ∈ (d'.half h).wheel.camSeen
    CamFront d h c e → d.hmode h = .phase → d.phaseCam h c.val = true → 0 < ndec →
    (m0 = true → m1 = false → w.v1 = 0 → ndec ≤ w.v0 + 1 → DoesMem (.camEdgeHandover t h c) s (fun d' m' =>
      m' = s.ram ∧ d'.hmode h = .run ∧ (d'.half h).wheel.k = w.k ∧
      d'.bit (Reg.WHL_STAT h) F.WHL_STAT_PH_DEC = true)) ∧
    (m0 = false → m1 = true → w.v0 = 0 → ndec ≤ w.v1 + 1 → DoesMem (.camEdgeHandover t h c) s (fun d' m' =>
      let k := (w.k + d.nent h) % max 1 (d.edges h)
      d'.hmode h = .run ∧ (d'.half h).wheel.k = k ∧ d'.f (Reg.WHL_POS h) F.WHL_POS_INDEX = k % 512 ∧
      d'.bit (Reg.WHL_STAT h) F.WHL_STAT_PH_DEC = true ∧
      Logged s.ram m' h (BitVec.ofNat 32 (0xC3000000 + k % 0x1000000)))) ∧
    (m0 = true → m1 = false → w.v1 = 0 → w.v0 + 1 < ndec → DoesMem (.camEdgeHandover t h c) s (fun d' m' =>
      m' = s.ram ∧ votes d' (w.v0 + 1) 0)) ∧
    (m0 = false → m1 = true → w.v0 = 0 → w.v1 + 1 < ndec → DoesMem (.camEdgeHandover t h c) s (fun d' m' =>
      m' = s.ram ∧ votes d' 0 (w.v1 + 1))) ∧
    (m0 = true → m1 = false → 0 < w.v1 → DoesMem (.camEdgeHandover t h c) s (fun d' m' =>
      m' = s.ram ∧ votes d' 0 0 ∧ camErr d')) ∧
    (m0 = false → m1 = true → 0 < w.v0 → DoesMem (.camEdgeHandover t h c) s (fun d' m' =>
      m' = s.ram ∧ votes d' 0 0 ∧ camErr d')) ∧
    (m0 = m1 → w.v0 = 0 ∨ w.v1 = 0 → w.v0 < ndec → w.v1 < ndec → DoesMem (.camEdgeHandover t h c) s (fun d' m' =>
      m' = s.ram ∧ votes d' w.v0 w.v1 ∧ (m0 = false → camErr d')))

end Sys2Proof.Claims

/-- Cam edges are captured and vote for the cycle phase. -/
def Obligations.CamEdgesAndVote : Prop :=
  CamEdgeCaptureRule ∧ CamPhaseVoteRule

/-- The check of a phase cam edge in RUN (R115, R116): a match keeps the mode, ends the run of errors, and CAMLOSS of
them bring a lost cam back; a match of the other revolution alone is a sync loss PHASE; no match is a cam error, and
CAMLOSS in a row that leave no phase cam enter crank-based LIMP; CRKLOSS edges with φ at the clamp lose the crank,
into cam-based LIMP where it is configured, else as a sync loss CRANK. An entry that φ has passed by TOL with no match
is such an error. What the model chose in it: log 28. -/
def Obligations.CamCheckAndLimp : Prop :=
  ∀ (s : State) (t : Tick) (h : Half) (c : Fin 4) (e : CamEdge),
    let d := s.devAt t
    let w := (d.half h).wheel
    let x := (d.interp h).track h
    let a : Int := (d.phi h).floor
    let m0 := (d.camNear h c.val a e.level).isSome
    let m1 := d.cyc720 h && (d.camNear h c.val (a + rev) e.level).isSome
    let err : Fld := ⟨8 * c.val + 7, 8 * c.val⟩
    let lostBit : Fld := ⟨24 + c.val, 24 + c.val⟩
    let gone := decide (x.clamp ≤ x.phi) && decide (d.f (Reg.WHL_SYNCCFG h) F.WHL_SYNCCFG_CRKLOSS ≤ w.camSince + 1)
    let loss := d.f (Reg.WHL_CAMCFG h) F.WHL_CAMCFG_CAMLOSS
    let bad := Dev.camCount w.camBad c.val + 1
    let good := Dev.camCount w.camGood c.val + 1
    let counted := fun d' : Dev => d'.bit (Reg.WHL_STAT h) F.WHL_STAT_CAMERR = true ∧
      d'.f (Reg.WHL_CAMERR h) err = min 0xFF (d.f (Reg.WHL_CAMERR h) err + 1)
    let onlyCam := d.camLost h c.val = false ∧ ∀ p : Nat, p < 4 → p ≠ c.val → d.phaseCam h p = true → d.camLost h p = true
    let lost := fun (reason cam : Nat) (d' : Dev) (m' : List Host.Cell) =>
      SyncLost d d' h reason cam e.t ∧ Logged s.ram m' h (BitVec.ofNat 32 (0xC5000000 + reason))
    d.hmode h = .run → d.phaseCam h c.val = true →
    (CamFront d h c e →
      (m0 = true → gone = false → d.camLost h c.val = false → DoesMem (.camEdgeHandover t h c) s (fun d' m' =>
        m' = s.ram ∧ d'.hmode h = .run ∧ Dev.camCount (d'.half h).wheel.camBad c.val = 0 ∧
        (d'.half h).wheel.camSince = w.camSince + 1)) ∧
      (m0 = true → gone = false → d.camLost h c.val = true → DoesMem (.camEdgeHandover t h c) s (fun d' m' =>
        m' = s.ram ∧ d'.hmode h = .run ∧ Dev.camCount (d'.half h).wheel.camBad c.val = 0 ∧
        (good < loss → d'.camLost h c.val = true ∧ Dev.camCount (d'.half h).wheel.camGood c.val = good) ∧
        (loss ≤ good → d'.camLost h c.val = false))) ∧
      (m0 = false → m1 = true → gone = false ∨ d.limpCamOk h = true →
        DoesMem (.camEdgeHandover t h c) s (lost 5 c.val)) ∧
      (gone = true → d.limpCamOk h = false → DoesMem (.camEdgeHandover t h c) s (lost 6 0)) ∧
      (gone = true → d.limpCamOk h = true → (m0 = true ∨ m1 = false) → DoesMem (.camEdgeHandover t h c) s (fun d' m' =>
        d'.hmode h = .limp ∧ d'.bit (Reg.ANG_STAT h) F.ANG_STAT_LIMP_SRC = true ∧
        d'.bit (Reg.WHL_STAT h) F.WHL_STAT_CRKLOST = true ∧ Logged s.ram m' h 0xC6000001)) ∧
      (m0 = false → m1 = false → gone = false → bad < loss → DoesMem (.camEdgeHandover t h c) s (fun d' m' =>
        m' = s.ram ∧ d'.hmode h = .run ∧ counted d' ∧ Dev.camCount (d'.half h).wheel.camBad c.val = bad)) ∧
      (m0 = false → m1 = false → gone = false → loss ≤ bad → onlyCam → DoesMem (.camEdgeHandover t h c) s (fun d' m' =>
        d'.hmode h = .limp ∧ counted d' ∧ d'.bit (Reg.ANG_STAT h) F.ANG_STAT_LIMP_SRC = false ∧
        d'.bit (Reg.WHL_STAT h) lostBit = true ∧ Logged s.ram m' h 0xC6000000))) ∧
    (∀ u : Int, sparseFind w.camAt c.val = some u → w.camSeen.contains (c.val, u) = false →
      (((u + d.tol h : Int) : Rat) < d.phi h → bad < loss → DoesMem (.camMissingEdge t h c) s (fun d' m' =>
        m' = s.ram ∧ counted d' ∧ d'.hmode h = .run ∧ Dev.camCount (d'.half h).wheel.camBad c.val = bad ∧
        RegsKept d d' [Reg.WHL_CAMERR h, Reg.WHL_STAT h])) ∧
      (((u + d.tol h : Int) : Rat) < d.phi h → loss ≤ bad → onlyCam → DoesMem (.camMissingEdge t h c) s (fun d' m' =>
        counted d' ∧ d'.hmode h = .limp ∧ d'.bit (Reg.ANG_STAT h) F.ANG_STAT_LIMP_SRC = false ∧
        Logged s.ram m' h 0xC6000000)) ∧
      (d.phi h ≤ ((u + d.tol h : Int) : Rat) → DoesMem (.camMissingEdge t h c) s (fun d' m' => m' = s.ram ∧
        RegsKept d d' [] ∧ d'.hmode h = .run ∧ sparseFind (d'.half h).wheel.camAt c.val = some u ∧
        (d'.half h).wheel.camBad = w.camBad))) ∧
    (sparseFind w.camAt c.val = none → DoesMem (.camMissingEdge t h c) s (fun d' m' => m' = s.ram ∧
      RegsKept d d' [] ∧ d'.hmode h = .run ∧ (d'.half h).wheel.camBad = w.camBad))

namespace Sys2Proof.Claims

/-- Stall, rundown and park (R28, R122, R154, R155): with no edge of the cycle left to process, no edge for the stall
timeout ends SEEK in IDLE, a tracking mode in RUNDOWN and RUNDOWN in IDLE with the park report; a time since the last
accepted edge above the interval divided by the rundown speed ends a tracking mode in RUNDOWN; sooner neither acts. -/
def StallAndParkRule : Prop :=
  ∀ (s : State) (t : Tick) (h : Half),
    let d := s.devAt t
    let w := (d.half h).wheel
    let sense := (d.half h).sense
    let stop := Reg.ANG_STOPCFG h
    let long := fun t0 : Nat => t0 + 400000 * d.f stop F.ANG_STOPCFG_STALL ≤ d.now
    let due := sense.handT ≠ some d.now ∧ (d.tracking h = true → long (d.track h).tPrev) ∧
      (d.tracking h = false → ∀ t0 : Nat, sense.lastT = some t0 → long t0)
    let span : Rat := if d.hmode h = .limp ∧ d.bit (Reg.ANG_STAT h) F.ANG_STAT_LIMP_SRC = true then (d.track h).dk
      else ofN (d.dTab h w.k)
    let slow := span < (ofN d.now - ofN (d.track h).tPrev) * (ofN (d.f stop F.ANG_STOPCFG_RDSPD) * 24576 / 100000000)
    let down := fun (d' : Dev) (m' : List Host.Cell) => d'.hmode h = .rundown ∧ d'.hmode h.other = d.hmode h.other ∧
      d'.rd (Reg.ANG_ACCEL h) = 0 ∧ d'.bit (Reg.WHL_STAT h) F.WHL_STAT_SYNC = false ∧ Logged s.ram m' h 0xC7000000
    let kept := fun (d' : Dev) (m' : List Host.Cell) => m' = s.ram ∧ d' = d
    (∀ x ∈ sense.edges.head?, d.now < x.due) → (∀ x ∈ sense.cams, d.now < x.due) →
    (due → d.hmode h = .seek → DoesMem (.stallTimeout t h) s (fun d' m' => m' = s.ram ∧ d'.hmode h = .idle ∧
      d'.rd (Reg.ANG_SPEED h) = 0 ∧ d'.rd (Reg.ANG_RPM h) = 0 ∧ (d'.half h).wheel.cands = [])) ∧
    (due → d.tracking h = true → DoesMem (.stallTimeout t h) s down) ∧
    (d.tracking h = true → slow → DoesMem (.rundownSpeedTimeout t h) s down) ∧
    (d.tracking h = false ∨ ¬slow → DoesMem (.rundownSpeedTimeout t h) s kept) ∧
    (due → d.hmode h = .rundown → DoesMem (.stallTimeout t h) s (fun d' m' => d'.hmode h = .idle ∧
      d'.rd (Reg.ANG_PARK h) = BitVec.ofNat 32 (Dev.wrapA (d.cycLen h) (d.edgeAng s.ram h w.k)) ∧
      d'.f (Reg.ANG_PARKIDX h) F.ANG_PARKIDX_INDEX = w.k % 512 ∧
      d'.bit (Reg.ANG_PARKIDX h) F.ANG_PARKIDX_DIR = sense.lastRev ∧
      d'.bit (Reg.ANG_PARKIDX h) F.ANG_PARKIDX_PHK = w.phk ∧
      d'.bit (Reg.ANG_PARKIDX h) F.ANG_PARKIDX_VALID = true ∧
      d'.rd (Reg.ANG_PARKTIME h) = Dev.lo32 (sense.lastT.getD 0) ∧
      Dev.srcOf h 0x38 ∈ d'.irq.raised ∧ Logged s.ram m' h (BitVec.ofNat 32 (0xC8000000 + w.k % 0x1000000)))) ∧
    (¬due ∨ d.hmode h = .idle ∨ d.hmode h = .safe ∨ d.hmode h = .off → DoesMem (.stallTimeout t h) s kept)

/-- Resync (R28, R119): a write of 0x5359 to WHL_RESYNC in SAFE permits it, any other changes nothing; a permitted
half enters SEEK with its counts cleared and the permit used up, another stays; WHL_CNTCLR clears the counts but for what
the hardware counted in the same cycle (R11). -/
def ResyncRule : Prop :=
  ∀ (s : State) (t : Tick) (m : Master) (h : Half) (v : Word),
    let d := s.devAt t
    let st := Reg.WHL_STAT h
    (d.reach (Reg.WHL_RESYNC h) true = true →
      (v = 0x5359 → d.hmode h = .safe → Does (.resyncPermit t m h v) s (fun d' =>
        d'.bit st F.WHL_STAT_RESYNC_PERM = true ∧ BitsKept (d.rd st) (d'.rd st) [F.WHL_STAT_RESYNC_PERM] ∧
        RegsKept d d' [st] ∧ HiddenKept d { d' with answer := d.answer })) ∧
      (v ≠ 0x5359 ∨ d.hmode h ≠ .safe → Does (.resyncPermit t m h v) s (fun d' =>
        RegsKept d d' [] ∧ HiddenKept d { d' with answer := d.answer }))) ∧
    (d.resyncOk h = true → DoesMem (.resync t h) s (fun d' m' => d'.hmode h = .seek ∧
      d'.hmode h.other = d.hmode h.other ∧ d'.bit st F.WHL_STAT_RESYNC_PERM = false ∧
      d'.f st F.WHL_STAT_CAMLOST = 0 ∧ d'.bit st F.WHL_STAT_CRKLOST = false ∧
      d'.f (Reg.WHL_CNT h) F.WHL_CNT_REJREV = 0 ∧ d'.bit (Reg.ANG_PARKIDX h) F.ANG_PARKIDX_VALID = false ∧
      (d'.half h).wheel.cands = [] ∧ Logged s.ram m' h 0xC1000000)) ∧
    (d.resyncOk h = false → DoesMem (.resync t h) s (fun d' m' => m' = s.ram ∧ d' = d)) ∧
    (d.reach (Reg.WHL_CNTCLR h) true = true → Does (.whlCountClear t m h v) s (fun d' =>
      (∀ x ∈ [F.WHL_CNT_LOSSES, F.WHL_CNT_REJTOT],
        d'.f (Reg.WHL_CNT h) x = d.f (Reg.WHL_CNT h) x - getF (d.oldRd (Reg.WHL_CNT h)) x) ∧
      (∀ x ∈ [F.WHL_CAMERR_ERR0, F.WHL_CAMERR_ERR1, F.WHL_CAMERR_ERR2, F.WHL_CAMERR_ERR3],
        d'.f (Reg.WHL_CAMERR h) x = d.f (Reg.WHL_CAMERR h) x - getF (d.oldRd (Reg.WHL_CAMERR h)) x) ∧
      BitsKept (d.rd (Reg.WHL_CNT h)) (d'.rd (Reg.WHL_CNT h)) [F.WHL_CNT_LOSSES, F.WHL_CNT_REJTOT] ∧
      RegsKept d d' [Reg.WHL_CNT h, Reg.WHL_CAMERR h] ∧ HiddenKept d { d' with answer := d.answer }))

end Sys2Proof.Claims

/-- Stall, rundown, park and resync. What the model chose in it: log 29, 32. -/
def Obligations.StallParkAndResync : Prop :=
  StallAndParkRule ∧ ResyncRule

/-! ### Angle and speed (06_angle_and_speed) -/

namespace Sys2Proof.Claims

/-- Byte `a` of RAM lies in the wheel-error table, or in the ripple table, of a half. -/
def inW (h : Half) (a : Nat) : Bool := decide (learnBase h ≤ a ∧ a < learnBase h + 0x400)

/-- The same for the ripple profile. -/
def inP (h : Half) (a : Nat) : Bool := decide (learnBase h + 0x400 ≤ a ∧ a < learnBase h + 0xC00)

end Sys2Proof.Claims

/-- The learned tables (R133, R143, R146, R147): a write of ANG_LEARNCTL sets the enables and clears what it names,
with its count and flag; a direct write takes effect in IDLE, SAFE or a half that does not run, with that table's
learning off, and is a bus error otherwise; the adjustment takes the means from both; the derivation gives the tables
used from the next accepted edge, outside cam-based LIMP. What the model chose in it: log 30, 31. -/
def Obligations.LearnedTables : Prop :=
  ∀ (s : State) (t : Tick) (m : Master) (h : Half) (v : Word) (j : Fin 768) (c : Instr),
    let d := s.devAt t
    let we := getB v F.ANG_LEARNCTL_WE_CLR
    let rip := getB v F.ANG_LEARNCTL_RIP_CLR
    let cnt := Reg.ANG_LEARNCNT h
    let st := Reg.ANG_LEARNSTAT h
    let ctl := Reg.ANG_LEARNCTL h
    let l := d.edges h
    (d.reach ctl true = true → (c = .weClear t m h v ∨ c = .ripClear t m h v) → DoesMem c s (fun d' m' =>
      (∀ a : Nat, Memory.byte m' a = if (we = true ∧ inW h a = true) ∨ (rip = true ∧ inP h a = true) then 0 else Memory.byte s.ram a) ∧
      d'.bit ctl F.ANG_LEARNCTL_WE_EN = getB v F.ANG_LEARNCTL_WE_EN ∧
      d'.bit ctl F.ANG_LEARNCTL_RIP_EN = getB v F.ANG_LEARNCTL_RIP_EN ∧
      (we = true → d'.f cnt F.ANG_LEARNCNT_WE_CYC = 0 ∧ d'.bit st F.ANG_LEARNSTAT_WE_CONV = false) ∧
      (rip = true → d'.f cnt F.ANG_LEARNCNT_RIP_CYC = 0 ∧ d'.bit st F.ANG_LEARNSTAT_RIP_CONV = false ∧
        (d'.track h).ripple = [] ∧ (d'.track h).next = none) ∧
      (rip = false → d'.track h = d.track h) ∧ d'.half h.other = d.half h.other ∧
      RegsKept d d' ([ctl] ++ if we = true ∨ rip = true then [cnt, st] else []))) ∧
    (d.reach (learnBase h + 4 * j.val) true = true →
      (d.learnWritable h j.val = true → DoesMem (.learnedTableWrite t m h j v) s (fun d' m' =>
        Memory.word m' (learnBase h + 4 * j.val) = v ∧
        (∀ a : Nat, (a < learnBase h + 4 * j.val ∨ learnBase h + 4 * j.val + 4 ≤ a) →
          Memory.byte m' a = Memory.byte s.ram a) ∧ d'.answer = ⟨false, 0⟩ ∧ { d' with answer := d.answer } = d)) ∧
      (d.learnWritable h j.val = false → DoesMem (.learnedTableWrite t m h j v) s (fun d' m' =>
        m' = s.ram ∧ d'.answer = ⟨true, 0⟩ ∧ { d' with answer := d.answer } = d))) ∧
    (l ≤ 512 → DoesMem (.learnedTableAdjust t h) s (fun d' m' => d' = d ∧
      let ks := List.range l
      let mw := roundAway ((ks.foldl (fun a k => a + wErr s.ram h k) 0 : Int) / ofN (max 1 l))
      let mp := roundAway (ks.foldl (fun a k => a + (pRip s.ram h k : Rat) * d.dEdge s.ram h k) (0 : Rat) /
        ofN (max 1 (d.cycLen h)))
      (∀ k : Nat, k < l → wErr m' h k = clampI (-32768) 32767 (wErr s.ram h k - mw) ∧
        pRip m' h k = clampI (-(2 ^ 31)) (2 ^ 31 - 1) (pRip s.ram h k - mp)) ∧
      ∀ a : Nat, inW h a = false → inP h a = false → Memory.byte m' a = Memory.byte s.ram a)) ∧
    (d.bit (Reg.ANG_STAT h) F.ANG_STAT_LIMP_SRC = false → DoesMem (.rippleDerivation t h) s (fun d' m' =>
      m' = s.ram ∧ d' = d.setTrack h { d.track h with next := some (deriveRipple d s.ram h) })) ∧
    (d.bit (Reg.ANG_STAT h) F.ANG_STAT_LIMP_SRC = true → DoesMem (.rippleDerivation t h) s (fun d' m' =>
      m' = s.ram ∧ d' = d))

namespace Sys2Proof.Claims

/-- A read of ANG_ANGLE returns φ of the present tick within the cycle, in the cycle of a jump φ before it, and latches
its tick for the master that reads; φ itself, every register and every hidden state stay as they are (R142). -/
def AngleReadLatchesRule : Prop :=
  ∀ (s : State) (t : Tick) (m : Master) (h : Half),
    let d := s.devAt t
    let key := 64 * Dev.halfNo h + Dev.portNo m
    let phi : Rat := match (d.track h).jumpOld with
      | some (t0, p) => if t0 = d.now then (p : Rat) / pow2Q 24 else d.phi h
      | none => d.phi h
    d.reach (Reg.ANG_ANGLE h) false = true →
    Does (.angleRead t m h) s (fun d' =>
      d'.answer = ⟨false, BitVec.ofNat 32 (Dev.wrapA (d.cycLen h) phi)⟩ ∧
      sparseGet 0 d'.angLatch key = Dev.lo32 d.now ∧
      (∀ k : Nat, k ≠ key → sparseGet 0 d'.angLatch k = sparseGet 0 d.angLatch k) ∧
      { d' with answer := d.answer, angLatch := d.angLatch } = d)

/-- The clamp and the catch-up (R137 to R140, R142): φ at the clamp is held there and shown; the end of a catch-up is
shown once φ has met m or the clamp; one that has met neither after 25,600 tk ends by a jump of the remainder, at most to
the clamp. -/
def ClampAndCatchUpRule : Prop :=
  ∀ (s : State) (t : Tick) (h : Half),
    let d := s.devAt t
    let x := (d.interp h).track h
    let st := Reg.ANG_STAT h
    let shows := fun (d' : Dev) (clamped : Bool) =>
      d'.bit st F.ANG_STAT_CLAMPED = clamped ∧ d'.bit st F.ANG_STAT_CATCHING = false ∧
      d'.f (Reg.ANG_CLAMP h) F.ANG_CLAMP_CLAMP = Dev.wrapA (d.cycLen h) ((x.clamp : Rat) / pow2Q 24) % 2 ^ 24
    let y := max x.phi (min x.m x.clamp)
    (d.tracking h = true → x.clamp ≤ x.phi → Does (.clampReached t h) s (fun d' =>
      shows d' true ∧ d'.half h = { d.half h with track := { x with clamped := true, catching := false } } ∧
      d'.half h.other = d.half h.other ∧ RegsKept d d' [st, Reg.ANG_CLAMP h])) ∧
    (d.tracking h = false ∨ x.phi < x.clamp → Does (.clampReached t h) s (fun d' => d' = d.interp h)) ∧
    (d.tracking h = true → x.catching = false → Does (.catchupEnd t h) s (fun d' =>
      let z := decide (x.clamp ≤ x.phi) || x.clamped
      shows d' z ∧ d'.half h = { d.half h with track := { x with clamped := z, catching := false } } ∧
      d'.half h.other = d.half h.other ∧ RegsKept d d' [st, Reg.ANG_CLAMP h])) ∧
    (d.tracking h = false ∨ x.catching = true → Does (.catchupEnd t h) s (fun d' => d' = d.interp h)) ∧
    (d.tracking h = true → x.catching = true → x.cuStart + 25600 ≤ d.now → Does (.catchupTimeout t h) s (fun d' =>
      let z := decide (x.clamp ≤ y) || x.clamped
      shows d' z ∧ d'.bit st F.ANG_STAT_CU_TMO = true ∧ d'.bit st F.ANG_STAT_JUMPED = true ∧
      d'.track h = { x with
        phi := y, catching := false, jumped := true, clamped := z
        jumpOld := some (d.now, match x.jumpOld with
          | some (t0, p) => if t0 = d.now then p else x.phi
          | none => x.phi) } ∧
      (d'.half h).learn.segBad = true ∧ d'.half h.other = d.half h.other)) ∧
    (d.tracking h = false ∨ x.catching = false ∨ d.now < x.cuStart + 25600 → Does (.catchupTimeout t h) s (fun d' =>
      d' = d.interp h))

end Sys2Proof.Claims

/-- Angle reads, the clamp and the catch-up. What the model chose in it: log 6, 30. -/
def Obligations.AngleClampAndCatchUp : Prop :=
  AngleReadLatchesRule ∧ ClampAndCatchUpRule

/-- The evaluator lanes (R18 to R21, R130, R171, R414): the tooth pass switches every prediction at once, from the
coefficients that the pre-pass left, takes the gains of the band and tests the pending starts (no switch waiting for
its end); the pre-pass leaves for every channel with an angle target its time without residual and its change per tick
of it; a single evaluation replaces one prediction and tests that channel alone. What the model chose in it: log 4,
34, 73, 74. -/
def Obligations.ToothPass : Prop :=
  ∀ (s : State) (t : Tick) (h : Half) (c : Fin 256),
    let d := s.devAt t
    let k := d.track h
    let cam := d.bit (Reg.ANG_STAT h) F.ANG_STAT_LIMP_SRC
    let te : Rat := ofN k.tExp / 65536
    let ex : Rat := if te = ofN k.tPrev then 1 else te - ofN k.tPrev
    let md : Model := ⟨k.ak + k.dk, k.omegaExp, k.alpha, ofN (d.cycLen h), k.ripple⟩
    let kb : Rat × Rat × Rat × Rat := (k.omegaExp * (1 - ofN k.kt / 1024), -(ofN k.kw / 1024) * k.omegaExp / ex,
      -2 * (ofN k.ka / 4096) * k.omegaExp / (ex * ex), 1)
    let seed := fun a : Int => match (d.chan h c.val).pred with
      | some p => ofN p / 65536 - te
      | none => if k.omegaExp ≤ 0 then 0 else ((a : Rat) - md.theta) / k.omegaExp
    let noSwitch := (∀ (g : Half) (y : Commit), (d.half g).commit = some y → y.reached = false) ∧
      ∀ y : Ctx, d.ctx = some y → y.reached = false
    (noSwitch → (k.passing = true → sparseSorted (d.half h).chans = true → Does (.toothPassEnd t h) s (fun d' => ∃ e : Dev,
      e.track h = { k with passing := false, prepass := true
                           kt := d.f (Reg.ANG_BANDG h k.band) F.ANG_BANDG_KT
                           kw := d.f (Reg.ANG_BANDG h k.band) F.ANG_BANDG_KW
                           ka := if cam then 0 else d.f (Reg.ANG_BANDG h k.band) F.ANG_BANDG_KA } ∧
      (∀ (a : Int) (p : Rat × Rat), d.angleTarget h c.val = some a → (d.chan h c.val).coef = some p →
        (e.chan h c.val).pred = some (Dev.absTime k.tPrev (p.1 + p.2 * k.resid - ofN k.tPrev)) ∧
        (e.chan h c.val).coef = none) ∧
      (d.angleTarget h c.val = none → e.chan h c.val = d.chan h c.val ∧
        e.rd (Reg.EVC_PRED h c.val) = d.rd (Reg.EVC_PRED h c.val)) ∧
      d' = e.lateTests h k.jumped (k.catching && k.early))) ∧
     (k.passing = false → Does (.toothPassEnd t h) s (fun d' => d' = d))) ∧
    ((k.prepass = true → d.issuing h = true → Does (.prePassEnd t h) s (fun d' =>
      d'.track h = { k with prepass := false } ∧
      (∀ a : Int, d.angleTarget h c.val = some a →
        let r := md.coefs (a : Rat) (seed a) kb
        (d'.chan h c.val).coef = some (te + r.1.1, r.1.2)) ∧
      (d.angleTarget h c.val = none → (d'.chan h c.val).coef = (d.chan h c.val).coef) ∧
      { d'.chan h c.val with coef := (d.chan h c.val).coef } = d.chan h c.val ∧
      RegsKept d d' [Reg.ANG_STAT h] ∧ BitsKept (d.rd (Reg.ANG_STAT h)) (d'.rd (Reg.ANG_STAT h)) [F.ANG_STAT_LINFB])) ∧
    (k.prepass = false ∨ d.issuing h = false → Does (.prePassEnd t h) s (fun d' => d' = d))) ∧
    (∀ a : Int, d.issuing h = true → d.angleTarget h c.val = some a → Does (.channelEvaluationDone t h c) s (fun d' =>
      ∃ e : Dev, (e.chan h c.val).pred = some (Dev.absTime k.tPrev ((d.model h).predict (a : Rat) none).1) ∧
        (e.chan h c.val).coef = none ∧ (e.chan h c.val).occ = (d.chan h c.val).occ ∧
        RegsKept d e [Reg.EVC_PRED h c.val, Reg.EVC_STAT h c.val, Reg.ANG_STAT h] ∧
        d' = (e.fixPassed h c.val).lateTest h c.val false false)) ∧
    (d.issuing h = false → Does (.channelEvaluationDone t h c) s (fun d' => d' = d))

/-! ### Event channels and the scheduler (07_event_channels, 08_event_scheduler) -/

namespace Sys2Proof.Claims

/-- An occurrence of a channel dropped (`cut` false) or cut: flag, reason, count, its slot free, a pending occurrence
or none after it; no register outside the channel's, EVC_SUM, the bank's status of a deferred start and `also`. -/
def Dropped (d d' : Dev) (h : Half) (c reason : Nat) (cut : Bool) (also : List Nat) : Prop :=
  let st := Reg.EVC_STAT h c
  d'.f st F.EVC_STAT_REASON = reason ∧
  d'.bit st (if cut then F.EVC_STAT_CUT else F.EVC_STAT_DROP) = true ∧
  d'.f st F.EVC_STAT_DROPS = min 0xFF (d.f st F.EVC_STAT_DROPS + 1) ∧
  d'.bit st F.EVC_STAT_INFLIGHT = false ∧ d'.bit st F.EVC_STAT_WAITING = false ∧
  (d.drpBit h c = false → Dev.srcOf h (0x10 + c / 16) ∈ d'.irq.raised) ∧
  (d'.chan h c).slot = none ∧ ((d'.chan h c).occ = .pending ∨ (d'.chan h c).occ = .none) ∧
  RegsKept d d' ([st, Reg.EVC_SUM h, Reg.EVC_PRED h c] ++
    (if (d.chan h c).occ = .deferred then [Reg.DRV_BANKSTAT h ((d.valsNow h c).target / 2)] else []) ++ also)

/-- An occurrence that is not issued: it ends without a drop, an issue or a completion. -/
def PassedOver (d d' : Dev) (h : Half) (c : Nat) : Prop :=
  let st := Reg.EVC_STAT h c
  d'.f st F.EVC_STAT_DROPS = d.f st F.EVC_STAT_DROPS ∧ d'.f st F.EVC_STAT_OCC = d.f st F.EVC_STAT_OCC ∧
  d'.bit st F.EVC_STAT_DONE = d.bit st F.EVC_STAT_DONE ∧
  ((d'.chan h c).occ = .pending ∨ (d'.chan h c).occ = .none) ∧ (d'.chan h c).prev = (d.chan h c).pass.or (d.chan h c).prev ∧
  d'.sends = d.sends ∧ RegsKept d d' [st, Reg.EVC_SUM h, Reg.EVC_PRED h c]

/-- A slot given to a channel's occurrence with its values frozen. -/
def SlotGiven (d d' : Dev) (h : Half) (c n : Nat) (v : Vals) (occ : Occ) (also : List Nat) : Prop :=
  (d'.chan h c).occ = occ ∧ (d'.chan h c).vals = some v ∧ (d'.chan h c).slot = some n ∧
  sparseFind (d'.half h).slots n = some c ∧ d'.bit (Reg.EVC_STAT h c) F.EVC_STAT_INFLIGHT = true ∧
  d'.f (Reg.EVC_SUM h) F.EVC_SUM_INUSE = (d'.half h).slots.length % 64 ∧
  RegsKept d d' ([Reg.EVC_STAT h c, Reg.EVC_SUM h] ++ also)

/-- No slot take of a channel below a number is due (R179). -/
def NoTakeBelow (d : Dev) (h : Half) (c : Nat) : Prop :=
  ∀ (j : Nat) (q : Int), j < c → (d.chan h j).occ = .pending → d.startTime h j = some q →
    ((d.now + 160 : Nat) : Int) < q / 65536

/-- The slot take of an injector actuation at P − 160 tk, no lower channel's being due in its cycle (R159, R167, R169, R177, R178, R209, R214): no issue of an
occurrence marked off or of duration 0; dropped HALT, HOSTLOSS, BUSY, LOWBOOST, or NOSLOT with a SLOT fault; else a
slot with its values and its correction frozen, deferred where the earlier shot of its bank ends too late, E1 known at
once where that shot is over. -/
def SlotTakeOfInjectorRule : Prop :=
  ∀ (s : State) (t : Tick) (h : Half) (c : Fin 256) (p : Int) (ls : Nat),
    let d := s.devAt t
    let x := d.chan h c.val
    let v := d.vals h c.val
    let b := v.target / 2
    let others := d.holders h b
    let cfg := d.rd (Reg.DRV_PCFG h v.profile)
    let low := d.bit (Reg.BST_STAT h) F.BST_STAT_BELOW_START && getB cfg F.DRV_PCFG_BOOST_EN
    let late := d.overlaps h b (p / 65536).toNat others
    let drv := Reg.DRV_STAT h
    let does := fun Q => Does (.slotTake t h c) s Q
    let pos := (List.range c.val).filter fun j => d.chEn h j && decide (d.chAction h j = 6) &&
      decide (getF (d.ctrl h j) F.EVC_CTRL_TARGET = ls)
    let corr : Int := if getB cfg F.DRV_PCFG_HYDRAULIC then
      getS (d.oldRd (Reg.DRV_HYDC h ls (pos.length % 8))) F.DRV_HYDC_CORR else 0
    NoTakeBelow d h c.val →
    x.occ = .pending → d.startTime h c.val = some p → outputOf v.action v.target = some (.ls ls) →
    d.operating = true → d.chIssues h c.val = true → p / 65536 ≤ ((d.now + 160 : Nat) : Int) →
    (d.notIssued h c.val v p = true → does (fun d' => PassedOver d d' h c.val)) ∧
    (d.notIssued h c.val v p = false →
      (d.mode = .halt → does (fun d' => Dropped d d' h c.val 0xA false [])) ∧
      (d.mode ≠ .halt → d.fuelCut h = true → does (fun d' => Dropped d d' h c.val 0xB false [])) ∧
      (d.mode ≠ .halt → d.fuelCut h = false →
        (2 ≤ others.length → does (fun d' => Dropped d d' h c.val 5 false [])) ∧
        (others.length < 2 → low = true → getB cfg F.DRV_PCFG_LOWB = true → does (fun d' =>
          Dropped d d' h c.val 0xE false [drv] ∧ d'.bit drv F.DRV_STAT_LOWBOOST = true ∧
          d'.f drv F.DRV_STAT_LOWB_CNT = min 0xFF (d.f drv F.DRV_STAT_LOWB_CNT + 1))) ∧
        (others.length < 2 → low = false → late = false →
          (∀ n : Nat, d.findSlot h = some n → does (fun d' => SlotGiven d d' h c.val n v .slot [] ∧
            (d'.chan h c.val).corr = corr)) ∧
          (d.findSlot h = none → does (fun d' => ∃ e : Dev, Dropped d e h c.val 1 false [] ∧
            d' = e.fault .slot (.half h)))) ∧
        (others.length < 2 → low = false → late = true → b < 6 → ∀ n : Nat, d.findSlot h = some n → does (fun d' =>
          SlotGiven d d' h c.val n v .deferred [drv, Reg.DRV_BANKSTAT h b] ∧
          (d'.chan h c.val).deferT = some (p / 65536).toNat ∧ (d'.chan h c.val).corr = corr ∧
          (d'.chan h c.val).after = others.head? ∧
          (d'.chan h c.val).e1 = (if others = [] then (d.bank h b).lastEnd else none) ∧ d'.bit drv F.DRV_STAT_DEFER = true ∧
          d'.bit (Reg.EVC_STAT h c.val) F.EVC_STAT_LATE = true ∧
          d'.bit (Reg.DRV_BANKSTAT h b) F.DRV_BANKSTAT_DEFER_PEND = true)) ∧
        (others.length < 2 → low = true → getB cfg F.DRV_PCFG_LOWB = false → late = false →
          ∀ n : Nat, d.findSlot h = some n → does (fun d' => SlotGiven d d' h c.val n v .slot [drv] ∧
          (d'.chan h c.val).degrade = true ∧ d'.bit drv F.DRV_STAT_LOWBOOST = true))))

/-- The slot take of an IGN or GAO actuation, no lower channel's being due in its cycle (R169, R179): a slot where the output is free; a booking into a holder that
ends in time and into which nothing is booked; else BUSY. Before its time it does nothing. -/
def SlotTakeOfOutputRule : Prop :=
  ∀ (s : State) (t : Tick) (h : Half) (c : Fin 256) (p : Int) (o : Output),
    let d := s.devAt t
    let x := d.chan h c.val
    let v := d.vals h c.val
    x.occ = .pending → d.startTime h c.val = some p → outputOf v.action v.target = some o → (∀ n, o ≠ .ls n) →
    NoTakeBelow d h c.val →
    (d.operating = true → d.chIssues h c.val = true → p / 65536 ≤ ((d.now + 160 : Nat) : Int) →
      d.notIssued h c.val v p = false → d.mode ≠ .halt →
      (d.holders h o.unit = [] → ∀ n : Nat, d.findSlot h = some n → Does (.slotTake t h c) s (fun d' =>
        SlotGiven d d' h c.val n v .slot [] ∧ (d'.chan h c.val).restrikes = d.restrikes h v)) ∧
      (d.holders h o.unit = [] → d.findSlot h = none → Does (.slotTake t h c) s (fun d' => ∃ e : Dev,
        Dropped d e h c.val 1 false [] ∧ d' = e.fault .slot (.half h))) ∧
      ∀ (j : Nat) (rest : List Nat), d.holders h o.unit = j :: rest →
        (∀ e : Nat, d.holderEnd h j = some e → d.bookedInto h j = none → (e : Int) ≤ p →
          Does (.slotTake t h c) s (fun d' => (d'.chan h c.val).occ = .slot ∧ (d'.chan h c.val).booked = some j ∧
            (d'.chan h c.val).slot = x.slot ∧ (d'.chan h c.val).vals = some v ∧ (d'.half h).slots = (d.half h).slots ∧
            d'.bit (Reg.EVC_STAT h c.val) F.EVC_STAT_INFLIGHT = true ∧ RegsKept d d' [Reg.EVC_STAT h c.val])) ∧
        (d.holderEnd h j = none ∨ (d.bookedInto h j).isSome = true ∨ (∃ e : Nat, d.holderEnd h j = some e ∧ p < (e : Int)) →
          Does (.slotTake t h c) s (fun d' => Dropped d d' h c.val 5 false []))) ∧
    (((d.now + 160 : Nat) : Int) < p / 65536 ∨ d.chIssues h c.val = false ∨ d.operating = false →
      Does (.slotTake t h c) s (fun d' => d' = d))

end Sys2Proof.Claims

/-- The slot take of an actuation: slots, bookings, deferrals and drops. What the model chose in it: log 34, 36. -/
def Obligations.SlotTake : Prop :=
  SlotTakeOfInjectorRule ∧ SlotTakeOfOutputRule

namespace Sys2Proof.Claims

/-- What a launch makes of an occurrence: launched with its start at the ball `ball` (16 fraction bits), its nominal
start `p`, and its end by time or by angle; the occurrence counts. -/
def Launched (d d' : Dev) (h : Half) (c ball : Nat) (p : Int) : Prop :=
  let x := d.chan h c
  let v := d.valsNow h c
  let st := Reg.EVC_STAT h c
  let dur := if x.corr = 0 then v.endVal else (max 400 ((v.endVal : Int) + 4 * x.corr)).toNat
  d'.chan h c = { x with
    occ := .launched, vals := some v, start := ball / 65536, fine := ball % 65536 / 2048, waitT := none, lateAt := none
    pred := none, coef := none
    endT := if hasEnd v.action && !v.endAngle then some (ball + dur * 65536) else none
    endA := if hasEnd v.action && v.endAngle then
      some (Dev.nextPassage (d.cycLen h) v.endVal (d.startAngle h c p)) else none } ∧
  d'.f st F.EVC_STAT_OCC = (d.f st F.EVC_STAT_OCC + 1) % 256 ∧ d'.bit st F.EVC_STAT_WAITING = false

/-- The edge of a channel is the next that its half launches: no edge of another channel that would be launched now is
earlier in time, or at the same time and of a lower channel; no end that it waits for is due (R14, R179). -/
def FirstEdge (d : Dev) (h : Half) (c : Nat) : Prop :=
  (∀ j t u : Nat, d.edgeDue h c = some t → d.edgeDue h j = some u → t < u ∨ (t = u ∧ c ≤ j)) ∧
  ∀ j : Nat, (d.chan h c).occ ≠ .launched → (d.chan h c).booked.or (d.chan h c).after = some j →
    (d.chan h j).occ = .launched → d.edgeDue h j = none

/-- A launched start (R14, R167, R169, R171, R172, R178): at P − 6 tk the occurrence that holds a slot is launched with its
start at P, or 6 tk from now and LATE where P − 6 has passed, later by the wait for a lane and LATE where all eight carry
an edge; it waits while φ stands at the clamp, is dropped HALT in
HALT mode and BUSY where its booking still has no slot; before its time nothing happens. -/
def StartLaunchRule : Prop :=
  ∀ (s : State) (t : Tick) (h : Half) (c : Fin 256) (p : Int),
    let d := s.devAt t
    let x := d.chan h c.val
    let st := Reg.EVC_STAT h c.val
    let due := p / 65536 ≤ ((d.now + 6 : Nat) : Int) ∧ (∀ a : Rat, x.lateAt = some a → a ≤ d.phi h)
    let waits := d.held h = true ∨ x.waitT.isSome = true
    let busy := (d.half h).lanes.filter fun k => decide (d.now < k.1)
    let lanes := busy.length < 8
    let wait := (busy.map (·.1)).foldl min (d.now + 20) - d.now
    let regs := [st, Reg.EVC_PRED h c.val]
    x.occ = .slot → d.startTime h c.val = some p → FirstEdge d h c.val →
    (d.operating = true → d.issuing h = true → due →
      (d.mode = .halt → Does (.startLaunch t h c) s (fun d' => Dropped d d' h c.val 0xA false [])) ∧
      (d.mode ≠ .halt → waits → Does (.startLaunch t h c) s (fun d' =>
        d'.bit st F.EVC_STAT_WAITING = true ∧ d'.chan h c.val = { x with waitT := some (x.waitT.getD d.now) } ∧
        RegsKept d d' [st])) ∧
      (d.mode ≠ .halt → ¬waits → x.booked.isSome = true → x.slot = none → Does (.startLaunch t h c) s (fun d' =>
        Dropped d d' h c.val 5 false [])) ∧
      (d.mode ≠ .halt → ¬waits → (x.booked = none ∨ x.slot.isSome = true) → lanes →
        (((d.now + 6 : Nat) : Int) ≤ p / 65536 → Does (.startLaunch t h c) s (fun d' =>
          Launched d d' h c.val p.toNat p ∧ RegsKept d d' regs ∧
          (d.bit st F.EVC_STAT_LATE = false → x.lateAt = none → d'.bit st F.EVC_STAT_LATE = false))) ∧
        (p / 65536 < ((d.now + 6 : Nat) : Int) → Does (.startLaunch t h c) s (fun d' =>
          Launched d d' h c.val ((d.now + 6) * 65536) p ∧ RegsKept d d' regs ∧ d'.bit st F.EVC_STAT_LATE = true ∧
          (x.lateAt.isSome = true → d'.bit st F.EVC_STAT_CAUGHT = true)))) ∧
      (d.mode ≠ .halt → ¬waits → (x.booked = none ∨ x.slot.isSome = true) → ¬lanes → Does (.startLaunch t h c) s (fun d' =>
        Launched d d' h c.val
          ((if ((d.now + 6 : Nat) : Int) ≤ p / 65536 then p.toNat else (d.now + 6) * 65536) + wait * 65536) p ∧
        RegsKept d d' regs ∧ (0 < wait → d'.bit st F.EVC_STAT_LATE = true)))) ∧
    (d.operating = false ∨ d.issuing h = false ∨ ¬due → Does (.startLaunch t h c) s (fun d' => d' = d))

/-- A launched end, deferred starts and their limit (R14, R167, R169, R209, R210): at E − 6 tk the end is on its way, late
ones 6 tk from now, and it fixes E1 of the starts that are deferred behind it; a deferred start is launched 6 tk before
E1 + GAP; past its limit it is dropped OVLP, counted. -/
def EndAndDeferredLaunchRule : Prop :=
  ∀ (s : State) (t : Tick) (h : Half) (c : Fin 256),
    let d := s.devAt t
    let x := d.chan h c.val
    let v := d.valsNow h c.val
    let b := v.target / 2
    let st := Reg.EVC_STAT h c.val
    let drv := Reg.DRV_STAT h
    let lanes := ((d.half h).lanes.filter fun k => decide (d.now < k.1)).length < 8
    let ended := fun (e : Nat) (d' : Dev) =>
      { d'.chan h c.val with e1 := x.e1 } = { x with ending := true, endT := some e, fine := e % 65536 / 2048 } ∧
      ∀ j : Nat, (d.chan h j).after = some c.val → (d.chan h j).e1 = none → (d'.chan h j).e1 = some (e / 65536)
    let expired := fun d' : Dev => Dropped d d' h c.val 0xD false [drv] ∧ d'.bit drv F.DRV_STAT_OVLP_DROP = true ∧
      d'.f drv F.DRV_STAT_OVLP_CNT = min 0xFF (d.f drv F.DRV_STAT_OVLP_CNT + 1)
    FirstEdge d h c.val →
    (∀ e : Nat, x.occ = .launched → x.endT = some e → isActuation v.action = true → x.ending = false → lanes →
      sparseSorted (d.half h).chans = true → d.bookedInto h c.val = none →
      (d.now + 6 = e / 65536 → Does (.endLaunch t h c) s (fun d' => ended e d' ∧ RegsKept d d' [])) ∧
      (e / 65536 < d.now + 6 → Does (.endLaunch t h c) s (fun d' =>
        ended ((d.now + 6) * 65536) d' ∧ d'.bit st F.EVC_STAT_LATE = true ∧ RegsKept d d' [st])) ∧
      (d.now + 6 < e / 65536 → Does (.endLaunch t h c) s (fun d' => d' = d))) ∧
    (∀ e j n : Nat, x.occ = .launched → x.endT = some e → isActuation v.action = true → x.ending = false → lanes →
      sparseSorted (d.half h).chans = true → d.bookedInto h c.val = some j → j ≠ c.val → x.slot = some n →
      e / 65536 ≤ d.now + 6 → Does (.endLaunch t h c) s (fun d' =>
        (d'.chan h c.val).ending = true ∧ (d'.chan h c.val).slot = none ∧ (d'.chan h j).slot = some n ∧
        (d'.chan h j).booked = none ∧ sparseFind (d'.half h).slots n = some j)) ∧
    (∀ p e1 : Nat, x.occ = .deferred → x.deferT = some p → x.e1 = some e1 → b < 6 →
      let start := e1 + d.bankGap h b
      let due := d.operating = true ∧ d.issuing h = true ∧ start ≤ d.now + 6
      (due → d.deferExpired h c.val p = false → d.mode ≠ .halt → d.held h = false → x.waitT = none →
        lanes → Does (.deferredLaunch t h c) s (fun d' =>
          Launched d d' h c.val (max start (d.now + 6) * 65536) ((p : Int) * 65536) ∧
          d'.bit (Reg.DRV_BANKSTAT h b) F.DRV_BANKSTAT_DEFER_PEND = false ∧
          RegsKept d d' [st, Reg.EVC_PRED h c.val, Reg.DRV_BANKSTAT h b])) ∧
      (due → d.deferExpired h c.val p = false → d.mode = .halt →
        Does (.deferredLaunch t h c) s (fun d' => Dropped d d' h c.val 0xA false [])) ∧
      (due → d.deferExpired h c.val p = true → Does (.deferredLaunch t h c) s expired) ∧
      (¬due → Does (.deferredLaunch t h c) s (fun d' => d' = d))) ∧
    (∀ p : Nat, x.occ = .deferred → x.deferT = some p → b < 6 →
      (d.deferExpired h c.val p = true → Does (.deferralTimeout t h c) s expired) ∧
      (d.deferExpired h c.val p = false → Does (.deferralTimeout t h c) s (fun d' => d' = d)))

end Sys2Proof.Claims

/-- Launched starts and ends, deferred starts and their limit. What the model chose in it: log 34, 35, 36. -/
def Obligations.Launch : Prop :=
  StartLaunchRule ∧ EndAndDeferredLaunchRule

namespace Sys2Proof.Claims

/-- What an internal action sends (R157). -/
def internalSends (h : Half) (v : Vals) (tick now : Nat) : List Send :=
  match v.action with
  | 7 => [.urgent h v.target tick now none]
  | 8 | 0xA => [.accOpen h v.target tick none]
  | 9 => [.accClose h v.target tick none]
  | 0xB => [.timer v.target .event tick]
  | 0xC => [.colt v.target]
  | 0xD => [.mule (match h with | .a => 38 | .b => 39) v.target]
  | _ => []

/-- Internal actions (R157, R168): one of a half per cycle, the first by time, then by number; at its start it sends what its action says, is counted and
done, with EVC_PRED the tick of the issue; an accumulator window stays in flight until its end closes it. -/
def InternalActionsRule : Prop :=
  ∀ (s : State) (t : Tick) (h : Half) (c : Fin 256),
    let d := s.devAt t
    let x := d.chan h c.val
    let v := d.vals h c.val
    let w := d.valsNow h c.val
    let st := Reg.EVC_STAT h c.val
    let pr := Reg.EVC_PRED h c.val
    let cmd := Instr.internalActionIssue t h c
    let free := d.operating = true ∧ d.issuing h = true ∧ (d.half h).lastInternal ≠ some d.now
    let first := d.firstInternal h = some c.val
    (∀ p : Int, x.occ = .pending → isActuation v.action = false → d.startTime h c.val = some p → free →
      d.chIssues h c.val = true → p / 65536 ≤ (d.now : Int) → x.lateAt = none →
      (d.notIssued h c.val v p = true → Does cmd s (fun d' => PassedOver d d' h c.val)) ∧
      (d.notIssued h c.val v p = false → d.mode = .halt → Does cmd s (fun d' => Dropped d d' h c.val 0xA false [])) ∧
      (d.notIssued h c.val v p = false → d.mode ≠ .halt → d.held h = false → x.waitT = none → first → v.action ≠ 0xA →
        Does cmd s (fun d' => d'.bit st F.EVC_STAT_DONE = true ∧
          d'.f st F.EVC_STAT_OCC = (d.f st F.EVC_STAT_OCC + 1) % 256 ∧ d'.rd pr = Dev.lo32 d.now ∧
          d'.sends = d.sends ++ internalSends h v (p / 65536).toNat d.now ∧
          (d'.half h).lastInternal = some d.now ∧ RegsKept d d' [st, pr, Reg.EVC_SUM h] ∧
          (p / 65536 < (d.now : Int) → d'.bit st F.EVC_STAT_LATE = true))) ∧
      (d.notIssued h c.val v p = false → d.mode ≠ .halt → d.held h = false → x.waitT = none → first → v.action = 0xA →
        Does cmd s (fun d' => (d'.chan h c.val).occ = .launched ∧ (d'.chan h c.val).vals = some v ∧
          d'.bit st F.EVC_STAT_INFLIGHT = true ∧ d'.f st F.EVC_STAT_OCC = (d.f st F.EVC_STAT_OCC + 1) % 256 ∧
          d'.sends = d.sends ++ internalSends h v (p / 65536).toNat d.now ∧ RegsKept d d' [st, pr])) ∧
      (d.notIssued h c.val v p = false → d.mode ≠ .halt → (d.held h = true ∨ x.waitT.isSome = true) →
        Does cmd s (fun d' => d'.bit st F.EVC_STAT_WAITING = true ∧ d'.sends = d.sends ∧
          d'.chan h c.val = { x with waitT := some (x.waitT.getD d.now) } ∧ RegsKept d d' [st])) ∧
      (d.notIssued h c.val v p = false → d.mode ≠ .halt → d.held h = false → x.waitT = none → ¬first →
        Does cmd s (fun d' => d' = d))) ∧
    (∀ e : Nat, x.occ = .launched → isActuation w.action = false → x.endT = some e → e / 65536 ≤ d.now → free → first →
      Does cmd s (fun d' => d'.bit st F.EVC_STAT_DONE = true ∧ d'.rd pr = Dev.lo32 d.now ∧
        d'.sends = d.sends ++ [.accClose h w.target (e / 65536) none] ∧ RegsKept d d' [st, pr, Reg.EVC_SUM h] ∧
        (e / 65536 < d.now → d'.bit st F.EVC_STAT_LATE = true))) ∧
    (¬free → Does cmd s (fun d' => d' = d))

/-- Anchors and held starts (R162, R172, R210): an anchor that φ reaches fixes a start with a positive offset in time, at
now plus the offset; a start held at the clamp for MAXDEF is dropped HELD, a deferred one past its own limit OVLP;
earlier it stays. -/
def AnchorsAndHoldsRule : Prop :=
  ∀ (s : State) (t : Tick) (h : Half) (c : Fin 256),
    let d := s.devAt t
    let x := d.chan h c.val
    let o := (d.valsNow h c.val).offset
    let m := d.f (Reg.EVC_LIMIT h c.val) F.EVC_LIMIT_MAXDEF
    let pr := Reg.EVC_PRED h c.val
    let fixing := fun a : Int => x.fixed = none ∧ 0 < o ∧ (a : Rat) ≤ d.phi h ∧
      ¬((d.track h).passing = true ∧ (d.track h).jumped = true)
    (∀ a : Int, (x.occ = .pending ∨ x.occ = .slot) → x.pass = some a →
      (fixing a → Does (.anchorReached t h c) s (fun d' =>
        let p : Int := (d.now : Int) + o
        d'.chan h c.val = { x with fixed := some (d.now * 65536) } ∧ d'.rd pr = Dev.lo32 p.toNat ∧
        RegsKept d d' [pr, Reg.EVC_STAT h c.val] ∧
        BitsKept (d.rd (Reg.EVC_STAT h c.val)) (d'.rd (Reg.EVC_STAT h c.val)) [F.EVC_STAT_FAR])) ∧
      (¬fixing a → Does (.anchorReached t h c) s (fun d' => d' = d))) ∧
    (∀ w : Nat, x.waitT = some w →
      let expired := x.occ = .deferred ∧ d.deferExpired h c.val (x.deferT.getD 0) = true
      (m ≠ 0 → w + usTk m ≤ d.now → (x.occ = .pending ∨ x.occ = .slot ∨ x.occ = .deferred) →
        (x.occ = .deferred → (d.valsNow h c.val).target / 2 < 6) →
        (¬expired → Does (.heldTimeout t h c) s (fun d' => Dropped d d' h c.val 4 false [])) ∧
        (expired → x.deferT.isSome = true → Does (.heldTimeout t h c) s (fun d' =>
          Dropped d d' h c.val 0xD false [Reg.DRV_STAT h]))) ∧
      (x.occ = .none ∨ x.occ = .launched → Does (.heldTimeout t h c) s (fun d' => d' = d)) ∧
      (m = 0 ∨ d.now < w + usTk m → Does (.heldTimeout t h c) s (fun d' => d' = d)))

end Sys2Proof.Claims

/-- Internal actions, anchors and held starts. What the model chose in it: log 35. -/
def Obligations.InternalActionsAndAnchors : Prop :=
  InternalActionsRule ∧ AnchorsAndHoldsRule

/-- Arming and status clears (R156, R160): a write of EVC_ARMg arms the enabled channels of its 1 bits that are not
armed, one of EVC_DISARMg disarms the channels of its 1 bits and abandons what holds no slot (with no slot take due in
its cycle, which would come first, R179); EVC_STCLR clears the flags it names of one channel or of its group of 16,
and the sums, but for what the hardware set or counted in the same cycle (R8, R11); every other channel stays as it
is. What the model chose in it: log 36. -/
def Obligations.ArmDisarmAndStatusClear : Prop :=
  ∀ (s : State) (t : Tick) (m : Master) (h : Half) (g : Fin 16) (v : Word) (n : Nat),
    let d := s.devAt t
    let st := fun k => Reg.EVC_STAT h k
    let mine := fun k : Nat => k / 16 = g.val ∧ v.getLsbD (k % 16) = true
    let same := fun d' : Dev => d'.chan h n = d.chan h n ∧ d'.rd (st n) = d.rd (st n) ∧
      d'.rd (Reg.EVC_PRED h n) = d.rd (Reg.EVC_PRED h n)
    let keeps := fun d' : Dev => (d.chan h n).occ = .slot ∨ (d.chan h n).occ = .deferred ∨ (d.chan h n).occ = .launched →
      d'.chan h n = d.chan h n
    let group := (List.range 16).flatMap fun j => [st (16 * g.val + j), Reg.EVC_PRED h (16 * g.val + j)]
    n < 256 →
    (d.reach (Reg.EVC_ARM h g.val) true = true → Does (.channelArm t m h g v) s (fun d' =>
      (mine n → d.chEn h n = true → d'.bit (st n) F.EVC_STAT_ARMED = true ∧ keeps d') ∧
      (¬mine n ∨ d.chEn h n = false ∨ d.armed h n = true → same d') ∧
      BitsKept (d.rd (st n)) (d'.rd (st n)) [F.EVC_STAT_ARMED, F.EVC_STAT_FAR, F.EVC_STAT_WAITING] ∧ RegsKept d d' group ∧
      d'.half h.other = d.half h.other)) ∧
    (d.reach (Reg.EVC_DISARM h g.val) true = true → NoTakeBelow d h 256 → Does (.channelDisarm t m h g v) s (fun d' =>
      (mine n → d'.bit (st n) F.EVC_STAT_ARMED = false ∧ keeps d' ∧
        ((d.chan h n).occ = .pending → (d'.chan h n).occ = .none ∧ d'.rd (Reg.EVC_PRED h n) = 0)) ∧
      (¬mine n → same d') ∧
      BitsKept (d.rd (st n)) (d'.rd (st n)) [F.EVC_STAT_ARMED, F.EVC_STAT_FAR, F.EVC_STAT_WAITING] ∧ RegsKept d d' group ∧
      d'.half h.other = d.half h.other)) ∧
    (d.reach (Reg.EVC_STCLR h) true = true → Does (.evcStatusClear t m h v) s (fun d' =>
      let ch := getF v F.EVC_STCLR_CH
      let cleared := if getB v F.EVC_STCLR_GRP then decide (n / 16 = ch / 16) else decide (n = ch)
      let after := fun (x y : Fld) => if cleared && getB v x then getB (d.hwSet (st n)) y else d.bit (st n) y
      d'.bit (st n) F.EVC_STAT_DONE = after F.EVC_STCLR_DONE F.EVC_STAT_DONE ∧
      d'.bit (st n) F.EVC_STAT_LATE = after F.EVC_STCLR_LATE F.EVC_STAT_LATE ∧
      d'.bit (st n) F.EVC_STAT_CAUGHT = after F.EVC_STCLR_CAUGHT F.EVC_STAT_CAUGHT ∧
      d'.bit (st n) F.EVC_STAT_DROP = after F.EVC_STCLR_DROP F.EVC_STAT_DROP ∧
      d'.bit (st n) F.EVC_STAT_CUT = after F.EVC_STCLR_CUT F.EVC_STAT_CUT ∧
      d'.f (st n) F.EVC_STAT_DROPS =
        d.f (st n) F.EVC_STAT_DROPS - (if cleared && getB v F.EVC_STCLR_DROP then
          getF (d.oldRd (st n)) F.EVC_STAT_DROPS else 0) ∧
      d'.f (Reg.EVC_SUM h) F.EVC_SUM_DROPTOT =
        d.f (Reg.EVC_SUM h) F.EVC_SUM_DROPTOT - (if getB v F.EVC_STCLR_SUMCLR then
          getF (d.oldRd (Reg.EVC_SUM h)) F.EVC_SUM_DROPTOT else 0) ∧
      d'.f (st n) F.EVC_STAT_OCC = d.f (st n) F.EVC_STAT_OCC ∧
      RegsKept d d' (Reg.EVC_SUM h :: (List.range 256).map st) ∧ HiddenKept d { d' with answer := d.answer }))

/-! ### The output voter and the Gander (14_safety, 02_compute) -/

namespace Sys2Proof.Claims

/-- A refusal or a limit of the voter (R357, R368): the record in GDR_VOTE, the count, the flag, the occurrence dropped
or cut with VOTE; then class VOTE of the half. -/
def Refused (d d' : Dev) (h : Half) (c : Nat) (o : Output) (why : Nat) (x : Fld) (cut : Bool) : Prop :=
  let k : Nat := match o with
    | .ls n => n
    | .ign n => 0x1000 + n
    | .gao n => 0x2000 + n
  let cnt := Reg.GDR_CNT h
  ∃ e : Dev, Dropped d e h c 0xC cut [Reg.GDR_VOTE h, cnt, Reg.GDR_FLAG h] ∧
    e.rd (Reg.GDR_VOTE h) = BitVec.ofNat 32 (k * 256 + why * 2 ^ 16) ∧ e.bit (Reg.GDR_FLAG h) x = true ∧
    e.f cnt F.GDR_CNT_REFUSED = min 0xFFFF (d.f cnt F.GDR_CNT_REFUSED + 1) ∧ d' = e.fault .vote (.half h)

end Sys2Proof.Claims

/-- The next edge of a launched actuation at the output voter (R23, R24, R226, R367, R368): a start passes by the
earliest permit of its output that is open in this DRIVE cycle, which closes, acts there and leaves its end rule, or
completes where the action has no end; without a permit it is refused. An end passes where it fits its rule, acts and
completes, and restrikes are counted on; else it is refused. What the model chose in it: log 59. -/
def Obligations.VoterEdges : Prop :=
  ∀ (s : State) (t : Tick) (h : Half) (c : Fin 256) (o : Output),
    let d := s.devAt t
    let d0 := d.opensNow h o
    let x := d.chan h c.val
    let v := d.valsNow h c.val
    let cmd := Instr.outputEdgeAtVoter t h c
    let rule := sparseFind (d.half h).passed o.key
    x.occ = .launched → outputOf v.action v.target = some o →
    (x.passed = false → x.start ≤ d.now →
      (d0.permitFor h o = none → Does cmd s (fun d' => Refused d0 d' h c.val o 1 F.GDR_FLAG_REF_START false)) ∧
      (∀ p : Permit, d0.permitFor h o = some p → Does cmd s (fun d' => ∃ e : Dev,
        RegsKept d0 e [] ∧ e.chan h c.val = { x with passed := true } ∧
        (e.gdr h).permits.any (fun q => decide (q.chan = p.chan)) = false ∧
        (hasEnd v.action = true → d' = (e.outputStart h c.val v o).onHalf h fun y =>
          { y with passed := sparseInsert y.passed o.key (d0.endRule h p c.val) }) ∧
        (hasEnd v.action = false → d' = (e.outputStart h c.val v o).complete h c.val d.now)))) ∧
    (x.passed = false → d.now < x.start → Does cmd s (fun d' => d' = d)) ∧
    (∀ e : Nat, x.passed = true → x.endT = some e → x.ending = true → e / 65536 ≤ d.now →
      (∀ p : Passed, rule = some p → p.chan = c.val → p.ended = false → d.endFits h p = true → Does cmd s (fun d' =>
        ∃ y : Dev, RegsKept d y [] ∧ sparseFind (y.half h).passed o.key = none ∧ y.chan h c.val = x ∧
        let z := (y.outputEnd h c.val v o).safeAfter h o
        let on := match o with
          | .ign k => (z.ign h k).nextT.isSome
          | _ => false
        (on = true → d' = (z.onHalf h fun w =>
          { w with passed := sparseInsert w.passed o.key { p with ended := true } }).complete h c.val d.now) ∧
        (on = false → d' = z.complete h c.val d.now))) ∧
      (rule = none ∨ (∃ p : Passed, rule = some p ∧ (p.chan ≠ c.val ∨ p.ended = true ∨ d.endFits h p = false)) →
        Does cmd s (fun d' => Refused d d' h c.val o 2 F.GDR_FLAG_REF_END true)))

/-- GAO actions at their output (R231, R157): an enabled output is set, cleared, toggled or pulsed at its start, leaving
high impedance, from which a toggle drives it high, and takes the other level at the end of a pulse that it began enabled,
low where it is disabled since (R78, R223); a disabled one does not move. An action without an end is done, with EVC_PRED the tick of its edge. -/
def Obligations.GaoActions : Prop :=
  ∀ (s : State) (t : Tick) (h : Half) (c : Fin 256) (k : Nat),
    let d := s.devAt t
    let x := d.chan h c.val
    let v := d.valsNow h c.val
    let lvl := Reg.GAO_LVL h
    let on := d.bit (Reg.GAO_CFG h k) F.GAO_CFG_EN
    let frame := fun (acts : Bool) (d' : Dev) => (acts = false → d'.rd lvl = d.rd lvl) ∧
      BitsKept (d.rd lvl) (d'.rd lvl) [⟨k, k⟩, ⟨16 + k, 16 + k⟩] ∧
      RegsKept d d' [lvl, Reg.EVC_STAT h c.val, Reg.EVC_PRED h c.val, Reg.EVC_SUM h, Reg.GDR_CNT h]
    k < 16 → x.occ = .launched → outputOf v.action v.target = some (.gao k) →
    (∀ p : Permit, x.passed = false → x.start ≤ d.now → (d.opensNow h (.gao k)).permitFor h (.gao k) = some p →
      Does (.outputEdgeAtVoter t h c) s (fun d' =>
        (on = true → d'.bit lvl ⟨16 + k, 16 + k⟩ = false ∧ d'.bit lvl ⟨k, k⟩ = (match v.action with
          | 1 => true
          | 2 => false
          | 3 => !d.bit lvl ⟨k, k⟩
          | _ => decide (v.param % 2 = 1)) ∧
          (v.action = 3 → d.bit lvl ⟨16 + k, 16 + k⟩ = true → d.bit lvl ⟨k, k⟩ = false → d'.bit lvl ⟨k, k⟩ = true)) ∧
        (v.action ≠ 4 → d'.bit (Reg.EVC_STAT h c.val) F.EVC_STAT_DONE = true ∧
          d'.rd (Reg.EVC_PRED h c.val) = Dev.lo32 d.now) ∧
        (v.action = 4 → (d'.chan h c.val).live = on) ∧ frame on d')) ∧
    (∀ (e : Nat) (p : Passed), v.action = 4 → x.passed = true → x.endT = some e → x.ending = true → e / 65536 ≤ d.now →
      sparseFind (d.half h).passed (Output.gao k).key = some p → p.chan = c.val → p.ended = false →
      d.endFits h p = true → d.issuing h = true → d.mode ≠ .halt →
      Does (.outputEdgeAtVoter t h c) s (fun d' =>
        (x.live = true → d'.bit lvl ⟨16 + k, 16 + k⟩ = false ∧ d'.bit lvl ⟨k, k⟩ = (!decide (v.param % 2 = 1) && on)) ∧
        d'.bit (Reg.EVC_STAT h c.val) F.EVC_STAT_DONE = true ∧ frame x.live d'))

/-- Permits (R211, R366, R367, R368): one opens for an enabled channel whose occurrence waits, while the Gander holds
sync and phase and stands inside its window, given by the speed, GDR_CFG, CULIM and a bank's DEFER_MAX, at once or
behind those of its unit; past its far edge it closes alone. The voter's own limit, counted in DRIVE clock edges, ends
an actuation at M, or the restrikes that follow its end edge, unless its end passes in that cycle; silent permit lanes
close every permit. What the model chose in it: log 11, 56. -/
def Obligations.PermitsAndLimits : Prop :=
  ∀ (s : State) (t : Tick) (h : Half) (c : Fin 256),
    let d := s.devAt t
    let g := d.gdr h
    let x := d.chan h c.val
    let v := d.valsNow h c.val
    let cfg := d.rd (Reg.GDR_CFG h)
    let om := d.ganderSpeed h
    let cnt := Reg.GDR_CNT h
    let waits := x.occ = .pending ∨ x.occ = .slot ∨ x.occ = .deferred ∨ (x.occ = .launched ∧ x.passed = false)
    let has := g.permits.any (fun p => decide (p.chan = c.val))
    let angle := Dev.nearest (d.cycLen h) (d.ganderAngle h) (d.phi h)
    (∀ (o : Output) (a : Int), d.chanOutput h c.val = some o → x.pass = some a →
      let w : Rat := 256 * ofN (getF cfg F.GDR_CFG_PWIN) + 16 * ofN (getF cfg F.GDR_CFG_SPDK) * Dev.speedRpm om / 1000
      let centre : Rat := (a : Rat) + (v.offset : Rat) * om
      let len : Rat := 2 * w + 256 * ofN (d.f (Reg.EVC_LIMIT h c.val) F.EVC_LIMIT_CULIM) + (match o with
        | .ls n => 400 * ofN (d.f (Reg.DRV_BANKLIM h (n / 2)) F.DRV_BANKLIM_DEFER_MAX) * om
        | _ => 0)
      let opens := g.sync = true ∧ g.phk = true ∧ waits ∧ d.chEn h c.val = true ∧ has = false ∧
        centre - w ≤ angle ∧ angle ≤ centre - w + len
      (opens → Does (.permitOpen t h c) s (fun d' =>
        (d'.gdr h).permits = g.permits ++ [{
          chan := c.val, openNow := decide (d.openCount h o.unit < Dev.permitMax o.unit)
          centre := centre, w := w, omega := om, len := len }] ∧
        (d'.gdr h).silent = false ∧ d'.f cnt F.GDR_CNT_PERMITS = (d.f cnt F.GDR_CNT_PERMITS + 1) % 65536 ∧
        RegsKept d d' [cnt])) ∧
      (¬opens → Does (.permitOpen t h c) s (fun d' => d' = d))) ∧
    (d.chanOutput h c.val = none ∨ x.pass = none → Does (.permitOpen t h c) s (fun d' => d' = d)) ∧
    (let closes := ∃ p ∈ g.permits, p.chan = c.val ∧ p.centre - p.w + p.len < angle
     (closes → Does (.permitClose t h c) s (fun d' =>
       (∀ p ∈ (d'.gdr h).permits, p.chan ≠ c.val) ∧
       (∀ p ∈ g.permits, p.chan ≠ c.val → p.openNow = true → p ∈ (d'.gdr h).permits) ∧
       RegsKept d d' [] ∧ d'.half h.other = d.half h.other)) ∧
     (¬closes → Does (.permitClose t h c) s (fun d' => d' = d))) ∧
    (∀ (k : Nat) (p : Passed), (d.half h).passed.find? (fun e => decide (e.2.chan = c.val)) = some (k, p) →
      let o := Dev.outputAt k
      let due := p.m ≤ d.now / 4 - p.start / 4 ∧ (p.ended = true ∨ d.endsNow h c.val = false)
      let freed := fun e : Dev => sparseFind (e.half h).passed k = none ∧ RegsKept d e []
      (due → p.ended = false → Does (.durationLimit t h c) s (fun d' => ∃ e : Dev, freed e ∧
        Refused (e.endOutput h o) d' h c.val o 3 F.GDR_FLAG_DURMAX true)) ∧
      (due → p.ended = true → Does (.durationLimit t h c) s (fun d' => ∃ e : Dev, freed e ∧
        d' = ((e.endOutput h o).voteRecord h o 3 F.GDR_FLAG_DURMAX).fault .vote (.half h))) ∧
      (¬due → Does (.durationLimit t h c) s (fun d' => d' = d))) ∧
    (d.operating = true → Does (.permitLaneSilent t h) s (fun d' => ∃ e : Dev, (e.gdr h).permits = [] ∧
      (e.gdr h).silent = true ∧ e.bit (Reg.GDR_FLAG h) F.GDR_FLAG_LANE_SIL = true ∧
      RegsKept d e [Reg.GDR_FLAG h] ∧ d' = e.fault .gander (.half h))) ∧
    (d.operating = false → Does (.permitLaneSilent t h) s (fun d' => d' = d))

namespace Sys2Proof.Claims

/-- The Gander's own edges (R84, R86, R363, R364, R365, R113): an edge takes its timestamp, qualification and direction as
the primary path's do; while the Gander holds sync, an edge inside the window is accepted at the next index, with the table
copy's signature judged once a revolution, one below LO on a non-gap interval is rejected and counted, one past the window
or on a gap loses its sync and closes every permit; a reverse edge and, in start-up, an edge too soon move nothing; a
phase cam edge votes. -/
def GanderEdgesRule : Prop :=
  ∀ (s : State) (t : Tick) (h : Half) (age : Nat) (crkd near : Bool) (width : Nat) (corrupt : Bool),
    let d := s.devAt t
    let g := d.gdr h
    let t1 := d.now - age
    let crank := Instr.ganderEdge t h (.crank age crkd near width corrupt)
    let dir := Reg.SNS_DIRCFG (d.crankCfg h)
    let filt := 4 * d.f (Reg.SNS_FILT (d.crankCfg h)) F.SNS_FILT_CRK_FILT
    let revMin := usTk (d.f dir F.SNS_DIRCFG_REV_MIN)
    let rv : Bool := match d.dirsrc h with
      | 0 => false
      | 1 => if width ≤ usTk (d.f dir F.SNS_DIRCFG_FWD_MAX) then false else if revMin ≤ width then true else g.lastRev
      | _ => crkd != d.bit (Reg.SNS_CFG (d.crankCfg h)) F.SNS_CFG_FWD_LVL
    let taken := match d.dirsrc h with
      | 0 => filt ≤ age
      | 1 => width ≤ 2 * revMin ∧ max width filt ≤ age
      | _ => near = false ∧ filt + d.qwin h ≤ age
    let fit := d.ganderFit h t1 (d.wClass h (g.idx + 1))
    let gap := d.wGap h g.idx
    let k := (g.idx + 1) % max 1 (d.edges h)
    let maxrej := d.f (Reg.WHL_SYNCCFG h) F.WHL_SYNCCFG_MAXREJ
    let soon := ∃ t0 : Nat, g.lastT = some t0 ∧ d.startUp h = true ∧
      t1 - t0 < 4 * d.f (Reg.SNS_MININT h) F.SNS_MININT_MIN_INT
    let lost := fun d' : Dev => (d'.gdr h).sync = false ∧ (d'.gdr h).permits = [] ∧ (d'.gdr h).cands = [] ∧ RegsKept d d' []
    (d.capturing h = false → ∀ e : GanderEdge, Does (.ganderEdge t h e) s (fun d' => d' = d)) ∧
    (d.dirsrc h < 3 → ¬taken ∨ soon → Does crank s (fun d' => d' = d)) ∧
    (d.capturing h = true → d.dirsrc h < 3 → taken → ¬soon → g.sync = true → rv = true → Does crank s (fun d' =>
      (d'.gdr h).idx = g.idx ∧ (d'.gdr h).sync = true ∧ (d'.gdr h).lastT = some t1 ∧
      (d'.gdr h).lastRev = true ∧ (d'.gdr h).permits = g.permits ∧ RegsKept d d' [])) ∧
    (d.capturing h = true → d.dirsrc h < 3 → taken → ¬soon → g.sync = true → rv = false → g.camLimp = false →
      (fit = .inside → Does crank s (fun d' => ∃ e : Dev, RegsKept d e [] ∧ (e.gdr h).sync = true ∧ (e.gdr h).idx = k ∧
        (e.gdr h).period = t1 - g.tPrev ∧ (e.gdr h).tPrev = t1 ∧ (e.gdr h).permits = g.permits ∧
        (e.gdr h).ang = d.tabAng h k ∧ (e.gdr h).dNext = d.dTab h k ∧ (e.gdr h).waiting = g.waiting ∧
        let y := e.ganderAccepts h
        (corrupt = true → k % max 1 (d.nent h) = 0 → d' = y.ganderFault h F.GDR_FLAG_SIG_ERR) ∧
        (corrupt = false ∨ k % max 1 (d.nent h) ≠ 0 → d' = y))) ∧
      (fit = .below → gap = false → g.rejRev + 1 ≤ maxrej → Does crank s (fun d' =>
        (d'.gdr h).rejRev = g.rejRev + 1 ∧ (d'.gdr h).idx = g.idx ∧ (d'.gdr h).sync = true ∧ RegsKept d d' [])) ∧
      (fit = .below → gap = false → maxrej < g.rejRev + 1 → Does crank s lost) ∧
      (fit = .below → gap = true → Does crank s lost) ∧ (fit = .above → Does crank s lost)) ∧
    (∀ (c : Fin 4) (level : Bool),
      let cam := Instr.ganderEdge t h (.cam c age level)
      let used := d.capturing h = true ∧ d.bit (Reg.SNS_CFG h) ⟨8 + c.val, 8 + c.val⟩ = true ∧
        d.camTimes h c.val level = true ∧ 40 * d.f (Reg.SNS_FILT h) F.SNS_FILT_CAM_FILT ≤ age
      let cyc := max 1 (d.cycLen h)
      let a := Dev.wrapA cyc (d.ganderAngleAt h t1)
      let m0 := d.camMatches h c.val a level
      let m1 := d.cyc720 h && d.camMatches h c.val ((a + rev) % cyc) level
      (¬used → Does cam s (fun d' => d' = d)) ∧
      (used → g.sync = true → g.phk = false → g.camLimp = false → d.phaseCam h c.val = true →
        1 < d.f (Reg.WHL_CAMCFG h) F.WHL_CAMCFG_NDEC → g.v0 = 0 → g.v1 = 0 →
        Does cam s (fun d' => (d'.gdr h).v0 = (if m0 && !m1 then 1 else 0) ∧
          (d'.gdr h).v1 = (if m1 && !m0 then 1 else 0) ∧ (d'.gdr h).phk = false ∧ RegsKept d d' [])))

/-- The index compare (R365): both paths that report one edge within 2 µs are compared; an index that differs is
IDX_MIS with class GANDER; one that has not reported 2 µs later is LAG with class GANDER while both hold sync or one
alone lost it. -/
def IndexCompareRule : Prop :=
  ∀ (s : State) (t : Tick) (h : Half) (prim : Bool) (t0 : Nat),
    let d := s.devAt t
    let g := d.gdr h
    let both := (d.tracking h && g.sync) || g.lost
    let clear := fun e : Dev => e.gdr h = { g with waiting := none, lost := false }
    let flag := Reg.GDR_FLAG h
    g.waiting = some (prim, t0) →
    (t0 + usTk 2 ≤ d.now → both = true → Does (.ganderLagTimeout t h) s (fun d' => ∃ e : Dev, clear e ∧
      e.bit flag F.GDR_FLAG_LAG = true ∧ RegsKept d e [flag] ∧ d' = e.fault .gander (.half h))) ∧
    (t0 + usTk 2 ≤ d.now → both = false → Does (.ganderLagTimeout t h) s (fun d' => clear d' ∧ RegsKept d d' [])) ∧
    (d.now < t0 + usTk 2 → Does (.ganderLagTimeout t h) s (fun d' => d' = d)) ∧
    (∀ e : Dev, (e.gdr h).waiting = some (true, t0) → e.now ≤ t0 + usTk 2 → e.tracking h = true →
      ((e.half h).wheel.k = (e.gdr h).idx → ((e.ganderAccepts h).gdr h).waiting = none ∧
        RegsKept e (e.ganderAccepts h) []) ∧
      ((e.half h).wheel.k ≠ (e.gdr h).idx → ∃ y : Dev, y.bit flag F.GDR_FLAG_IDX_MIS = true ∧
        RegsKept e y [flag] ∧ e.ganderAccepts h = y.fault .gander (.half h)))

end Sys2Proof.Claims

/-- The Gander's own edges and the index compare. What the model chose in it: log 11, 56, 58. -/
def Obligations.GanderEdgesAndIndexCompare : Prop :=
  GanderEdgesRule ∧ IndexCompareRule

/-! ### Demand slots and commits (08_demand_slots_and_commits) -/

namespace Sys2Proof.Claims

/-- A commit led by a half has ended with a code in every half that it involved (R193): no commit, the lock off, the
result word, the flags and the source; a switch counts in DMD_SEQ and leaves its tick. -/
def CommitEnded (d d' : Dev) (h : Half) (cross : Bool) (code : Nat) (chan slot : Option Nat) (failB : Bool) : Prop :=
  ∀ k : Half, (k = h ∨ cross = true) →
    (d'.half k).commit = none ∧ d'.f (Reg.DMD_STAT k) F.DMD_STAT_STATE = 0 ∧ d'.f (Reg.DMD_STAT k) F.DMD_STAT_LOCKED = 0 ∧
    d'.rd (Reg.DMD_RES k) = BitVec.ofNat 32 (code * 2 ^ 24 + chan.getD 0 * 2 ^ 16 + slot.getD 0xFF * 2 ^ 8 +
      bnat chan.isSome * 2 ^ 7 + bnat failB * 2 ^ 6 + bnat cross * 2 ^ 5) ∧
    d'.bit (Reg.DMD_FLAGS k) F.DMD_FLAGS_DONE = true ∧
    (0x10 ≤ code → d'.bit (Reg.DMD_FLAGS k) F.DMD_FLAGS_REJ = true) ∧
    (code = 1 → d'.bit (Reg.DMD_FLAGS k) F.DMD_FLAGS_LATE = true) ∧
    (code ≤ 1 → d'.rd (Reg.DMD_SEQ k) = d.rd (Reg.DMD_SEQ k) + 1 ∧ d'.rd (Reg.DMD_APPLIED_LO k) = Dev.lo32 d.now ∧
      d'.rd (Reg.DMD_APPLIED_HI k) = Dev.hi32 d.now) ∧
    (1 < code → d'.rd (Reg.DMD_SEQ k) = d.rd (Reg.DMD_SEQ k) ∧ d'.rd (Reg.DMD_APPLIED_LO k) = d.rd (Reg.DMD_APPLIED_LO k)) ∧
    Dev.srcOf k 0x40 ∈ d'.irq.raised

/-- The registers that a commit's result touches, in both halves. -/
def commitRegs : List Nat := [Half.a, Half.b].flatMap fun k =>
  [Reg.DMD_STAT k, Reg.DMD_RES k, Reg.DMD_FLAGS k, Reg.DMD_SEQ k, Reg.DMD_APPLIED_LO k, Reg.DMD_APPLIED_HI k]

/-- A COMMIT on its arrival (R183, R184, R415): the first failing condition rejects it, in both halves for a cross-half
commit but for 0x11, with nothing locked; else it is CHECKING with its groups locked, from the crossing on in the other half
where it names groups of that (4 tk, log 4). -/
def CommitArrivalRule : Prop :=
  ∀ (s : State) (t : Tick) (m : Master) (h : Half) (groups xgroups : Byte) (when : BitVec 2),
    let d := s.devAt t
    let cmd := Instr.dmdCommit t m h groups xgroups when
    let cross := decide (xgroups ≠ 0)
    let busy := (d.half h).commit.isSome || (cross && (d.half h.other).commit.isSome)
    let rejected := fun (code : Nat) (d' : Dev) =>
      (∀ k : Half, (k = h ∨ (cross = true ∧ code ≠ 0x11 ∧ d.grade = .tzn5120)) →
        d'.rd (Reg.DMD_RES k) = BitVec.ofNat 32 (code * 2 ^ 24 + 0xFF00 + bnat cross * 2 ^ 5) ∧
        d'.bit (Reg.DMD_FLAGS k) F.DMD_FLAGS_DONE = true ∧ d'.bit (Reg.DMD_FLAGS k) F.DMD_FLAGS_REJ = true ∧
        Dev.srcOf k 0x40 ∈ d'.irq.raised) ∧
      d'.a = d.a ∧ d'.b = d.b ∧ RegsKept d d' [Reg.DMD_RES .a, Reg.DMD_FLAGS .a, Reg.DMD_RES .b, Reg.DMD_FLAGS .b]
    d.reach (Reg.DMD_CMT h) true = true →
    (groups = 0 → xgroups = 0 → Does cmd s (rejected 0x10)) ∧
    ((groups ≠ 0 ∨ xgroups ≠ 0) →
      (busy = true → Does cmd s (rejected 0x11)) ∧
      (busy = false → d.operating = false → Does cmd s (rejected 0x12)) ∧
      (busy = false → d.operating = true → (d.absent h || (cross && d.absent h.other)) = true → Does cmd s (rejected 0x13)) ∧
      (busy = false → d.operating = true → d.absent h = false → (cross = true → d.absent h.other = false) →
        (when = 2 → d.issuing h = false → Does cmd s (rejected 0x14)) ∧
        ((when = 2 → d.issuing h = true) → cross = true → d.xlkA = false ∨ d.xlkB = false →
          Does cmd s (rejected 0x15)) ∧
        ((when = 2 → d.issuing h = true) → (cross = true → d.xlkA = true ∧ d.xlkB = true) →
          (when = 2 → d.cycLen h ≤ (d.rd (Reg.DMD_WHEN_LO h)).toNat → Does cmd s (rejected 0x18)) ∧
          (when = 3 → Does cmd s (rejected 0x19)) ∧
          (when ≠ 3 → (when = 2 → (d.rd (Reg.DMD_WHEN_LO h)).toNat < d.cycLen h) → Does cmd s (fun d' =>
            ∃ c : Commit, (d'.half h).commit = some c ∧ c.groups = groups ∧ c.lead = true ∧ c.cross = cross ∧
              c.apply = when.toNat ∧ c.checked = false ∧ c.checkEnd = none ∧ c.fixedT = none ∧
              c.speed = d.rd (Reg.ANG_SPEED h) ∧ c.lockT = d.now ∧
              c.waits = (d.ctxWrites h || (cross && d.ctxWrites h.other)) ∧
              (c.ends = true ↔ ∃ t0 : Nat, d.link.hbValidT = some t0 ∧ t0 ≤ d.now) ∧
              (when = 2 → d.phi h < (c.target : Rat) ∧ (c.target : Rat) ≤ d.phi h + ofN (d.cycLen h) ∧
                c.target % (max 1 (d.cycLen h) : Nat) = (d.rd (Reg.DMD_WHEN_LO h)).toNat) ∧
              d'.f (Reg.DMD_STAT h) F.DMD_STAT_STATE = 1 ∧ d'.f (Reg.DMD_STAT h) F.DMD_STAT_LOCKED = groups.toNat ∧
              d'.bit (Reg.DMD_STAT h) F.DMD_STAT_XH = cross ∧
              (cross = true → ∃ o : Commit, (d'.half h.other).commit = some o ∧ o.groups = xgroups ∧ o.lead = false ∧
                o.lockT = d.now + 4 ∧ d'.lockedGroups h.other = 0 ∧ o.speed = d.rd (Reg.ANG_SPEED h.other) ∧
                d'.f (Reg.DMD_STAT h.other) F.DMD_STAT_LOCKED = xgroups.toNat ∧
                d'.f (Reg.DMD_STAT h.other) F.DMD_STAT_STATE = 1) ∧
              (cross = false → d'.half h.other = d.half h.other) ∧
              RegsKept d d' [Reg.DMD_STAT .a, Reg.DMD_STAT .b])))))

/-- ABORT at the half that leads ends a commit with 0x17, in the switch cycle or anywhere else it does nothing; a staged word is written, or
discarded with a bus error and STG_LOCKED while its group is locked (R184, R187). -/
def AbortAndStagedWritesRule : Prop :=
  ∀ (s : State) (t : Tick) (m : Master) (h : Half) (n : Fin 128) (w : Fin 8) (v : Word),
    let d := s.devAt t
    let a := Reg.DMD_ANGLE h n.val + 4 * w.val
    let locked := ∃ c : Commit, (d.half h).commit = some c ∧ c.lockT ≤ d.now ∧ c.groups.getLsbD (n.val / 16) = true
    let tooLate := d.dmdDue h = true ∧ d.dmdPass h = false
    let mask : Word := [0xFFFFFF, 0xFFFFFFFF, 0xFFFFFFFF, 0xFFFF010F, 0xFFFFFFFF, 0xFFFFFFFF].getD w.val 0
    (d.reach (Reg.DMD_CMT h) true = true →
      (∀ c : Commit, (d.half h).commit = some c → c.lead = true → ¬tooLate → Does (.dmdAbort t m h) s (fun d' =>
        CommitEnded d d' h c.cross 0x17 none none false ∧ RegsKept d d' commitRegs)) ∧
      (d.leadOf h ≠ some h ∨ tooLate → Does (.dmdAbort t m h) s (fun d' => d' = { d with answer := ⟨false, 0⟩ }))) ∧
    (d.reach a true = true →
      (¬locked ∨ 6 ≤ w.val → Does (.stagedSlotWrite t m h n w v) s (fun d' =>
        d'.rd a = (d.rd a &&& ~~~mask) ||| (v &&& mask) ∧ d'.answer = ⟨false, 0⟩ ∧ RegsKept d d' [a] ∧
        HiddenKept d { d' with answer := d.answer })) ∧
      (locked → w.val < 6 → Does (.stagedSlotWrite t m h n w v) s (fun d' =>
        d'.rd a = d.rd a ∧ d'.answer = ⟨true, 0⟩ ∧ d'.bit (Reg.DMD_FLAGS h) F.DMD_FLAGS_STG_LOCKED = true ∧
        RegsKept d d' [Reg.DMD_FLAGS h] ∧ HiddenKept d { d' with answer := d.answer })))

end Sys2Proof.Claims

/-- COMMIT on arrival, ABORT, and staged writes. What the model chose in it: log 37. -/
def Obligations.CommitArrivalAndAbort : Prop :=
  CommitArrivalRule ∧ AbortAndStagedWritesRule

namespace Sys2Proof.Claims

/-- The end of a commit's checks and the tick of its switch (R185, R186, R189): a failed check ends the commit with its
code, channel and slot, the lead half's first; else it is PENDING, with the switch in the next cycle (both halves: 8 tk on),
at its tick, or at its angle, or the next passage of one that lies behind, which the lead half turns into a common tick 160 tk ahead where both halves take part. -/
def CommitChecksAndTickRule : Prop :=
  ∀ (s : State) (t : Tick) (h : Half) (c : Commit),
    let d := s.devAt t
    let bad := (d.dmdView h c).checks (Dev.groupSlots c.groups)
    let st := Reg.DMD_STAT h
    let pending := fun (d' : Dev) (g : Commit) =>
      (d'.half h).commit = some { g with checkEnd := some d.now, fail := none, checked := true } ∧
      d'.f st F.DMD_STAT_STATE = 2 ∧ d'.f st F.DMD_STAT_LOCKED = c.groups.toNat ∧
      RegsKept d d' ([st] ++ if c.cross then [Reg.DMD_STAT h.other] else [])
    let p := Dev.absTime (d.track h).tPrev ((d.model h).predict (c.target : Rat) none).1 / 65536
    (d.half h).commit = some c → c.lead = true →
    (c.waits = true ∨ c.checkEnd.isSome = true → Does (.dmdChecksEnd t h) s (fun d' => d' = d)) ∧
    (c.waits = false → c.checkEnd = none → c.cross = false →
      (∀ f : Dmd.Fail, bad = some f → Does (.dmdChecksEnd t h) s (fun d' =>
        CommitEnded d d' h false f.1 f.2.1 f.2.2 (decide (h = .b)) ∧ RegsKept d d' commitRegs)) ∧
      (bad = none →
        (c.apply = 0 → Does (.dmdChecksEnd t h) s (fun d' => pending d' { c with fixedT := some (d.now + 1) })) ∧
        (c.apply = 1 → Does (.dmdChecksEnd t h) s (fun d' =>
          pending d' { c with fixedT := some (max c.tick d.now), late := decide (c.tick < d.now) })) ∧
        (c.apply = 2 → d.phi h < (c.target : Rat) → Does (.dmdChecksEnd t h) s (fun d' => pending d' c)) ∧
        (c.apply = 2 → (c.target : Rat) ≤ d.phi h → Does (.dmdChecksEnd t h) s (fun d' =>
          let before := Dev.interpTo (d.model h) (d.now - 1) (d.track h)
          pending d' (if (before.phi : Rat) / pow2Q 24 < (c.target : Rat) then { c with reached := true }
            else { c with late := true, target := d.nextTarget h c.target }))))) ∧
    (c.waits = false → c.checkEnd = none → c.cross = true → ∀ o : Commit, (d.half h.other).commit = some o →
      o.checkEnd = none → Does (.dmdChecksEnd t h) s (fun d' =>
        (d'.half h).commit = some { c with checkEnd := some d.now, fail := bad } ∧
        (d'.half h.other).commit = some o ∧ RegsKept d d' [st] ∧ d'.f st F.DMD_STAT_STATE = (if c.checked then 2 else 1))) ∧
    (c.waits = false → c.checkEnd = none → c.cross = true → bad = none → ∀ o : Commit, (d.half h.other).commit = some o →
      o.checkEnd.isSome = true →
      (∀ f : Dmd.Fail, o.fail = some f → Does (.dmdChecksEnd t h) s (fun d' =>
        CommitEnded d d' h true f.1 f.2.1 f.2.2 (decide (h = .a)) ∧ RegsKept d d' commitRegs)) ∧
      (o.fail = none → c.apply = 0 → Does (.dmdChecksEnd t h) s (fun d' =>
        pending d' { c with fixedT := some (d.now + 8) } ∧
        (d'.half h.other).commit = some { o with checked := true, fixedT := some (d.now + 8) }))) ∧
    (c.cross = true → c.checked = true → c.fixedT = none → c.apply = 2 → ∀ o : Commit, (d.half h.other).commit = some o →
      (p ≤ d.now + 160 → Does (.crossHalfTimeFix t h) s (fun d' =>
        (d'.half h).commit = some { c with fixedT := some (max p d.now) } ∧
        (d'.half h.other).commit = some { o with fixedT := some (max p d.now) } ∧
        RegsKept d d' [Reg.DMD_STAT .a, Reg.DMD_STAT .b])) ∧
      (d.now + 160 < p → Does (.crossHalfTimeFix t h) s (fun d' => d' = d)))

/-- The switch of a commit (R182, R185, R193, R194): at its tick or angle the staged words of every committed slot
become the active ones, in every half that it involves, at once, and it ends APPLIED or LATE; it waits for a running
tooth pass. What is due on the old values in that cycle goes first (R179): here nothing is. -/
def CommitSwitchRule : Prop :=
  ∀ (s : State) (t : Tick) (h : Half) (c : Commit),
    let d := s.devAt t
    let now' := match c.fixedT with
      | some k => k ≤ d.now
      | none => c.apply = 2 ∧ c.cross = false ∧ (c.reached = true ∨ (c.target : Rat) ≤ d.phi h)
    let passing := (d.track h).passing || (c.cross && (d.track h.other).passing)
    (d.half h).commit = some c → c.lead = true →
    (∀ k : Half, NoTakeBelow d k 256 ∧ d.firstInternal k = none) →
    (c.checked = false ∨ ¬now' → Does (.dmdSwitch t h) s (fun d' => d' = d)) ∧
    (c.checked = true → now' → passing = true → Does (.dmdSwitch t h) s (fun d' =>
      (d'.half h).commit = some { c with reached := true } ∧ RegsKept d d' [Reg.DMD_STAT h])) ∧
    (c.checked = true → now' → passing = false → Does (.dmdSwitch t h) s (fun d' =>
      CommitEnded d d' h c.cross (bnat c.late) none none false ∧
      (∀ (k : Half) (ck : Commit), (k = h ∨ c.cross = true) → (d.half k).commit = some ck →
        (∀ n : Nat, n < 128 → ck.groups.getLsbD (n / 16) = true → ∀ w : Nat, w < 6 →
          d'.rd (Reg.DMD_ANGLE_ACT k n + 4 * w) = d.rd (Reg.DMD_ANGLE k n + 4 * w)) ∧
        (∀ n : Nat, n < 128 → ck.groups.getLsbD (n / 16) = false → ∀ w : Nat, w < 6 →
          d'.rd (Reg.DMD_ANGLE_ACT k n + 4 * w) = d.rd (Reg.DMD_ANGLE_ACT k n + 4 * w)) ∧
        (ck.ends = true → d'.bit (Reg.DMD_STAT k) F.DMD_STAT_FUELCUT = false)) ∧
      (∀ a : Nat, a ∉ commitRegs → (∀ (k : Half) (n : Nat), a ≠ Reg.EVC_PRED k n ∧ a ≠ Reg.EVC_STAT k n ∧
        ∀ w : Nat, a ≠ Reg.DMD_ANGLE_ACT k n + 4 * w) → d'.rd a = d.rd a)))

end Sys2Proof.Claims

/-- A commit's checks, its tick and its switch. What the model chose in it: log 37. -/
def Obligations.CommitChecksAndSwitch : Prop :=
  CommitChecksAndTickRule ∧ CommitSwitchRule

/-! ### Injector banks (09_injector_drive) -/

namespace Sys2Proof.Claims

/-- The gates of a bank at a tick: boost, battery, low-side. -/
def Gates (x : Bank) (now : Nat) (hsb hsv inj : Bool) : Prop :=
  Dev.gateOn x.hsb now = hsb ∧ Dev.gateOn x.hsv now = hsv ∧ Dev.gateOn x.inj now = inj

/-- Of a half's banks only one differs. -/
def OneBank (d d' : Dev) (h : Half) (b : Nat) : Prop :=
  (∀ k : Nat, k ≠ b → d'.bank h k = d.bank h k) ∧ d'.half h.other = d.half h.other

/-- A shot of a bank ended now by fast decay (R202, R208): every gate off, its record to be written. -/
def ShotEnded (d d' : Dev) (h : Half) (b : Nat) (s : Shot) : Prop :=
  let x := d'.bank h b
  x.phase = .decay ∧ Gates x d.now false false false ∧ x.lastEnd = some d.now ∧ x.decaying = !s.bankOff ∧
  (∃ s' : Shot, x.shot = some s' ∧ s'.endT = d.now ∧ s'.record = true ∧ s'.start = s.start ∧ s'.ls = s.ls) ∧
  d'.bit (Reg.DRV_BANKSTAT h b) F.DRV_BANKSTAT_ACTIVE = false ∧ OneBank d d' h b

/-- A transition to the peak or the hold phase has begun (R202): fast decay for TFAST, or slow decay at once. -/
def InTransition (d d' : Dev) (h : Half) (b : Nat) (s : Shot) (hold : Bool) : Prop :=
  let x := d'.bank h b
  let fast := getF s.pcfg F.DRV_PCFG_TFAST ≠ 0
  x.phase = (if fast then .transFast else .transSlow) ∧ Gates x d.now false false (decide (¬fast) && !s.bankOff) ∧
  (∃ s' : Shot, x.shot = some s' ∧ s'.nextHold = hold ∧ s'.phaseT = d.now ∧ s'.peakT = d.now ∧ s'.start = s.start) ∧
  OneBank d d' h b

/-- The phases of a shot (R202, R203, R217, R222): the boost phase ends at its level or at TMAX with its time to peak
tested, which TTPEND turns into the shot's end; TFAST turns fast into slow decay; the next phase starts with the battery
gate on; the peak TIME leads to hold, the hold TIME ends the shot with HOLD_TMO. A shot that ended in the same DRIVE cycle
carries the time to peak of its boost phase, or HOLD_TMO, all the same. -/
def ShotPhasesRule : Prop :=
  ∀ (s : State) (t : Tick) (h : Half) (b : Fin 6) (level : Bool) (sh : Shot),
    let d := s.devAt t
    let x := d.bank h b.val
    let st := Reg.DRV_BANKSTAT h b.val
    let diag := Reg.DRV_STAT h
    let ttp := (d.now - sh.start) / 4
    let short := !sh.degraded && decide (ttp < 10 * getF sh.pdiag F.DRV_PDIAG_TTP_MIN)
    let long := !sh.degraded && (!level || decide (10 * getF sh.pdiag F.DRV_PDIAG_TTP_MAX ≤ ttp))
    let ends := (short || long) && getB sh.pcfg F.DRV_PCFG_TTPEND
    let justEnded := x.phase = .decay ∧ sh.endT / 4 = d.now / 4 ∧ sh.record = true
    let boostDue := level = true ∨ sh.start + 40 * getF sh.pboost F.DRV_PBOOST_TMAX ≤ d.now
    let opened := justEnded ∧ sh.openLoad = true ∧ sh.boosted = true ∧ sh.ttp = none
    let fastDue := sh.phaseT + 40 * getF sh.pcfg F.DRV_PCFG_TFAST ≤ d.now
    let peakDue := sh.peakT + 40 * getF sh.ppeak F.DRV_PPEAK_TIME ≤ d.now
    let time := getF sh.phold F.DRV_PHOLD_TIME
    let holdDue := sh.nextHold = true ∧ time ≠ 0 ∧ sh.peakT + usTk time ≤ d.now
    let holdFlags := fun d' : Dev =>
      (∃ s' : Shot, (d'.bank h b.val).shot = some s' ∧ s'.holdTmo = true) ∧
      d'.bit st F.DRV_BANKSTAT_HOLD_TMO = true ∧ d'.bit diag F.DRV_STAT_DIAG = true ∧ RegsKept d d' [st, diag]
    x.shot = some sh →
    (x.phase = .boost → boostDue →
      (ends = true → Does (.boostPhaseEnd t h b level) s (fun d' => ShotEnded d d' h b.val sh)) ∧
      (ends = false → Does (.boostPhaseEnd t h b level) s (fun d' => InTransition d d' h b.val sh false))) ∧
    ((x.phase = .boost ∨ opened) → boostDue →
      Does (.boostPhaseEnd t h b level) s (fun d' =>
        d'.bit st F.DRV_BANKSTAT_TTP_SHORT = (d.bit st F.DRV_BANKSTAT_TTP_SHORT || short) ∧
        d'.bit st F.DRV_BANKSTAT_TTP_LONG = (d.bit st F.DRV_BANKSTAT_TTP_LONG || long) ∧
        d'.bit diag F.DRV_STAT_DIAG = (d.bit diag F.DRV_STAT_DIAG || short || long) ∧
        (sh.degraded = false → ∃ s' : Shot, (d'.bank h b.val).shot = some s' ∧ s'.ttp = some ttp) ∧
        (opened → (d'.bank h b.val).phase = .decay) ∧ RegsKept d d' [st, diag])) ∧
    ((x.phase ≠ .boost ∧ ¬opened) ∨ ¬boostDue → Does (.boostPhaseEnd t h b level) s (fun d' => d' = d)) ∧
    (x.phase = .transFast → fastDue → Does (.fastDecayTimeEnd t h b) s (fun d' =>
      (d'.bank h b.val).phase = .transSlow ∧ Gates (d'.bank h b.val) d.now false false (!sh.bankOff) ∧
      (d'.bank h b.val).shot = some sh ∧ OneBank d d' h b.val ∧ RegsKept d d' [])) ∧
    (x.phase ≠ .transFast ∨ ¬fastDue → Does (.fastDecayTimeEnd t h b) s (fun d' => d' = d)) ∧
    (x.phase = .transSlow → Does (.transitionEnd t h b) s (fun d' =>
      (d'.bank h b.val).phase = (if sh.nextHold then .hold else .peak) ∧
      Gates (d'.bank h b.val) d.now false (!sh.bankOff) (!sh.bankOff) ∧
      (d'.bank h b.val).shot = some { sh with phaseT := d.now } ∧ OneBank d d' h b.val ∧ RegsKept d d' [])) ∧
    (x.phase ≠ .transSlow → Does (.transitionEnd t h b) s (fun d' => d' = d)) ∧
    (x.phase = .peak → peakDue → Does (.peakTimeEnd t h b) s (fun d' =>
      InTransition d d' h b.val sh true ∧ RegsKept d d' [])) ∧
    (x.phase ≠ .peak ∨ ¬peakDue → Does (.peakTimeEnd t h b) s (fun d' => d' = d)) ∧
    (x.phase = .hold → holdDue → Does (.holdTimeout t h b) s (fun d' => ShotEnded d d' h b.val sh ∧ holdFlags d')) ∧
    (justEnded → holdDue → Does (.holdTimeout t h b) s (fun d' => (d'.bank h b.val).phase = .decay ∧ holdFlags d')) ∧
    (¬holdDue ∨ (x.phase ≠ .hold ∧ ¬justEnded) → Does (.holdTimeout t h b) s (fun d' => d' = d))

/-- Chopping, diagnosis and protection of a shot (R198, R201, R203, R216, R217, R222): at a chop threshold the battery gate
follows the level, at the earliest MINCHOP after its last change, and a crossing back before then withdraws the change; a
current below OL flags OPEN; a monitor is active BLANK after its FET turned on; a monitored condition ends the shot,
latches the bank off and, with FC, is a DRIVE fault; a high-side gate on for 5 ms is off for 1 µs. -/
def ShotChopAndProtectionRule : Prop :=
  ∀ (s : State) (t : Tick) (h : Half) (b : Fin 6) (upper : Bool) (code : BitVec 10) (sh : Shot),
    let d := s.devAt t
    let x := d.bank h b.val
    let st := Reg.DRV_BANKSTAT h b.val
    let diag := Reg.DRV_STAT h
    let blank := 200 * (getF sh.diag F.DRV_BANKDIAG_BLANK + 1)
    let runs := x.phase ≠ .idle ∧ x.phase ≠ .decay
    let justEnded := x.phase = .decay ∧ sh.endT / 4 = d.now / 4 ∧ sh.record = true
    let low := code.toNat < getF sh.diag F.DRV_BANKDIAG_OL
    let tested := sh.boosted = true ∨ sh.start + usTk 20 ≤ d.now
    let chops := (x.phase = .peak ∨ x.phase = .hold) ∧ sh.bankOff = false ∧ (sh.boosted = true ∨ sh.ttp.isSome = true)
    let chopped := fun (at' : Nat) (d' : Dev) =>
      let y := d'.bank h b.val
      (∀ u : Nat, d.now ≤ u → Dev.gateOn y.hsv u = if u < at' then upper else !upper) ∧ y.hsb = x.hsb ∧ y.inj = x.inj ∧
      y.phase = x.phase ∧ y.shot = some sh ∧ OneBank d d' h b.val ∧ RegsKept d d' []
    let due := fun g : Gate => Dev.gateOn g d.now = true ∧ g.onT + blank ≤ d.now
    let worn := fun g : Gate => g.on = true ∧ Dev.gateOn g d.now = true ∧ g.fullT + usTk 5000 ≤ d.now
    let rested := fun (g : Gate) => g.fullT = d.now + usTk 1 ∧ ∀ u : Nat, Dev.gateOn g u = decide (d.now + usTk 1 ≤ u)
    x.shot = some sh →
    (chops → x.hsv.on = upper → x.hsv.since ≤ d.now →
      Does (.chopThreshold t h b upper) s (chopped (max d.now (x.hsv.since + sh.minChop)))) ∧
    (chops → x.hsv.on = upper → d.now < x.hsv.since → x.hsv.since ≤ d.now + sh.minChop →
      Does (.chopThreshold t h b upper) s (chopped d.now)) ∧
    (chops → x.hsv.on = !upper → Does (.chopThreshold t h b upper) s (fun d' => (d'.bank h b.val).hsv = x.hsv ∧
      (d'.bank h b.val).shot = some sh ∧ OneBank d d' h b.val ∧ RegsKept d d' [])) ∧
    (¬(x.phase = .peak ∨ x.phase = .hold) → Does (.chopThreshold t h b upper) s (fun d' => d' = d)) ∧
    (runs ∨ justEnded → tested → low → Does (.openLoadCheck t h b code) s (fun d' =>
      d'.bit st F.DRV_BANKSTAT_OPEN = true ∧ d'.bit diag F.DRV_STAT_DIAG = true ∧
      (∃ s' : Shot, (d'.bank h b.val).shot = some s' ∧ s'.openLoad = true ∧ s'.ttpLong = (sh.ttpLong || sh.boosted)) ∧
      (getB sh.pcfg F.DRV_PCFG_TTPEND = true → runs → ShotEnded d d' h b.val sh) ∧
      (getB sh.pcfg F.DRV_PCFG_TTPEND = false ∨ justEnded → (d'.bank h b.val).phase = x.phase) ∧
      RegsKept d d' [st, diag])) ∧
    ((¬runs ∧ ¬justEnded) ∨ ¬tested ∨ ¬low → Does (.openLoadCheck t h b code) s (fun d' => d' = d)) ∧
    ((due x.hsb → Does (.monitorBlankEnd t h b .hsb) s (fun d' =>
        d'.bank h b.val = { x with monHsb := true } ∧ OneBank d d' h b.val ∧ RegsKept d d' [])) ∧
      (¬due x.hsb → Does (.monitorBlankEnd t h b .hsb) s (fun d' => d' = d)) ∧
      (due x.hsv → Does (.monitorBlankEnd t h b .hsv) s (fun d' =>
        d'.bank h b.val = { x with monHsv := true } ∧ OneBank d d' h b.val ∧ RegsKept d d' [])) ∧
      (due x.inj → Does (.monitorBlankEnd t h b .ls) s (fun d' =>
        d'.bank h b.val = { x with monLs := true } ∧ OneBank d d' h b.val ∧ RegsKept d d' []))) ∧
    (∀ (cause : BankTrip) (bit : Fld),
      (cause = .vdsHsb ∧ x.monHsb = true ∧ Dev.gateOn x.hsb d.now = true ∧ bit = F.DRV_BANKSTAT_VDS_HSB ∨
        cause = .vdsHsv ∧ x.monHsv = true ∧ Dev.gateOn x.hsv d.now = true ∧ bit = F.DRV_BANKSTAT_VDS_HSV ∨
        cause = .vdsLs ∧ x.monLs = true ∧ Dev.gateOn x.inj d.now = true ∧
          bit = (if sh.ls % 2 = 0 then F.DRV_BANKSTAT_VDS_LS0 else F.DRV_BANKSTAT_VDS_LS1) ∨
        cause = .oc ∧ Dev.gateOn x.inj d.now = true ∧ bit = F.DRV_BANKSTAT_OC) → runs →
      Does (.bankProtectionTrip t h b cause) s (fun d' => ∃ e : Dev, ShotEnded d e h b.val sh ∧ e.bit st bit = true ∧
        (∃ s' : Shot, (e.bank h b.val).shot = some s' ∧ s'.bankOff = (sh.bankOff || decide (sh.start / 4 = d.now / 4))) ∧
        e.bit st F.DRV_BANKSTAT_OFF = true ∧ e.bit diag F.DRV_STAT_DIAG = true ∧ RegsKept d e [st, diag] ∧
        d' = if getB sh.diag F.DRV_BANKDIAG_FC then e.fault .drive (.half h) else e)) ∧
    (∀ cause : BankTrip, ¬runs ∨ Dev.tripLive x d.now cause = false →
      Does (.bankProtectionTrip t h b cause) s (fun d' => d' = d)) ∧
    (worn x.hsb → Does (.bootstrapRefresh t h b .hsb) s (fun d' =>
      rested (d'.bank h b.val).hsb ∧ { d'.bank h b.val with hsb := x.hsb } =
        { x with monHsb := false, shot := some { sh with refresh := true } } ∧ OneBank d d' h b.val ∧ RegsKept d d' [])) ∧
    (worn x.hsv → Does (.bootstrapRefresh t h b .hsv) s (fun d' =>
      rested (d'.bank h b.val).hsv ∧ { d'.bank h b.val with hsv := x.hsv } =
        { x with monHsv := false, shot := some { sh with refresh := true } } ∧ OneBank d d' h b.val ∧ RegsKept d d' [])) ∧
    (¬worn x.hsb → Does (.bootstrapRefresh t h b .hsb) s (fun d' => d' = d))

end Sys2Proof.Claims

/-- Injector shots: phases, chopping, diagnosis and protection. What the model chose in it: log 38, 39. -/
def Obligations.ShotPhasesAndProtection : Prop :=
  ShotPhasesRule ∧ ShotChopAndProtectionRule

namespace Sys2Proof.Claims

/-- The slope of a sampled signal over a window of `w` samples, from sample w on (R218). -/
def slopes (w : Nat) (xs : List Int) : List Int := List.zipWith (fun x y => x - y) (xs.drop w) xs

/-- The slope of a sample has fallen below k/16 of the largest slope so far, which is positive (R218). -/
def slopeFalls (k : Nat) (sl : List Int) (i : Nat) : Bool :=
  let smax := (sl.take (i + 1)).foldl max 0
  match sl[i]? with
  | some v => decide (0 < smax) && decide (16 * v < k * smax)
  | none => false

/-- Sample n is the knee of a search: the first whose slope has fallen so (R218). -/
def KneeAt (k w : Nat) (xs : List Int) (n : Nat) : Prop :=
  w ≤ n ∧ slopeFalls k (slopes w xs) (n - w) = true ∧ ∀ i : Nat, i < n - w → slopeFalls k (slopes w xs) i = false

/-- Needle detection and the result record (R218, R219, R220): the opening knee in the samples of its window, the closing
arm, the closing knee in the samples from the arm point up to CWIN after the end, half a slope window back, its timeout;
the record with its count once the search has ended, and the correction C of a hydraulic shot with both knees and no
flag. -/
def NeedleAndRecordRule : Prop :=
  ∀ (s : State) (t : Tick) (h : Half) (b : Fin 6) (sh : Shot) (xs : List Nat),
    let d := s.devAt t
    let x := d.bank h b.val
    let runs := x.phase ≠ .idle ∧ x.phase ≠ .decay
    let w := 2 ^ (getF sh.pneedle F.DRV_PNEEDLE_SW + 4)
    let from' := sh.start + usTk (2 * getF sh.pneedle F.DRV_PNEEDLE_OWS)
    let upTo := sh.start + usTk (2 * getF sh.pneedle F.DRV_PNEEDLE_OWE)
    let current : List Int := xs.map fun (v : Nat) => (v : Int)
    let drain : List Int := xs.map fun (v : Nat) => -(v : Int)
    let taken := fun t0 : Nat => t0 + 4 * (xs.length - 1) ≤ d.now
    let opens := fun n : Nat => (runs ∨ sh.record = true) ∧ getB sh.pcfg F.DRV_PCFG_NEEDLE_EN = true ∧ sh.bankOff = false ∧
      sh.knee = none ∧ taken from' ∧ KneeAt (getF sh.pneedle F.DRV_PNEEDLE_KO) w current n ∧ from' + 4 * n ≤ upTo
    let limit := sh.endT + usTk (2 * getF sh.phyd F.DRV_PHYD_CWIN)
    let only := fun (d' : Dev) (s' : Shot) => d'.bank h b.val = { x with shot := some s' } ∧ OneBank d d' h b.val
    let n := sh.ls
    let a := Reg.DRV_HYDC h n sh.pos
    let res := [Reg.DRV_RES_START h n, Reg.DRV_RES_END h n, Reg.DRV_RES_OPEN h n, Reg.DRV_RES_CLOSE h n,
      Reg.DRV_RES_TTP h n, Reg.DRV_RES_HYD h n, Reg.DRV_RES_FLAGS h n, Reg.DRV_RES_SEQ h n]
    x.shot = some sh →
    (∀ k : Nat, opens k → Does (.openingKnee t h ⟨b, xs⟩) s (fun d' =>
      only d' { sh with knee := some (from' + 4 * k - 2 * w) } ∧ RegsKept d d' [])) ∧
    ((∀ k : Nat, k < xs.length → ¬opens k) → Does (.openingKnee t h ⟨b, xs⟩) s (fun d' => d' = d)) ∧
    (sh.record = true → sh.searchDone = false →
      (sh.armT = none → Does (.closingArm t h b) s (fun d' =>
        only d' { sh with armT := some (sh.start + (d.now - sh.start) / 4 * 4) } ∧ RegsKept d d' [])) ∧
      (∀ t0 k : Nat, sh.armT = some t0 → taken t0 → KneeAt (getF sh.phyd F.DRV_PHYD_KC) w drain k → t0 + 4 * k ≤ limit →
        Does (.closingKnee t h ⟨b, xs⟩) s (fun d' =>
          only d' { sh with closeKnee := some (t0 + 4 * k - 2 * w), searchDone := true } ∧ RegsKept d d' [])) ∧
      (limit ≤ d.now → Does (.closingSearchTimeout t h b) s (fun d' =>
        only d' { sh with searchDone := true } ∧ RegsKept d d' [])) ∧
      (d.now < limit → Does (.closingSearchTimeout t h b) s (fun d' => only d' sh ∧ RegsKept d d' [])) ∧
      Does (.resultRecordWrite t h b) s (fun d' => d' = d)) ∧
    (sh.record = true → sh.searchDone = true → n < 12 → sh.pos < 8 → Does (.resultRecordWrite t h b) s (fun d' =>
      only d' { sh with record := false } ∧
      d'.rd (Reg.DRV_RES_START h n) = Dev.lo32 sh.start ∧ d'.rd (Reg.DRV_RES_END h n) = Dev.lo32 sh.endT ∧
      d'.rd (Reg.DRV_RES_OPEN h n) = Dev.lo32 (sh.knee.getD 0) ∧
      d'.rd (Reg.DRV_RES_CLOSE h n) = Dev.lo32 (sh.closeKnee.getD 0) ∧
      d'.f (Reg.DRV_RES_TTP h n) ⟨15, 0⟩ = (match sh.ttp with | some k => min k 0xFFFF | none => 0xFFFF) ∧
      d'.rd (Reg.DRV_RES_SEQ h n) = d.rd (Reg.DRV_RES_SEQ h n) + 1 ∧
      d'.bit (Reg.DRV_RES_FLAGS h n) ⟨31, 31⟩ = sh.cut ∧ d'.bit (Reg.DRV_RES_FLAGS h n) ⟨30, 30⟩ = sh.bankOff ∧
      d'.bit (Reg.DRV_RES_FLAGS h n) ⟨29, 29⟩ = sh.degraded ∧ d'.bit (Reg.DRV_RES_FLAGS h n) ⟨7, 7⟩ = Dev.updates sh ∧
      (∀ o c : Nat, sh.knee = some o → sh.closeKnee = some c →
        d'.rd (Reg.DRV_RES_HYD h n) = wordOfInt ((c : Int) - o)) ∧
      (Dev.updates sh = true → getS (d'.rd a) F.DRV_HYDC_CORR =
        (Dev.newCorr sh (getS (d.rd a) F.DRV_HYDC_CORR)).1) ∧
      (Dev.updates sh = false → d'.rd a = d.rd a) ∧ RegsKept d d' (res ++ [a, Reg.DRV_STAT h])))

/-- The start of a shot at its balls, the end of its fast decay and the clears (R202, R206, R214, R216, R221): a start
edge that the voter passes opens the boost or the peak phase with the gates it needs, on a live bank, with every setting
taken then; the bank is idle when its current is gone; DRV_BANKCLR unlatches the banks it names and DRV_HYDCLR clears the
corrections of the low-sides it names, but for what the hardware did in the same cycle (R8, R11), and nothing else. -/
def ShotStartAndBankClearsRule : Prop :=
  ∀ (s : State) (t : Tick) (m : Master) (h : Half) (b : Fin 6) (c : Fin 256) (n : Fin 12) (v : Word) (p : Permit),
    let d := s.devAt t
    let x := d.chan h c.val
    let w := d.valsNow h c.val
    let k := n.val / 2
    let cfg := d.rd (Reg.DRV_PCFG h w.profile)
    let boost := getB cfg F.DRV_PCFG_BOOST_EN
    let live := d.bankLive h n.val
    let low := d.bit (Reg.BST_STAT h) F.BST_STAT_BELOW_START
    let weak := x.degrade || (boost && low)
    (x.occ = .launched → w.action = 6 → w.target = n.val → w.profile < 16 → x.passed = false → x.start ≤ d.now →
      (d.opensNow h (.ls n.val)).permitFor h (.ls n.val) = some p → (∀ sh : Shot, (d.bank h k).shot = some sh → sh.record = false) →
      Does (.outputEdgeAtVoter t h c) s (fun d' =>
        let y := d'.bank h k
        y.phase = (if boost then .boost else .peak) ∧
        Gates y d.now (live && boost && !weak) (live && !(boost && !weak)) live ∧
        (∃ sh : Shot, y.shot = some sh ∧ sh.chan = c.val ∧ sh.ls = n.val ∧ sh.start = d.now ∧ sh.pcfg = cfg ∧
          sh.pboost = d.rd (Reg.DRV_PBOOST h w.profile) ∧ sh.ppeak = d.rd (Reg.DRV_PPEAK h w.profile) ∧
          sh.phold = d.rd (Reg.DRV_PHOLD h w.profile) ∧ sh.degraded = weak ∧ sh.bankOff = !live ∧ sh.corr = x.corr ∧
          sh.minChop = 4 * d.f (Reg.DRV_BANKCFG h k) F.DRV_BANKCFG_MINCHOP) ∧
        d'.bit (Reg.DRV_BANKSTAT h k) F.DRV_BANKSTAT_ACTIVE = true ∧
        d'.f (Reg.DRV_BANKSTAT h k) F.DRV_BANKSTAT_ACT_LS = n.val % 2 ∧ (d'.chan h c.val).passed = true)) ∧
    ((d.bank h b.val).phase = .decay → d.laneFault = false → Does (.fastDecayEnd t h b) s (fun d' =>
      (d'.bank h b.val).phase = .idle ∧ (d'.bank h b.val).decaying = false ∧ (d'.bank h b.val).shot = (d.bank h b.val).shot ∧
      d'.bit (Reg.DRV_BANKSTAT h b.val) F.DRV_BANKSTAT_ACTIVE = false ∧ OneBank d d' h b.val ∧
      RegsKept d d' [Reg.DRV_BANKSTAT h b.val])) ∧
    (d.reach (Reg.DRV_BANKCLR h) true = true → Does (.bankClear t m h v) s (fun d' =>
      (∀ j : Nat, j < 6 → d'.bit (Reg.DRV_BANKSTAT h j) F.DRV_BANKSTAT_OFF =
        (if v.getLsbD j then getB (d.hwSet (Reg.DRV_BANKSTAT h j)) F.DRV_BANKSTAT_OFF
          else d.bit (Reg.DRV_BANKSTAT h j) F.DRV_BANKSTAT_OFF) ∧
        BitsKept (d.rd (Reg.DRV_BANKSTAT h j)) (d'.rd (Reg.DRV_BANKSTAT h j)) [F.DRV_BANKSTAT_OFF]) ∧
      RegsKept d d' ((List.range 6).map (Reg.DRV_BANKSTAT h)) ∧ HiddenKept d { d' with answer := d.answer })) ∧
    (d.reach (Reg.DRV_HYDCLR h) true = true → Does (.hydClear t m h v) s (fun d' =>
      (∀ j : Nat, j < 8 → d'.rd (Reg.DRV_HYDC h n.val j) =
        if v.getLsbD n.val then (d.rd (Reg.DRV_HYDC h n.val j) - d.oldRd (Reg.DRV_HYDC h n.val j)) &&& 0xFFFF
        else d.rd (Reg.DRV_HYDC h n.val j)) ∧
      RegsKept d d' ((List.range 12).flatMap fun i => (List.range 8).map (Reg.DRV_HYDC h i)) ∧
      HiddenKept d { d' with answer := d.answer }))

end Sys2Proof.Claims

/-- Injector shots: needle, record, start, decay and clears. What the model chose in it: log 36, 38, 39. -/
def Obligations.NeedleRecordAndShotStart : Prop :=
  NeedleAndRecordRule ∧ ShotStartAndBankClearsRule

/-! ### Boost converter and ignition (09_injector_drive, 10_ignition_outputs) -/

namespace Sys2Proof.Claims

/-- The boost converter (R212, R213, R215): a period starts with the gate on below TARGET and is skipped above; a
measured VBST shows in BST_VMEAS and BELOW_START and times an undervoltage; an overvoltage stops the gate until its
release, which starts softly; an undervoltage that lasted UVTIME is flagged. -/
def BoostConverterRule : Prop :=
  ∀ (s : State) (t : Tick) (h : Half) (mv : Nat),
    let d := s.devAt t
    let st := Reg.BST_STAT h
    let y := (d.half h).boost
    let senses := d.operating = true ∧ (d.half h).enabled = true
    let en := d.bit (Reg.BST_CTRL h) F.BST_CTRL_EN
    let runs := senses ∧ en = true ∧ d.sentinel = false ∧ d.bit st F.BST_STAT_OV_ACT = false
    let target := 250 * d.f (Reg.BST_VCFG h) F.BST_VCFG_TARGET
    let uv := decide (mv < 250 * d.f (Reg.BST_PROT h) F.BST_PROT_UV)
    let only := fun (d' : Dev) (z : Boost) => d'.half h = { d.half h with boost := z } ∧ d'.half h.other = d.half h.other
    let lasted := ∃ t0 : Nat, y.uvT = some t0 ∧ t0 + 400000 * d.f (Reg.BST_PROT h) F.BST_PROT_UVTIME ≤ d.now
    (runs → Does (.boostPeriodStart t h mv) s (fun d' => only d' { y with gate := decide (mv < target) } ∧ RegsKept d d' [])) ∧
    (¬runs → Does (.boostPeriodStart t h mv) s (fun d' => d' = d)) ∧
    Does (.boostGateOff t h) s (fun d' => only d' { y with gate := false } ∧ RegsKept d d' []) ∧
    (senses → Does (.vbstMeasure t h mv) s (fun d' =>
      d'.f (Reg.BST_VMEAS h) F.BST_VMEAS_VBST = min (mv / 100) 1023 ∧
      d'.bit st F.BST_STAT_BELOW_START = decide (mv < 250 * d.f (Reg.BST_VCFG h) F.BST_VCFG_START) ∧
      d'.bit st F.BST_STAT_UV_ACT = uv ∧
      only d' { y with uvT := if uv && en then some (y.uvT.getD d.now) else none } ∧
      RegsKept d d' [Reg.BST_VMEAS h, st])) ∧
    (senses → Does (.vbstOvervoltage t h) s (fun d' => d'.bit st F.BST_STAT_OV = true ∧
      d'.bit st F.BST_STAT_OV_ACT = true ∧ only d' { y with gate := false } ∧
      (d.bit st F.BST_STAT_OV = false → Dev.srcOf h 0x46 ∈ d'.irq.raised) ∧ RegsKept d d' [st])) ∧
    (d.bit st F.BST_STAT_OV_ACT = true → Does (.vbstOvRelease t h) s (fun d' => d'.bit st F.BST_STAT_OV_ACT = false ∧
      only d' { y with softT := some d.now } ∧ RegsKept d d' [st])) ∧
    (d.bit st F.BST_STAT_OV_ACT = false → Does (.vbstOvRelease t h) s (fun d' => d' = d)) ∧
    (senses → en = true → lasted → Does (.vbstUndervoltage t h) s (fun d' => d'.bit st F.BST_STAT_UV = true ∧
      d'.bit st F.BST_STAT_UV_ACT = true ∧ (d.bit st F.BST_STAT_UV = false → Dev.srcOf h 0x45 ∈ d'.irq.raised) ∧
      d'.half h = d.half h ∧ RegsKept d d' [st])) ∧
    (¬senses → Does (.vbstMeasure t h mv) s (fun d' => d' = d) ∧ Does (.vbstOvervoltage t h) s (fun d' => d' = d) ∧
      Does (.vbstUndervoltage t h) s (fun d' => d' = d)) ∧
    (en = false ∨ ¬lasted → Does (.vbstUndervoltage t h) s (fun d' => d' = d))

/-- The ignition outputs (R224 to R230): a start edge raises an enabled output and freezes its settings, an end edge is
the spark with its DWELL and its first recharge due; a dwell of TMAX ends by a soft-off, flagged, unless its end edge
comes in the same DRIVE cycle; the restrikes recharge and spark in turn, and the last ends the voter's count; a soft-off
ramps down over (SOFT + 1) × 0.25 ms of the settings of the dwell, a spark of its DRIVE cycle undone, and the end of the
ramp leaves the output low. -/
def IgnitionOutputsRule : Prop :=
  ∀ (s : State) (t : Tick) (h : Half) (k : Fin 12),
    let d := s.devAt t
    let x := d.ign h k.val
    let st := Reg.IGN_STAT h k.val
    let tmax := 40000 * getF x.cfg F.IGN_CFG_TMAX
    let others := fun d' : Dev => (∀ j : Nat, j ≠ k.val → d'.ign h j = d.ign h j) ∧ d'.half h.other = d.half h.other
    let high := x.high || x.sparkT.any fun t0 => decide (t0 / 4 = d.now / 4)
    (∀ t0 : Nat, x.dwellT = some t0 →
      (x.softoff = false → t0 + tmax ≤ d.now → d.endEdgeNow h k.val = false → Does (.dwellTimeout t h k) s (fun d' =>
        d'.f st F.IGN_STAT_DWELL = min (tmax / 4000) 0xFFFF ∧ d'.bit st F.IGN_STAT_DWELL_TMO = true ∧
        d'.bit st F.IGN_STAT_SOFTOFF = high ∧
        d'.ign h k.val = { x with
          high := high, softoff := high, rampT := d.now, rampTk := 100000 * (getF x.cfg F.IGN_CFG_SOFT + 1)
          dwellT := none, left := 0, nextT := none, recharging := false, sparkT := none, ignoreEnd := true } ∧ others d' ∧ RegsKept d d' [st])) ∧
      (x.softoff = true ∨ d.now < t0 + tmax ∨ d.endEdgeNow h k.val = true → Does (.dwellTimeout t h k) s (fun d' => d' = d))) ∧
    (x.dwellT = none → Does (.dwellTimeout t h k) s (fun d' => d' = d)) ∧
    (∀ t1 : Nat, x.nextT = some t1 →
      (t1 ≤ d.now → x.recharging = false → Does (.restrikeStep t h k) s (fun d' =>
        d'.ign h k.val = { x with high := true, recharging := true, nextT := some (t1 + 4000 * getF x.ms F.IGN_MS_RECH) } ∧
        others d' ∧ RegsKept d d' [st])) ∧
      (t1 ≤ d.now → x.recharging = true → Does (.restrikeStep t h k) s (fun d' =>
        d'.ign h k.val = { x with
          high := false, recharging := false, left := x.left - 1
          nextT := if x.left ≤ 1 then none else some (t1 + 4000 * getF x.ms F.IGN_MS_SPK) } ∧
        d'.f st F.IGN_STAT_RSLEFT = (x.left - 1) % 8 ∧
        (d'.half h).passed = (if x.left ≤ 1 then
          (d.half h).passed.filter fun p => !(decide (p.1 = (Output.ign k.val).key) && p.2.ended)
        else (d.half h).passed) ∧ others d' ∧ RegsKept d d' [st])) ∧
      (d.now < t1 → Does (.restrikeStep t h k) s (fun d' => d' = d))) ∧
    (x.nextT = none → Does (.restrikeStep t h k) s (fun d' => d' = d)) ∧
    (x.softoff = true → x.rampT + x.rampTk ≤ d.now → d.laneFault = false → Does (.softOffEnd t h k) s (fun d' =>
      d'.ign h k.val = { x with high := false, softoff := false } ∧ d'.bit st F.IGN_STAT_SOFTOFF = false ∧
      d'.bit st F.IGN_STAT_DWELLING = false ∧ others d' ∧ RegsKept d d' [st])) ∧
    (x.softoff = true → d.now < x.rampT + x.rampTk → d.laneFault = false → Does (.softOffEnd t h k) s (fun d' =>
      d'.ign h k.val = x ∧ others d' ∧ RegsKept d d' [])) ∧
    (∀ e : Dev, (e.ign h k.val).softoff = false →
      let y := e.ign h k.val
      let z := e.softOff h k.val
      let up := y.high || y.sparkT.any fun t0 => decide (t0 / 4 = e.now / 4)
      (z.ign h k.val) = { y with
        high := up, softoff := up, rampT := e.now, rampTk := 100000 * (getF y.cfg F.IGN_CFG_SOFT + 1)
        dwellT := none, left := 0, nextT := none, recharging := false, sparkT := none, ignoreEnd := y.dwellT.isSome } ∧
      z.bit st F.IGN_STAT_SOFTOFF = up ∧ z.bit st F.IGN_STAT_DWELLING = false) ∧
    (∀ e : Dev, e.bit (Reg.IGN_CFG h k.val) F.IGN_CFG_EN = true → (e.ign h k.val).softoff = false →
      let y := (e.ignStart h k.val 0).ign h k.val
      y.high = true ∧ y.sparkT = none ∧ y.dwellT = some e.now ∧ y.cfg = e.rd (Reg.IGN_CFG h k.val) ∧ y.ms = e.rd (Reg.IGN_MS h k.val) ∧
      ((e.ignStart h k.val 0).bit st F.IGN_STAT_DWELLING = true)) ∧
    (∀ (e : Dev) (t0 : Nat), (e.ign h k.val).ignoreEnd = false → (e.ign h k.val).dwellT = some t0 →
      let y := e.ign h k.val
      let z := e.ignEnd h k.val
      (z.ign h k.val).high = false ∧ (z.ign h k.val).sparkT = some e.now ∧ (z.ign h k.val).dwellT = none ∧ (z.ign h k.val).left = y.nMsg ∧
      z.f st F.IGN_STAT_DWELL = min ((e.now - t0) / 4000) 0xFFFF ∧
      (z.ign h k.val).nextT = if y.nMsg = 0 then none else some (e.now + 4000 * getF y.ms F.IGN_MS_SPK))

end Sys2Proof.Claims

/-- Boost converters and ignition outputs. What the model chose in it: log 38, 39. -/
def Obligations.BoostAndIgnition : Prop :=
  BoostConverterRule ∧ IgnitionOutputsRule

/-! ### Time base and one-shot timers (10_timers_and_pwm) -/

namespace Sys2Proof.Claims

/-- What the trigger of a timer with a fire tick sends when it fires (R239, R260). -/
def timerSends (w sel : Word) (n fire now : Nat) : List Send :=
  let tgt := getF w F.TMR_CTRL_TGT
  let h : Half := if getB w F.TMR_CTRL_THALF then .b else .a
  match getF w F.TMR_CTRL_TRIG with
  | 1 => [.urgent h (tgt % 16) fire now (some n)]
  | 2 => [.accOpen h tgt fire (some n)]
  | 3 => [.accClose h tgt fire (some n)]
  | 4 => [.mule 40 (tgt % 16)]
  | 5 => [.colt (tgt % 8)]
  | 6 => [.pwmSync sel]
  | 7 => [.timer tgt .timer fire]
  | _ => []

/-- A timer fired (R238, R239): not armed, FIRED, the count, LATE where it came late, its trigger sent, its source. -/
def Fired (d d' : Dev) (n fire : Nat) (late : Bool) : Prop :=
  let st := Reg.TMR_STAT n
  let w := d.rd (Reg.TMR_CTRL n)
  d'.bit st F.TMR_STAT_ARMED = false ∧ d'.bit st F.TMR_STAT_FIRED = true ∧
  d'.f st F.TMR_STAT_FIRES = (d.f st F.TMR_STAT_FIRES + 1) % 65536 ∧
  d'.bit st F.TMR_STAT_LATE = (late || d.bit st F.TMR_STAT_LATE) ∧ sparseFind d'.fireT n = none ∧
  (∀ x ∈ timerSends w (d.rd Reg.PWM_SYNCSEL) n fire d.now, x ∈ d'.sends) ∧
  (getB w F.TMR_CTRL_IE = true → 0xC4 + n / 8 ∈ d'.irq.raised)

/-- The one-shot timers (R236, R237, R238, R241): a timer fires when its tick is reached; an arm takes CMP, or CMP_LO past
the arm tick, as its fire tick and fires at once with LATE where that is reached, one cycle later where a timer armed it
or it fired in this cycle; a fire of the cycle comes before an arm or a disarm of it; of two arm sources of one cycle the
later of R237's table stays, and a fire of the earlier one is undone; a disarm takes off ARMED with no fire; the other
timers stay. A read of TMB_LO returns the low half of the time base and latches the high half for the port that reads. -/
def TimersRule : Prop :=
  ∀ (s : State) (t : Tick) (m : Master) (n : Fin 64) (k : Fin 2) (v : Word) (src : ArmSource) (tick : Tick),
    let d := s.devAt t
    let st := Reg.TMR_STAT n.val
    let due := sparseFind d.fireT n.val
    let taken := d.armedNow n.val
    let free := taken = none ∧ ∀ x : TmrArm, due = some x → d.now < x.due
    let again := (d.firedNow n.val).isSome
    let lo := (d.rd (Reg.TMR_CMP_LO n.val)).toNat
    let fireAt := fun a : Nat => if d.bit (Reg.TMR_CTRL n.val) F.TMR_CTRL_MODE then a + lo
      else lo + (d.rd (Reg.TMR_CMP_HI n.val)).toNat * 2 ^ 32
    let mine := n.val / 32 = k.val ∧ v.getLsbD (n.val % 32) = true
    let code := Dev.armCode src
    let fire := fireAt tick.toNat
    let msg : Send := .timer n.val src tick.toNat
    let armed := fun (d' : Dev) (code fire at' : Nat) (late : Bool) => d'.bit st F.TMR_STAT_ARMED = true ∧
      d'.f st F.TMR_STAT_SRC = code ∧ d'.rd (Reg.TMR_FIRE n.val) = Dev.lo32 fire ∧
      sparseFind d'.fireT n.val = some ⟨at', late, fire, code, d.now⟩
    let same := fun d' : Dev => d'.rd st = d.rd st ∧ d'.rd (Reg.TMR_FIRE n.val) = d.rd (Reg.TMR_FIRE n.val) ∧
      sparseFind d'.fireT n.val = due
    (∀ x : TmrArm, due = some x →
      (x.due ≤ d.now → Does (.timerFire t n) s (fun d' => Fired d d' n.val x.fire x.late ∧
        d'.sends = d.sends ++ timerSends (d.rd (Reg.TMR_CTRL n.val)) (d.rd Reg.PWM_SYNCSEL) n.val x.fire d.now ∧
        sparseFind d'.firedT n.val = some ⟨d.now, x, d.rd st⟩ ∧ RegsKept d d' [st])) ∧
      (d.now < x.due → Does (.timerFire t n) s (fun d' => d' = d))) ∧
    (due = none → Does (.timerFire t n) s (fun d' => d' = d)) ∧
    (d.reach (Reg.TMR_ARM k.val) true = true →
      (mine → free → d.now < fireAt d.now → Does (.timerArmWrite t m k v) s (fun d' =>
        armed d' 0 (fireAt d.now) (fireAt d.now) false)) ∧
      (mine → free → again = true → fireAt d.now ≤ d.now → Does (.timerArmWrite t m k v) s (fun d' =>
        armed d' 0 (fireAt d.now) (d.now + 1) true)) ∧
      (mine → free → (∀ j : Nat, d.firedNow j = none) → fireAt d.now ≤ d.now →
        Does (.timerArmWrite t m k v) s (fun d' => Fired d d' n.val (fireAt d.now) true ∧
          d'.f st F.TMR_STAT_SRC = 0 ∧ d'.rd (Reg.TMR_FIRE n.val) = Dev.lo32 (fireAt d.now))) ∧
      (mine → (∃ x : TmrArm, taken = some x ∧ 0 < x.src) → Does (.timerArmWrite t m k v) s same) ∧
      (¬mine → Does (.timerArmWrite t m k v) s same)) ∧
    (free →
      (d.now < fire → Does (.timerArmRequest t n src tick) s (fun d' =>
        armed d' code fire fire false ∧ d'.sends = d.sends.erase msg ∧ RegsKept d d' [st, Reg.TMR_FIRE n.val])) ∧
      (fire ≤ d.now → src ≠ .timer → again = false → Does (.timerArmRequest t n src tick) s (fun d' =>
        Fired d d' n.val fire true ∧ d'.f st F.TMR_STAT_SRC = code ∧ RegsKept d d' [st, Reg.TMR_FIRE n.val])) ∧
      (fire ≤ d.now → src = .timer ∨ again = true → Does (.timerArmRequest t n src tick) s (fun d' =>
        armed d' code fire (d.now + 1) true))) ∧
    (∀ x : TmrArm, taken = none → due = some x → x.due ≤ d.now → d.now < fire →
      Does (.timerArmRequest t n src tick) s (fun d' => armed d' code fire fire false ∧
        d'.bit st F.TMR_STAT_FIRED = true ∧ d'.f st F.TMR_STAT_FIRES = (d.f st F.TMR_STAT_FIRES + 1) % 65536)) ∧
    (∀ x : TmrArm, taken = some x →
      (code < x.src → Does (.timerArmRequest t n src tick) s (fun d' => d' = { d with sends := d.sends.erase msg })) ∧
      (x.src ≤ code → d.now < fire → Does (.timerArmRequest t n src tick) s (fun d' => armed d' code fire fire false ∧
        (d.firedNow n.val = none → d'.f st F.TMR_STAT_FIRES = d.f st F.TMR_STAT_FIRES ∧
          d'.bit st F.TMR_STAT_FIRED = d.bit st F.TMR_STAT_FIRED) ∧
        (∀ y : TmrFire, d.firedNow n.val = some y → d'.f st F.TMR_STAT_FIRES = getF y.stat F.TMR_STAT_FIRES ∧
          d'.bit st F.TMR_STAT_FIRED = getB y.stat F.TMR_STAT_FIRED)))) ∧
    (d.reach (Reg.TMR_DISARM k.val) true = true →
      (mine → (∀ x : TmrArm, due = some x → d.now < x.due) → Does (.timerDisarm t m k v) s (fun d' =>
        d'.bit st F.TMR_STAT_ARMED = false ∧ BitsKept (d.rd st) (d'.rd st) [F.TMR_STAT_ARMED] ∧
        sparseFind d'.fireT n.val = none)) ∧
      (∀ x : TmrArm, mine → due = some x → x.due ≤ d.now → Does (.timerDisarm t m k v) s (fun d' =>
        Fired d d' n.val x.fire x.late)) ∧
      (¬mine → Does (.timerDisarm t m k v) s same)) ∧
    (d.reach Reg.TMB_LO false = true → Does (.timeBaseRead t m) s (fun d' =>
      d'.answer = ⟨false, Dev.lo32 d.now⟩ ∧ sparseGet 0 d'.tmbLatch (Dev.portNo m) = Dev.hi32 d.now ∧
      (∀ p : Nat, p ≠ Dev.portNo m → sparseGet 0 d'.tmbLatch p = sparseGet 0 d.tmbLatch p) ∧
      { d' with answer := d.answer, tmbLatch := d.tmbLatch } = d))

end Sys2Proof.Claims

/-- One-shot timers fire, arm and disarm; the time base is read. What the model chose in it: log 40. -/
def Obligations.OneShotTimers : Prop :=
  TimersRule

/-! ### PWM (10_timers_and_pwm) -/

namespace Sys2Proof.Claims

/-- A reload of a channel (R242, R244, R247): the pending period and compare pair that stood before this cycle take
effect, the period counts, the next one ends PER x (PSC + 1) ticks on, the delay-line code is taken; what a write of this
very cycle left pending stays so. -/
def Reloaded (d d' : Dev) (c : Nat) : Prop :=
  let st := Reg.PWM_STAT c
  let x := d.pwmC c
  let y := d'.pwmC c
  let at' := fun (w : Option Nat) (a : Nat) => if w = some d.now then d.oldRd a else d.rd a
  let pend := getB (at' x.pairT st) F.PWM_STAT_PEND
  let per := if getB (at' x.perT st) F.PWM_STAT_PER_PEND then getF (at' x.perT (Reg.PWM_PER c)) F.PWM_PER_PER else x.per
  let psc := d.f (Reg.PWM_CFG c) F.PWM_CFG_PSC
  y.per = per ∧ y.psc = psc ∧ y.imm = d.bit (Reg.PWM_CFG c) F.PWM_CFG_IMM ∧
  y.rise = (if pend then at' x.pairT (Reg.PWM_RISE c) else x.rise) ∧
  y.fall = (if pend then at' x.pairT (Reg.PWM_FALL c) else x.fall) ∧ y.next = none ∧
  y.reloadT = d.now ∧ y.endT = d.now + per * (psc + 1) ∧ y.dl = d.f Reg.PWM_DLSTAT F.PWM_DLSTAT_CODE ∧
  (c % 2 = 0 → y.comp = d.bit (Reg.PWM_PAIRCFG (c / 2)) F.PWM_PAIRCFG_COMP ∧
    y.stretch = d.bit (Reg.PWM_PAIRCFG (c / 2)) F.PWM_PAIRCFG_MPMODE ∧
    y.dtr = d.f (Reg.PWM_DT (c / 2)) F.PWM_DT_DTR ∧ y.dtf = d.f (Reg.PWM_DT (c / 2)) F.PWM_DT_DTF ∧
    y.minp = d.f (Reg.PWM_MINP (c / 2)) F.PWM_MINP_MINP) ∧
  d'.bit st F.PWM_STAT_PEND = (decide (x.pairT = some d.now) && d.bit st F.PWM_STAT_PEND) ∧
  d'.bit st F.PWM_STAT_PER_PEND = (decide (x.perT = some d.now) && d.bit st F.PWM_STAT_PER_PEND)

/-- PWM periods (R242, R244, R246): the reload at the end of the period; EN set starts with a reload and a count of 0, EN
clear ends with the output low; PWM_SYNC and its timer restart the channels they name in one cycle. -/
def PwmPeriodsRule : Prop :=
  ∀ (s : State) (t : Tick) (m : Master) (c : Fin 32) (v : Word),
    let d := s.devAt t
    let st := Reg.PWM_STAT c.val
    let x := d.pwmC c.val
    let cfg := Reg.PWM_CFG c.val
    let counted := fun d' : Dev => d'.f st F.PWM_STAT_PERIODS = (d.f st F.PWM_STAT_PERIODS + 1) % 65536
    let even := c.val / 2 * 2 = c.val
    let others := fun d' : Dev => ∀ j : Nat, j / 2 ≠ c.val / 2 → d'.pwmC j = d.pwmC j
    (d.counts c.val = true → x.endT ≤ d.now → Does (.pwmReload t c) s (fun d' =>
      Reloaded d d' c.val ∧ (d'.pwmC c.val).held = false ∧ counted d' ∧ others d' ∧
      (even → d.bit (Reg.PWM_PAIRCFG (c.val / 2)) F.PWM_PAIRCFG_IE = true → 0xD0 + c.val / 2 ∈ d'.irq.raised))) ∧
    (d.counts c.val = false ∨ d.now < x.endT → Does (.pwmReload t c) s (fun d' => d' = d)) ∧
    (d.reach cfg true = true →
      (getB v F.PWM_CFG_EN = true → d.pwmEn c.val = false → (even ∨ (d.pwmC (c.val / 2 * 2)).comp = false) →
        Does (.pwmEnable t m c v) s (fun d' => d'.bit cfg F.PWM_CFG_EN = true ∧ Reloaded d d' c.val ∧
          d'.f st F.PWM_STAT_PERIODS = 0 ∧ others d' ∧ BitsKept (d.rd cfg) (d'.rd cfg) [F.PWM_CFG_EN])) ∧
      (getB v F.PWM_CFG_EN = true → d.pwmEn c.val = false → ¬even → (d.pwmC (c.val / 2 * 2)).comp = true →
        Does (.pwmEnable t m c v) s (fun d' => d'.bit cfg F.PWM_CFG_EN = true ∧ (d'.pwmC c.val).level = false ∧
          d'.f st F.PWM_STAT_PERIODS = 0 ∧ others d' ∧ RegsKept d d' [cfg, st] ∧
          BitsKept (d.rd cfg) (d'.rd cfg) [F.PWM_CFG_EN])) ∧
      (getB v F.PWM_CFG_EN = false → d.pwmEn c.val = true → Does (.pwmEnable t m c v) s (fun d' =>
        d'.bit cfg F.PWM_CFG_EN = false ∧ (d'.pwmC c.val) = { x with level := false } ∧ RegsKept d d' [cfg] ∧
        BitsKept (d.rd cfg) (d'.rd cfg) [F.PWM_CFG_EN])) ∧
      (getB v F.PWM_CFG_EN = d.pwmEn c.val → Does (.pwmEnable t m c v) s (fun d' => d' = { d with answer := ⟨false, 0⟩ }))) ∧
    (d.reach Reg.PWM_SYNC true = true → ∀ who : Option Master,
      (v.getLsbD c.val = true → d.counts c.val = true → x.reloadT ≠ d.now →
        (even ∨ v.getLsbD (c.val - 1) = false) → Does (.pwmSyncRestart t who v) s (fun d' => Reloaded d d' c.val)) ∧
      (v = 0 → Does (.pwmSyncRestart t who v) s (fun d' => RegsKept d d' [] ∧ d'.pwm = d.pwm)))

/-- Writes of the period and the compare pair (R242, R244, R245): a period below 2 is a bus error; else it waits for the
reload, RISE opens a pair and FALL completes it; in immediate mode both take effect in the next cycle, and a period at or
below the count ends the running one at the PWM clock after it. A reload of the write's own cycle comes first and does not
take the write. -/
def PwmWritesRule : Prop :=
  ∀ (s : State) (t : Tick) (m : Master) (c : Fin 32) (v : Word),
    let d := s.devAt t
    let st := Reg.PWM_STAT c.val
    let x := d.pwmC c.val
    let per := getF v F.PWM_PER_PER
    let quiet := d.counts c.val = false ∨ x.endT ≠ d.now
    let ends := d.counts c.val = true ∧ x.endT = d.now
    let cnt := (d.now + 1 - x.reloadT) / (x.psc + 1)
    let next := x.next.getD ⟨d.now + 1, x.rise, x.fall, x.per⟩
    let perRegs := [Reg.PWM_PER c.val, st]
    let counted := fun d' : Dev => d'.f st F.PWM_STAT_PERIODS = (d.f st F.PWM_STAT_PERIODS + 1) % 65536 ∧
      (d'.pwmC c.val).reloadT = d.now
    let sets := fun (d' : Dev) (z : PwmSet) (endT : Nat) =>
      let y := d'.pwmC c.val
      y.next = some z ∧ y.endT = endT ∧ y.rise = x.rise ∧ y.fall = x.fall ∧ y.per = x.per ∧ y.reloadT = x.reloadT ∧
      ((z.rise ≠ 0xFFFFFFFF ∧ z.per ≤ getF z.rise F.PWM_EDGE_COUNT) ∨
        (z.fall ≠ 0xFFFFFFFF ∧ z.per ≤ getF z.fall F.PWM_EDGE_COUNT) → d'.bit st F.PWM_STAT_RANGE = true)
    (d.reach (Reg.PWM_PER c.val) true = true →
      (per < 2 → Does (.pwmPerWrite t m c v) s (fun d' => d' = { d with answer := ⟨true, 0⟩ })) ∧
      (2 ≤ per → quiet → x.imm = false ∨ (d.counts c.val = true ∧ x.endT = d.now + 1) →
        Does (.pwmPerWrite t m c v) s (fun d' =>
          d'.f (Reg.PWM_PER c.val) F.PWM_PER_PER = per ∧ d'.bit st F.PWM_STAT_PER_PEND = true ∧
          d'.pwmC c.val = { x with perT := some d.now } ∧ RegsKept d d' perRegs)) ∧
      (2 ≤ per → quiet → x.imm = true → x.endT ≠ d.now + 1 ∨ d.counts c.val = false →
        d.counts c.val = false ∨ cnt + 1 < per → Does (.pwmPerWrite t m c v) s (fun d' =>
          d'.bit st F.PWM_STAT_PER_PEND = false ∧
          sets d' { next with per := per } (x.reloadT + per * (x.psc + 1)) ∧ RegsKept d d' perRegs)) ∧
      (2 ≤ per → quiet → x.imm = true → x.endT ≠ d.now + 1 → d.counts c.val = true → per ≤ cnt + 1 →
        Does (.pwmPerWrite t m c v) s (fun d' =>
          d'.bit st F.PWM_STAT_PER_PEND = false ∧ d'.bit st F.PWM_STAT_SHORT = true ∧
          sets d' { next with per := per } (d.now + 2) ∧ RegsKept d d' perRegs)) ∧
      (2 ≤ per → ends → d.bit (Reg.PWM_CFG c.val) F.PWM_CFG_IMM = false → Does (.pwmPerWrite t m c v) s (fun d' =>
        d'.f (Reg.PWM_PER c.val) F.PWM_PER_PER = per ∧ d'.bit st F.PWM_STAT_PER_PEND = true ∧ counted d'))) ∧
    (d.reach (Reg.PWM_RISE c.val) true = true →
      (quiet → Does (.pwmRiseWrite t m c v) s (fun d' =>
        d'.rd (Reg.PWM_RISE c.val) = v ∧ d'.bit st F.PWM_STAT_OPEN = true ∧ d'.bit st F.PWM_STAT_PEND = false ∧
        d'.pwmC c.val = { x with pairT := some d.now } ∧
        RegsKept d d' [Reg.PWM_RISE c.val, st] ∧ HiddenKept d { d' with answer := d.answer, pwm := d.pwm })) ∧
      (ends → Does (.pwmRiseWrite t m c v) s (fun d' => d'.rd (Reg.PWM_RISE c.val) = v ∧
        d'.bit st F.PWM_STAT_OPEN = true ∧ d'.bit st F.PWM_STAT_PEND = false ∧ counted d'))) ∧
    (d.reach (Reg.PWM_FALL c.val) true = true →
      (quiet → x.imm = false → Does (.pwmFallWrite t m c v) s (fun d' => d'.rd (Reg.PWM_FALL c.val) = v ∧
        d'.bit st F.PWM_STAT_OPEN = false ∧ d'.bit st F.PWM_STAT_PEND = true ∧
        d'.pwmC c.val = { x with pairT := some d.now } ∧
        RegsKept d d' [Reg.PWM_FALL c.val, st] ∧ HiddenKept d { d' with answer := d.answer, pwm := d.pwm })) ∧
      (quiet → x.imm = true → Does (.pwmFallWrite t m c v) s (fun d' => d'.bit st F.PWM_STAT_PEND = false ∧
        sets d' { next with rise := d.rd (Reg.PWM_RISE c.val), fall := v } x.endT ∧
        RegsKept d d' [Reg.PWM_FALL c.val, st])) ∧
      (ends → d.bit (Reg.PWM_CFG c.val) F.PWM_CFG_IMM = false → Does (.pwmFallWrite t m c v) s (fun d' =>
        d'.rd (Reg.PWM_FALL c.val) = v ∧ d'.bit st F.PWM_STAT_PEND = true ∧ counted d')))

end Sys2Proof.Claims

/-- PWM reloads, enables, restarts and register writes. What the model chose in it: log 41. -/
def Obligations.PwmPeriodsAndWrites : Prop :=
  PwmPeriodsRule ∧ PwmWritesRule

/-- Edges, trips and the delay line (R243, R247 to R251): a compare edge drives its output in the tick of S + COUNT ×
(PSC + 1) tk and FINE taps of the running period, and in no other; RISE equal to FALL makes the fall alone, 0xFFFFFFFF
no edge; in a complementary pair a rise waits its dead time and a shorter pulse is not made; below MINP a pulse is
dropped, or stretched, with the MINP flag, and RANGE where both times are short. A qualified trip input trips every
pair that enables it; a clear frees a tripped pair, held to the next reload, unless an active input or a linked half
holds it, which is flagged; a recalibration moves the code by one toward zero taps, and a code at its end, or two bad
counts in a row, is a CLOCK fault of the device. What the model chose in it: log 41, 42. -/
def Obligations.PwmEdgesAndTrips : Prop :=
  ∀ (s : State) (t : Tick) (m : Master) (c : Fin 32) (i : Fin 4) (p : Fin 16) (v : Word) (taps : Int),
    let d := s.devAt t
    let y := d.pwmC c.val
    let e := d.pwmC (c.val / 2 * 2)
    let x := if e.comp then e else y
    let st := Reg.PWM_STAT c.val
    let trip := Reg.PWM_TRIPSTAT
    let q : Fld := ⟨p.val, p.val⟩
    let runs := d.pwmEn c.val = true ∧ d.pwmEn (d.pwmRef c.val) = true
    let calm := y.riseDue = none ∧ y.fallDue = none
    let odd := decide (c.val % 2 = 1)
    let place := fun w : Word => 32 * (x.psc + 1) * getF w F.PWM_EDGE_COUNT + getF w F.PWM_EDGE_FINE
    let two := x.rise ≠ 0xFFFFFFFF ∧ x.fall ≠ 0xFFFFFFFF ∧ x.rise ≠ x.fall ∧
      getF x.rise F.PWM_EDGE_COUNT < x.per ∧ getF x.fall F.PWM_EDGE_COUNT < x.per
    let all := 32 * (x.psc + 1) * x.per
    let hi := (place x.fall + 2 * all - place x.rise) % all
    let lo := (place x.rise + 2 * all - place x.fall) % all
    let begun := 32 * x.setT ≤ y.riseAt ∧ 32 * x.setT ≤ y.fallAt
    let wide := e.minp = 0 ∨ (e.minp ≤ hi ∧ e.minp ≤ lo ∧ begun)
    let inForce := fun w : Word => 32 * x.setT ≤ 32 * x.reloadT + place w
    let drives := fun (rise : Bool) (inst : Nat) => Does (.pwmEdge t c rise) s (fun d' =>
      d'.pwmC c.val = (if rise then { y with level := true, riseAt := inst } else { y with level := false, fallAt := inst }) ∧
      RegsKept d d' [])
    let makes := fun (rise : Bool) (w : Word) (delay : Nat) =>
      (inForce w → (32 * x.reloadT + place w + delay) / 32 = d.now → drives rise (32 * x.reloadT + place w + delay)) ∧
      ((32 * x.reloadT + place w + delay) / 32 ≠ d.now → Does (.pwmEdge t c rise) s (fun d' => d' = d))
    let flagged := fun (rise both : Bool) => Does (.pwmEdge t c rise) s (fun d' =>
      d'.pwmC c.val = y ∧ d'.bit st F.PWM_STAT_MINP = true ∧ (both = true → d'.bit st F.PWM_STAT_RANGE = true) ∧
      RegsKept d d' [st])
    let nowAt := fun w : Word => inForce w ∧ (32 * x.reloadT + place w) / 32 = d.now
    let enables := d.bit (Reg.PWM_PAIRCFG p.val) ⟨4 + i.val, 4 + i.val⟩
    let holds := d.tripHeld p.val = true ∨ (∃ h : Half, d.pairLinked p.val h = true ∧ d.linkHolds h = true)
    let code := d.f Reg.PWM_DLSTAT F.PWM_DLSTAT_CODE
    let code' := if 0 < taps then min 63 (code + 1) else if taps < 0 then code - 1 else code
    let bad := decide (2 < taps.natAbs)
    let moved := fun e : Dev => e.f Reg.PWM_DLSTAT F.PWM_DLSTAT_CODE = code' ∧
      e.f Reg.PWM_DLSTAT F.PWM_DLSTAT_CALS = (d.f Reg.PWM_DLSTAT F.PWM_DLSTAT_CALS + 1) % 65536 ∧ e.dlBad = bad ∧
      HiddenKept d { e with dlBad := d.dlBad }
    (runs → e.comp = false → calm →
      (two → wide → makes true x.rise 0 ∧ makes false x.fall 0) ∧
      (e.minp = 0 → x.rise = x.fall → x.fall ≠ 0xFFFFFFFF → getF x.fall F.PWM_EDGE_COUNT < x.per →
        makes false x.fall 0 ∧ Does (.pwmEdge t c true) s (fun d' => d' = d)) ∧
      (x.rise = 0xFFFFFFFF ∨ x.fall = 0xFFFFFFFF → ∀ rise : Bool, Does (.pwmEdge t c rise) s (fun d' => d' = d)) ∧
      (two → hi < e.minp → e.minp ≤ lo → begun →
        (e.stretch = false → nowAt x.rise → flagged true false) ∧
        (e.stretch = true → inForce x.rise → (32 * x.reloadT + place x.rise + e.minp) / 32 = d.now →
          Does (.pwmEdge t c false) s (fun d' => d'.bit st F.PWM_STAT_MINP = true ∧
            d'.pwmC c.val = { y with level := false, fallAt := 32 * x.reloadT + place x.rise + e.minp }))) ∧
      (two → hi < e.minp → lo < e.minp →
        (nowAt x.rise → flagged true true) ∧ (nowAt x.fall → flagged false true))) ∧
    (runs → e.comp = true → calm → two → e.minp = 0 →
      (odd = false → makes false x.fall 0 ∧ (e.dtr < hi → makes true x.rise e.dtr) ∧
        (hi ≤ e.dtr → Does (.pwmEdge t c true) s (fun d' => d' = d))) ∧
      (odd = true → makes false x.rise 0 ∧ (e.dtf < lo → makes true x.fall e.dtf) ∧
        (lo ≤ e.dtf → Does (.pwmEdge t c true) s (fun d' => d' = d)))) ∧
    (¬runs → ∀ rise : Bool, Does (.pwmEdge t c rise) s (fun d' => d' = d)) ∧
    Does (.tripQualified t i) s (fun d' => d'.bit trip ⟨16 + i.val, 16 + i.val⟩ = true ∧
      d'.bit trip q = (d.bit trip q || d.tripHeld p.val || enables) ∧
      (enables = true → d.bit trip q = false →
        (getB (d.oldRd trip) q = false → 0xCC ∈ d'.irq.raised) ∧
        (getB (d.oldRd trip) q = true → d'.bit Reg.PWM_TRIPFLAG q = true)) ∧ RegsKept d d' [trip, Reg.PWM_TRIPFLAG]) ∧
    Does (.tripReleased t i) s (fun d' => d'.bit trip ⟨16 + i.val, 16 + i.val⟩ = false ∧ d'.bit trip q = d.bit trip q ∧
      RegsKept d d' [trip] ∧ HiddenKept d d') ∧
    (d.reach Reg.PWM_TRIPCLR true = true →
      (v.getLsbD p.val = true → d.bit trip q = true → ¬holds → Does (.tripClear t m v) s (fun d' =>
        d'.bit trip q = false ∧ (d'.pwmC (2 * p.val)).held = true ∧ (d'.pwmC (2 * p.val + 1)).held = true)) ∧
      (v.getLsbD p.val = true → d.bit trip q = true → holds → Does (.tripClear t m v) s (fun d' =>
        d'.bit trip q = true ∧ d'.bit Reg.PWM_TRIPFLAG q = true ∧ d'.pwmC (2 * p.val) = d.pwmC (2 * p.val))) ∧
      (v.getLsbD p.val = false ∨ d.bit trip q = false → Does (.tripClear t m v) s (fun d' =>
        d'.bit trip q = d.bit trip q ∧ d'.pwmC (2 * p.val) = d.pwmC (2 * p.val) ∧
        RegsKept d d' [trip, Reg.PWM_TRIPFLAG]))) ∧
    (d.timeRun = true → ((bad = false ∨ d.dlBad = false) ∧ code' ≠ 0 ∧ code' ≠ 63 →
        Does (.delayLineRecalibration t taps) s (fun d' => moved d' ∧ RegsKept d d' [Reg.PWM_DLSTAT])) ∧
      ((bad = true ∧ d.dlBad = true) ∨ code' = 0 ∨ code' = 63 → Does (.delayLineRecalibration t taps) s (fun d' =>
        ∃ e : Dev, moved e ∧ e.bit Reg.PWM_DLSTAT F.PWM_DLSTAT_DL_ERR = true ∧ RegsKept d e [Reg.PWM_DLSTAT] ∧
          d' = e.fault .clock .device))) ∧
    (d.timeRun = false → Does (.delayLineRecalibration t taps) s (fun d' => d' = d))

/-! ### Converters and accumulators (11_analogue, 12_accumulators) -/

namespace Sys2Proof.Claims

/-- Whether the sequence conversion of a converter ends now: it works, its sequence runs, no urgent conversion runs or is
due to begin, and its 16 + SXT cycles of five ticks have passed (R257, R261, R272). -/
def SeqEnds (d : Dev) (h : Half) (k : Nat) : Prop :=
  let x := d.conv h k
  d.convWorks h = true ∧ x.en = true ∧ x.urgent = none ∧
  (∀ u ∈ x.waiting, d.now < u.base + 95) ∧
  x.start + 5 * (16 + getF (x.seq.getD x.entry 0) F.ADC_SEQ_SXT) ≤ d.now

/-- The end of the sequence conversion of a converter (R257). -/
def seqEndsAt (x : Conv) : Nat := x.start + 5 * (16 + getF (x.seq.getD x.entry 0) F.ADC_SEQ_SXT)

/-- A converter goes on to its next entry where the one before ends, or after the last to entry 0 of a new pass with the
sequence that stands in its registers, counted in PASSES (R257, R258). -/
def NextEntry (d d' : Dev) (h : Half) (k : Nat) : Prop :=
  let x := d.conv h k
  let y := d'.conv h k
  let st := Reg.ADC_STAT h k
  let cfg := d.rd (Reg.ADC_CFG h k)
  (x.entry + 1 < x.len → y.entry = x.entry + 1 ∧ y.pass = x.pass ∧ y.len = x.len ∧ y.seq = x.seq ∧
    d'.rd st = d.rd st) ∧
  (x.len ≤ x.entry + 1 → y.entry = 0 ∧ y.pass = x.pass + 1 ∧ y.len = getF cfg F.ADC_CFG_LEN ∧
    y.en = getB cfg F.ADC_CFG_EN ∧
    y.seq = (List.range 32).map (fun e => d.rd (Reg.ADC_SEQ h k e)) ∧
    d'.f st F.ADC_STAT_PASSES = (d.f st F.ADC_STAT_PASSES + 1) % 65536) ∧
  y.start = seqEndsAt x ∧ y.urgent = none ∧ y.waiting = x.waiting

/-- An accumulator has the pre-stage result of a code on its way, with its hold tick (R264, R265). -/
def Sampled (d d' : Dev) (h : Half) (a hold code : Nat) : Prop :=
  let r := preStage (d.accCfg h a) (d.rd (Reg.ACC_PARAM h a)) (d.rd (Reg.ACC_BPF0 h a)) (d.rd (Reg.ACC_BPF1 h a))
    (d.acc h a) code
  (d'.acc h a).sample = some (r.v, hold, r.sat)

end Sys2Proof.Claims

/-- Conversions (R257, R259, R261, R262, R264): a sequence conversion that ends delivers one sample, held 12 cycles
before its end, to every accumulator bound to its entry, a plausibility one none but its code, compared with the other
of its pair; then the next entry starts. An urgent request waits in order, at most four besides the one that runs; its
sample phase aborts the sequence conversion and is LATE where it had to wait; its end delivers its sample and starts
the first request due, in order, or the aborted entry again. What the model chose in it: log 43. -/
def Obligations.Conversions : Prop :=
  ∀ (s : State) (t : Tick) (h : Half) (k : Fin 2) (e : Fin 16) (tick : Tick) (code : BitVec 12) (a : Fin 64),
    let d := s.devAt t
    let x := d.conv h k.val
    let st := Reg.ADC_STAT h k.val
    let ps := Reg.ADC_PLSTAT h
    let fl := Reg.ADC_URGFLAG h
    let hold := x.start + 5 * (4 + getF (x.seq.getD x.entry 0) F.ADC_SEQ_SXT)
    let pl := d.plausible h k.val = true
    let other := (d.conv h (1 - k.val)).pl
    let first := x.waiting.find? fun u => decide (u.base + 95 ≤ d.now)
    let pair := fun o : Nat => if k.val = 0 then (code.toNat, o) else (o, code.toNat)
    let judged := fun (e' : Dev) (c : Nat × Nat) => e'.f ps F.ADC_PLSTAT_CODE0 = c.1 ∧ e'.f ps F.ADC_PLSTAT_CODE1 = c.2
    let apart := fun c : Nat × Nat => max c.1 c.2 - min c.1 c.2
    let tol := d.f (Reg.ADC_PLTOL h) F.ADC_PLTOL_TOL
    (SeqEnds d h k.val → ¬pl → Does (.conversionEnd t h k code) s (fun d' => NextEntry d d' h k.val ∧
      (d.boundTo h k.val x.entry a.val = true → Sampled d d' h a.val hold code.toNat) ∧
      (d.boundTo h k.val x.entry a.val = false → (d'.acc h a.val).sample = (d.acc h a.val).sample))) ∧
    (SeqEnds d h k.val → pl → (other = none → Does (.conversionEnd t h k code) s (fun d' => NextEntry d d' h k.val ∧
        (d'.conv h k.val).pl = some code.toNat ∧ (d'.acc h a.val).sample = (d.acc h a.val).sample ∧
        RegsKept d d' [st])) ∧
      (∀ o : Nat, other = some o → o < 4096 →
        (apart (pair o) ≤ tol → Does (.conversionEnd t h k code) s (fun d' => NextEntry d d' h k.val ∧
          judged d' (pair o) ∧ (d'.acc h a.val).sample = (d.acc h a.val).sample ∧ RegsKept d d' [st, ps])) ∧
        (tol < apart (pair o) → Does (.conversionEnd t h k code) s (fun d' => ∃ e' : Dev, judged e' (pair o) ∧
          e'.bit ps F.ADC_PLSTAT_PL_ERR = true ∧ RegsKept d e' [ps] ∧
          d' = (e'.fault .adc (.half h)).nextEntry h k.val (seqEndsAt x))))) ∧
    (¬SeqEnds d h k.val → Does (.conversionEnd t h k code) s (fun d' => d' = d)) ∧
    (let kc := getF (d.rd (Reg.ADC_URG h e.val)) F.ADC_URG_CONV
     let y := d.conv h kc
     let issue := d.urgentIssue h e.val tick.toNat
     let late := tick.toNat + 80 < issue.1
     let l := Dev.putUrg ⟨e.val, tick.toNat, if late then issue.1 else tick.toNat, issue.2⟩ y.waiting
     let free := match y.urgent with
       | some u => y.urgStart + d.urgTk h u.entry
       | none => 0
     (d.convWorks h = true → d.waitCount h free l ≤ 4 → Does (.urgentRequest t h e tick) s (fun d' =>
       d'.conv h kc = { y with waiting := l } ∧ d'.bit fl ⟨e.val, e.val⟩ = (d.bit fl ⟨e.val, e.val⟩ || decide late) ∧
       RegsKept d d' [fl])) ∧
     (d.convWorks h = true → 4 < d.waitCount h free l → Does (.urgentRequest t h e tick) s (fun d' =>
       d'.conv h kc = y ∧ d'.bit fl ⟨16 + e.val, 16 + e.val⟩ = true ∧ RegsKept d d' [fl])) ∧
     (d.convWorks h = false → Does (.urgentRequest t h e tick) s (fun d' => d'.convs = d.convs ∧ RegsKept d d' []))) ∧
    (∀ u : Urg, x.urgent = none → first = some u → Does (.urgentSampleStart t h k) s (fun d' =>
      d'.conv h k.val = { x with urgent := some u, urgStart := d.now, waiting := x.waiting.erase u } ∧
      d'.bit st F.ADC_STAT_URG = true ∧
      d'.f st F.ADC_STAT_ABORTS = (d.f st F.ADC_STAT_ABORTS + (if x.en = true then 1 else 0)) % 256 ∧
      (u.entry < 16 → d'.bit fl ⟨u.entry, u.entry⟩ = (d.bit fl ⟨u.entry, u.entry⟩ || decide (u.base + 100 ≤ d.now))) ∧
      RegsKept d d' [st, fl])) ∧
    (x.urgent ≠ none ∨ first = none → Does (.urgentSampleStart t h k) s (fun d' => d' = d)) ∧
    (∀ u : Urg, x.urgent = some u →
      let held := x.urgStart + 5 * (4 + getF (d.rd (Reg.ADC_URG h u.entry)) F.ADC_URG_SXT)
      let ends := held + 60
      (ends ≤ d.now → Does (.urgentConversionEnd t h k code) s (fun d' =>
        (d.boundTo h 2 u.entry a.val = true → Sampled d d' h a.val held code.toNat) ∧
        (d.boundTo h 2 u.entry a.val = false → d'.acc h a.val = d.acc h a.val) ∧
        (first = none → d'.bit st F.ADC_STAT_URG = false ∧ d'.conv h k.val = { x with urgent := none, start := ends }) ∧
        (∀ v : Urg, first = some v → d'.bit st F.ADC_STAT_URG = true ∧ (v.entry < 16 → v.base + 100 ≤ ends →
          d'.bit fl ⟨v.entry, v.entry⟩ = true) ∧ d'.conv h k.val = { x with
            urgent := some v, start := ends, urgStart := ends, waiting := x.waiting.erase v }) ∧ RegsKept d d' [st, fl])) ∧
      (d.now < ends → Does (.urgentConversionEnd t h k code) s (fun d' => d' = d))) ∧
    (x.urgent = none → Does (.urgentConversionEnd t h k code) s (fun d' => d' = d))

/-- Windows (R266 to R270, R272): a sample in an open window is counted into its sums, saturating, and a full counted
window closes one tick after it; an open action opens, closing a running window at the same tick; a close action
closes; a PERIODIC accumulator, or a close without a window, only marks STRAY; a sample that comes after its window
closed is counted in the window that was open at its hold tick. The record of a closed window carries its sums, its
ticks and its flags, sets NEW or OVR, counts, and raises what the accumulator enables; its low half is read with the
high half latched for that port, and the read clears NEW unless the record is written in that very cycle. What the
model chose in it: log 44. -/
def Obligations.AccumulatorWindows : Prop :=
  ∀ (s : State) (t : Tick) (h : Half) (a : Fin 64) (tick : Tick) (m : Master),
    let d := s.devAt t
    let x := d.acc h a.val
    let st := Reg.ACC_STAT h a.val
    let cfg := d.rd (Reg.ACC_CFG h a.val)
    let mode := getF cfg F.ACC_CFG_WMODE
    let n := d.f (Reg.ACC_PARAM h a.val) F.ACC_PARAM_NSAMP
    let en := getB cfg F.ACC_CFG_EN = true
    let stray := fun (c : Instr) => Does c s (fun d' => d'.bit st F.ACC_STAT_STRAY = true ∧
      BitsKept (d.rd st) (d'.rd st) [F.ACC_STAT_STRAY] ∧ d'.accs = d.accs ∧ RegsKept d d' [st])
    let nothing := fun (c : Instr) => Does c s (fun d' => d'.accs = d.accs ∧ RegsKept d d' [])
    let closed := fun (at' : Nat) => AccRec.mk x.sum x.cnt x.min x.max x.openT at' false x.sat x.disturb
    let here := fun at' : Nat => ∃ c ∈ x.closing, c.closeT = at'
    (∀ (v hold : Nat) (clip : Bool), x.sample = some (v, hold, clip) → hold + 83 ≤ d.now →
      let cnt := min (x.cnt + 1) (2 ^ 24 - 1)
      let sum := min (x.sum + v) (2 ^ 48 - 1)
      let sat := x.sat || clip || decide (2 ^ 48 ≤ x.sum + v) || decide (2 ^ 24 ≤ x.cnt + 1)
      let full := (mode = 1 ∨ mode = 2) ∧ n ≤ cnt
      (x.isOpen = true → x.openT ≤ hold → ¬full → Does (.accSample t h a) s (fun d' =>
        d'.acc h a.val = { x with
          sample := none, sum := sum, cnt := cnt, min := min x.min v, max := max x.max v, sat := sat } ∧
        d'.f st F.ACC_STAT_CNT = cnt ∧ RegsKept d d' [st])) ∧
      (x.isOpen = true → x.openT ≤ hold → full → Does (.accSample t h a) s (fun d' =>
        (d'.acc h a.val).closing = x.closing ++
          [⟨sum, cnt, min x.min v, max x.max v, x.openT, hold + 1, false, sat, x.disturb⟩] ∧
        (d'.acc h a.val).isOpen = decide (mode = 2) ∧ d'.bit st F.ACC_STAT_OPEN = decide (mode = 2) ∧
        (mode = 2 → (d'.acc h a.val).openT = hold + 1) ∧ (d'.acc h a.val).cnt = 0 ∧ (d'.acc h a.val).sum = 0 ∧
        RegsKept d d' [st])) ∧
      (x.isOpen = false ∨ hold < x.openT → Does (.accSample t h a) s (fun d' =>
        d'.acc h a.val = { x with
          sample := none
          closing := x.closing.map fun c =>
            if c.openT ≤ hold ∧ hold < c.closeT then
              { c with
                sum := min (c.sum + v) (2 ^ 48 - 1), cnt := min (c.cnt + 1) (2 ^ 24 - 1), min := min c.min v
                max := max c.max v
                sat := c.sat || clip || decide (2 ^ 48 ≤ c.sum + v) || decide (2 ^ 24 ≤ c.cnt + 1)
                closeT := if (mode = 1 ∨ mode = 2) ∧ n ≤ min (c.cnt + 1) (2 ^ 24 - 1) then hold + 1 else c.closeT }
            else c } ∧
        RegsKept d d' []))) ∧
    (x.sample = none ∨ (∃ p, x.sample = some p ∧ d.now < p.2.1 + 83) → Does (.accSample t h a) s (fun d' => d' = d)) ∧
    (en → mode ≠ 2 →
      Does (.windowOpen t h a tick) s (fun d' => (d'.acc h a.val).isOpen = true ∧
        (d'.acc h a.val).openT = tick.toNat ∧ d'.bit st F.ACC_STAT_OPEN = true ∧
        (d'.acc h a.val).closing = x.closing ++ (if x.isOpen = true then [closed tick.toNat] else []) ∧ RegsKept d d' [st]) ∧
      (x.isOpen = true → x.openT ≠ tick.toNat → Does (.windowClose t h a tick) s (fun d' =>
        (d'.acc h a.val).isOpen = false ∧ (d'.acc h a.val).closing = x.closing ++ [closed tick.toNat] ∧
        d'.bit st F.ACC_STAT_OPEN = false ∧ RegsKept d d' [st])) ∧
      (x.isOpen = false ∨ x.openT = tick.toNat → ¬here tick.toNat → stray (.windowClose t h a tick)) ∧
      (x.isOpen = false ∨ x.openT = tick.toNat → here tick.toNat → nothing (.windowClose t h a tick))) ∧
    (en → mode = 2 → stray (.windowOpen t h a tick) ∧ stray (.windowClose t h a tick)) ∧
    (¬en → nothing (.windowOpen t h a tick) ∧ nothing (.windowClose t h a tick)) ∧
    (x.closing = [] → Does (.accRecordWrite t h a) s (fun d' => d' = d)) ∧
    (∀ (r : AccRec) (rest : List AccRec), x.closing = r :: rest → d.now + 1 < r.closeT + 83 →
      Does (.accRecordWrite t h a) s (fun d' => d' = d)) ∧
    (∀ (r : AccRec) (rest : List AccRec) (v hold : Nat) (clip : Bool), x.closing = r :: rest → r.closeT + 83 ≤ d.now + 1 →
      x.sample = some (v, hold, clip) → r.openT ≤ hold → hold < r.closeT → x.isOpen = false →
      Does (.accRecordWrite t h a) s (fun d' =>
        d'.rd (Reg.ACC_RSUMLO h a.val) = Dev.lo32 (min (r.sum + v) (2 ^ 48 - 1)) ∧
        d'.rd (Reg.ACC_RMIN h a.val) = Dev.lo32 (min r.min v) ∧ d'.rd (Reg.ACC_RMAX h a.val) = Dev.lo32 (max r.max v) ∧
        d'.rd (Reg.ACC_RSEQ h a.val) = d.rd (Reg.ACC_RSEQ h a.val) + 1 ∧ (d'.acc h a.val).sample = none)) ∧
    (∀ (r : AccRec) (rest : List AccRec), x.closing = r :: rest → r.closeT + 83 ≤ d.now + 1 →
      (∀ p, x.sample = some p → r.closeT ≤ p.2.1) →
      Does (.accRecordWrite t h a) s (fun d' =>
        d'.rd (Reg.ACC_RSUMLO h a.val) = Dev.lo32 r.sum ∧ d'.rd (Reg.ACC_RMIN h a.val) = Dev.lo32 r.min ∧
        d'.rd (Reg.ACC_RMAX h a.val) = Dev.lo32 r.max ∧
        d'.rd (Reg.ACC_RCNT h a.val) = BitVec.ofNat 32 (r.cnt + (if r.incomplete = true then 2 ^ 31 else 0) +
          (if r.sat = true then 2 ^ 30 else 0) + (if r.disturb = true then 2 ^ 29 else 0)) ∧
        d'.rd (Reg.ACC_ROPEN h a.val) = Dev.lo32 r.openT ∧ d'.rd (Reg.ACC_RCLOSE h a.val) = Dev.lo32 r.closeT ∧
        d'.rd (Reg.ACC_RSEQ h a.val) = d.rd (Reg.ACC_RSEQ h a.val) + 1 ∧
        d'.bit st F.ACC_STAT_NEW = true ∧
        d'.bit st F.ACC_STAT_OVR = (d.bit st F.ACC_STAT_OVR || d.bit st F.ACC_STAT_NEW) ∧
        (getB cfg F.ACC_CFG_IE = true → Dev.srcOf h (0x4C + a.val / 16) ∈ d'.irq.raised) ∧
        d'.sends = d.sends ++ (if getB cfg F.ACC_CFG_MREQ = true then
          [Send.mule ((match h with | .a => 0 | .b => 6) + 2 + a.val / 16) 0] else []) ∧
        d'.acc h a.val = { x with closing := rest, recSum := r.sum, oldSum := x.recSum, recT := some d.now } ∧
        RegsKept d d' [Reg.ACC_RSUMLO h a.val, Reg.ACC_RMIN h a.val, Reg.ACC_RMAX h a.val, Reg.ACC_RCNT h a.val,
          Reg.ACC_ROPEN h a.val, Reg.ACC_RCLOSE h a.val, Reg.ACC_RSEQ h a.val, st])) ∧
    (d.reach (Reg.ACC_RSUMLO h a.val) false = true →
      (x.recT ≠ some d.now → Does (.accRecordRead t m h a) s (fun d' => d'.answer = ⟨false, Dev.lo32 x.recSum⟩ ∧
        sparseGet 0 (d'.acc h a.val).recLatch (Dev.portNo m) = x.recSum / 2 ^ 32 ∧
        d'.bit st F.ACC_STAT_NEW = false ∧ BitsKept (d.rd st) (d'.rd st) [F.ACC_STAT_NEW] ∧ RegsKept d d' [st])) ∧
      (x.recT = some d.now → Does (.accRecordRead t m h a) s (fun d' => d'.answer = ⟨false, Dev.lo32 x.oldSum⟩ ∧
        sparseGet 0 (d'.acc h a.val).recLatch (Dev.portNo m) = x.oldSum / 2 ^ 32 ∧ RegsKept d d' []))) ∧
    (d.reach (Reg.ACC_SUMLO h a.val) false = true → Does (.accSumRead t m h a) s (fun d' =>
      d'.answer = ⟨false, Dev.lo32 x.sum⟩ ∧
      sparseGet 0 (d'.acc h a.val).runLatch (Dev.portNo m) = x.sum / 2 ^ 32 ∧ RegsKept d d' []))

/-! ### SENT receivers (13_sent) -/

namespace Sys2Proof.Claims

/-- A frame discarded for a failing check (R278): its flag, the count and the source only where the receiver was in sync;
it hunts, with nothing kept of the frame. -/
def SentFailed (d d' : Dev) (r : Nat) (x : Fld) : Prop :=
  let st := Reg.SNT_STAT r
  let cnt := Reg.SNT_CNT r
  let sync := d.bit st F.SNT_STAT_SYNC
  let y := d'.snt r
  d'.bit st x = (d.bit st x || sync) ∧ d'.bit st F.SNT_STAT_SYNC = false ∧
  d'.f cnt F.SNT_CNT_ERRORS = (d.f cnt F.SNT_CNT_ERRORS + (if sync = true then 1 else 0)) % 65536 ∧
  (sync = true → d.bit st x = false → 0xE8 + r ∈ d'.irq.raised) ∧
  y.pos = none ∧ y.nibbles = [] ∧ y.prevCal = none ∧ y.serial = [] ∧ RegsKept d d' [st, cnt]

/-- A complete frame that passes every check (R277): its nibbles, its calibration pulse and its time, NEW or OVR, SYNC, the
count, and what the receiver enables; the calibration pulse comes next. -/
def FrameTaken (d d' : Dev) (r : Nat) (nibbles : List Nat) : Prop :=
  let st := Reg.SNT_STAT r
  let x := d.snt r
  d'.rd (Reg.SNT_DATA r) = BitVec.ofNat 32 ((nibbles.take 7).foldl (fun n x => 16 * n + x) 0) ∧
  d'.rd (Reg.SNT_CAL r) = BitVec.ofNat 32 x.cal ∧ d'.rd (Reg.SNT_TIME r) = Dev.lo32 x.calStart ∧
  d'.bit st F.SNT_STAT_NEW = true ∧ d'.bit st F.SNT_STAT_OVR = (d.bit st F.SNT_STAT_OVR || d.bit st F.SNT_STAT_NEW) ∧
  d'.bit st F.SNT_STAT_SYNC = true ∧
  d'.f (Reg.SNT_CNT r) F.SNT_CNT_FRAMES = (d.f (Reg.SNT_CNT r) F.SNT_CNT_FRAMES + 1) % 65536 ∧
  (d.bit (Reg.SNT_CFG r) F.SNT_CFG_IE = true → 0xE8 + r ∈ d'.irq.raised) ∧
  d'.sends = d.sends ++ (if d.bit (Reg.SNT_CFG r) F.SNT_CFG_MREQ = true then [Send.mule (12 + r) 0] else []) ∧
  (d'.snt r).pos = none ∧ (d'.snt r).prevCal = some x.cal ∧
  RegsKept d d' [Reg.SNT_DATA r, Reg.SNT_CAL r, Reg.SNT_TIME r, Reg.SNT_SER r, Reg.SNT_SERTIME r, st, Reg.SNT_CNT r]

end Sys2Proof.Claims

/-- SENT receivers (R274 to R279): an interval ends at a falling edge that FILT passes on; a calibration pulse is 42
to 70 nominal ticks, a nibble 11.5 to 27.5 ticks of it, a pause 12 to 768; the CRC nibble covers the six data nibbles;
a frame that passes is written, one that fails is discarded, also when an interval outgrows its position; a read
clears NEW unless the frame is written in that very SYS cycle. What the model chose in it: log 12, 45. -/
def Obligations.SentFrames : Prop :=
  ∀ (s : State) (t : Tick) (r : Fin 6) (holds : Bool) (m : Master),
    let d := s.devAt t
    let x := d.snt r.val
    let st := Reg.SNT_STAT r.val
    let cfg := Reg.SNT_CFG r.val
    let edge := Instr.sentEdge t ⟨r, holds⟩
    let runs := d.sntRuns r.val = true ∧ (holds = true ∨ d.f cfg F.SNT_CFG_FILT = 0)
    let pause := d.f cfg F.SNT_CFG_PAUSE
    let nom := 20 * d.f cfg F.SNT_CFG_NOMTICK
    let sync := d.bit st F.SNT_STAT_SYNC
    let at' := fun d' : Dev => (d'.snt r.val).lastEdge = some t.toNat
    (¬runs → Does edge s (fun d' => d' = d)) ∧
    (runs → x.lastEdge = none → Does edge s (fun d' =>
      d'.snt r.val = { x with lastEdge := some t.toNat } ∧ RegsKept d d' [])) ∧
    (∀ t0 : Nat, runs → x.lastEdge = some t0 →
      let len := t.toNat / 2 - t0 / 2
      let ticks := sentTicks x.cal len
      let chk := d.f cfg F.SNT_CFG_CALCHK
      (x.pos = none → len < 42 * nom ∨ 70 * nom < len →
        (sync = false → Does edge s (fun d' => d'.snt r.val = { x with lastEdge := some t.toNat } ∧ RegsKept d d' [])) ∧
        (sync = true → Does edge s (fun d' => SentFailed d d' r.val F.SNT_STAT_CAL_ERR ∧ at' d'))) ∧
      (x.pos = none → 42 * nom ≤ len → len ≤ 70 * nom →
        (chk ≠ 1 ∨ x.prevCal = none ∨ (∃ p : Nat, x.prevCal = some p ∧ 64 * (max len p - min len p) ≤ p) →
          Does edge s (fun d' => d'.snt r.val = { x with
            lastEdge := some t.toNat, pos := some 0, calStart := t0, cal := len, nibbles := [] } ∧ RegsKept d d' [])) ∧
        (∀ p : Nat, chk = 1 → x.prevCal = some p → p < 64 * (max len p - min len p) →
          Does edge s (fun d' => SentFailed d d' r.val F.SNT_STAT_CAL_ERR ∧ at' d'))) ∧
      (∀ n : Nat, x.pos = some n →
        (n < 8 → ticks < 23 / 2 ∨ 55 / 2 ≤ ticks → Does edge s (fun d' =>
          SentFailed d d' r.val F.SNT_STAT_NIB_ERR ∧ at' d')) ∧
        (∀ v : Nat, sentNibble x.cal len = some v →
          (n < 7 → Does edge s (fun d' => d'.snt r.val = { x with
            lastEdge := some t.toNat, pos := some (n + 1), nibbles := x.nibbles ++ [v] } ∧ RegsKept d d' [])) ∧
          (let crc := sentCrc (d.bit cfg F.SNT_CFG_CRCMODE) (((x.nibbles ++ [v]).drop 1).take 6)
           n = 7 → (crc ≠ v → Does edge s (fun d' => SentFailed d d' r.val F.SNT_STAT_CRC_ERR ∧ at' d')) ∧
            (crc = v → pause = 0 → chk ≠ 2 → Does edge s (fun d' =>
              FrameTaken d d' r.val (x.nibbles ++ [v]) ∧ at' d')) ∧
            (crc = v → pause ≠ 0 → Does edge s (fun d' => d'.snt r.val = { x with
              lastEdge := some t.toNat, pos := some 8, nibbles := x.nibbles ++ [v] } ∧ RegsKept d d' [])))) ∧
        (8 ≤ n → ticks < 12 ∨ 768 < ticks → Does edge s (fun d' =>
          SentFailed d d' r.val F.SNT_STAT_PAUSE_ERR ∧ at' d')) ∧
        (8 ≤ n → 12 ≤ ticks → ticks ≤ 768 → chk ≠ 2 → pause = 1 → Does edge s (fun d' =>
          FrameTaken d d' r.val x.nibbles ∧ at' d')))) ∧
    (∀ t0 : Nat, d.sntRuns r.val = true → x.lastEdge = some t0 →
      let len := d.now / 2 - t0 / 2
      let ticks := sentTicks x.cal len
      let cmd := Instr.sentIntervalTimeout t r
      let lost := fun e : Fld => Does cmd s (fun d' => SentFailed d d' r.val e ∧ (d'.snt r.val).lastEdge = none)
      (x.pos = none → sync = true → 70 * nom < len → lost F.SNT_STAT_CAL_ERR) ∧
      (x.pos = none → (sync = false ∨ len ≤ 70 * nom) → Does cmd s (fun d' => d' = d)) ∧
      (∀ n : Nat, x.pos = some n → (n < 8 → 55 / 2 ≤ ticks → lost F.SNT_STAT_NIB_ERR) ∧
        (8 ≤ n → 768 < ticks → lost F.SNT_STAT_PAUSE_ERR) ∧
        (n < 8 ∧ ticks < 55 / 2 ∨ 8 ≤ n ∧ ticks ≤ 768 → Does cmd s (fun d' => d' = d)))) ∧
    (d.reach (Reg.SNT_DATA r.val) false = true →
      (x.dataT.map (· / 2) ≠ some (d.now / 2) → Does (.sentDataRead t m r) s (fun d' =>
        d'.answer = ⟨false, d.rd (Reg.SNT_DATA r.val)⟩ ∧ d'.bit st F.SNT_STAT_NEW = false ∧
        BitsKept (d.rd st) (d'.rd st) [F.SNT_STAT_NEW] ∧ RegsKept d d' [st])) ∧
      (x.dataT.map (· / 2) = some (d.now / 2) → Does (.sentDataRead t m r) s (fun d' =>
        d' = { d with answer := ⟨false, x.oldData⟩ }))) ∧
    (d.reach (Reg.SNT_SER r.val) false = true →
      (x.serT.map (· / 2) ≠ some (d.now / 2) → Does (.sentSerialRead t m r) s (fun d' =>
        d'.answer = ⟨false, d.rd (Reg.SNT_SER r.val)⟩ ∧ d'.bit st F.SNT_STAT_SER_NEW = false ∧
        BitsKept (d.rd st) (d'.rd st) [F.SNT_STAT_SER_NEW] ∧ RegsKept d d' [st])) ∧
      (x.serT.map (· / 2) = some (d.now / 2) → Does (.sentSerialRead t m r) s (fun d' =>
        d' = { d with answer := ⟨false, x.oldSer⟩ })))

/-! ### The Colt engines (14_colt) -/

namespace Sys2Proof.Claims

/-- A ball of the Colt stands at the safe level that COLT_PINSAFE gives it (R286): low, high, or high impedance. -/
def PinAtSafe (d d' : Dev) (k : Nat) : Prop :=
  let code := getF (d.rd Reg.COLT_PINSAFE) ⟨2 * k + 1, 2 * k⟩
  d'.bit Reg.COLT_PINLVL ⟨k, k⟩ = decide (2 ≤ code) ∧
  (code < 2 → d'.bit Reg.COLT_PINLVL ⟨16 + k, 16 + k⟩ = decide (code = 1))

/-- What the changes of one SYS cycle make of the flags that stood at its start (R296). -/
def flagsAfter (ops : List (Nat × (Word × (Word × Word)))) (start : Word) : Word :=
  ops.foldl (fun g o => ((g ||| o.2.1) &&& ~~~o.2.2.1) ^^^ o.2.2.2) start

end Sys2Proof.Claims

/-- Colt commands and triggers (R292, R295 to R297, R299, R300): START runs a stopped engine from ENTRY with its
counters loaded and its registers, counts and local flags cleared; STOP abandons the state, keeps the shift registers
and puts the owned pins at their safe levels; FLUSH empties the FIFOs; a trigger is latched, a second one lost, one of
the cycle of a failed TRIG test matches it, one of the cycle of a START or a STOP is cleared; an injection is taken
unless the engine is stopped, one is pending or the word is malformed; the upper word of an entry commits both; a push
to a full FIFO and a pop from an empty one are flagged; flags are set and cleared, the bus before the engines of the
same SYS cycle. What the model chose in it: log 46. -/
def Obligations.ColtCommands : Prop :=
  ∀ (s : State) (t : Tick) (m : Master) (e : Fin 8) (i : Fin 64) (k : Fin 16) (v : Word),
    let d := s.devAt t
    let x := d.coltE e.val
    let fl := Reg.COLT_FLAG e.val
    let st := Reg.COLT_STAT e.val
    let rl := d.rd (Reg.COLT_RELOAD e.val)
    let cycle := d.now / 2
    let g := d.rd Reg.COLT_GFLAG
    let calm := ∀ z : FlagCycle, d.gflagOld = some z → z.cyc ≠ cycle
    let stopNow := ∃ z : ColtStop, x.stop = some z ∧ z.cyc = cycle
    let flagged := fun (d' : Dev) (f : Fld) => d'.bit fl f = true ∧ BitsKept (d.rd fl) (d'.rd fl) [f] ∧
      d'.colt = d.colt ∧ RegsKept d d' [fl]
    (d.reach (Reg.COLT_CTRL e.val) true = true →
      (d.coltStopped e.val = true → ¬stopNow → Does (.coltStart t m e) s (fun d' =>
        d'.coltE e.val = { x with
          pc := d.f (Reg.COLT_CFG e.val) F.COLT_CFG_ENTRY, atEntry := true, shifting := 0, blocked := false,
          waiting := false, tests := 0, ca := getF rl F.COLT_RELOAD_CAR, cb := getF rl F.COLT_RELOAD_CBR, tsr := 0,
          rsr := 0, outN := 0, inN := 0, trigp := false, pace := false, inj := none, injExec := false,
          nextC := cycle + 1, startC := some cycle, froze := none } ∧
        d'.f st F.COLT_STAT_STATE = 1 ∧ RegsKept d d' [st, Reg.COLT_GFLAG] ∧
        (calm → d'.bit Reg.COLT_GFLAG ⟨4 + 2 * e.val, 4 + 2 * e.val⟩ = false ∧
        d'.bit Reg.COLT_GFLAG ⟨5 + 2 * e.val, 5 + 2 * e.val⟩ = false ∧
        BitsKept g (d'.rd Reg.COLT_GFLAG) [⟨5 + 2 * e.val, 4 + 2 * e.val⟩]))) ∧
      (d.coltStopped e.val = false ∨ stopNow → Does (.coltStart t m e) s (fun d' => d' = { d with answer := ⟨false, 0⟩ })) ∧
      Does (.coltStop t m e) s (fun d' =>
        d'.coltE e.val = { x with
          atEntry := true, shifting := 0, blocked := false, waiting := false, tests := 0, trigp := false,
          pace := false, inj := none, injExec := false
          stop := if d.coltStopped e.val then x.stop else some ⟨cycle, d.f st F.COLT_STAT_STATE, x.atEntry, x.shifting,
            x.blocked, x.waiting, x.tests, x.pace, x.trigp⟩ } ∧
        d'.f st F.COLT_STAT_STATE = 0 ∧ d'.f fl F.COLT_FLAG_STOPC = 0 ∧
        (d.owns e.val k.val = true → PinAtSafe d d' k.val) ∧
        (d.owns e.val k.val = false → d'.bit Reg.COLT_PINLVL ⟨k.val, k.val⟩ = d.bit Reg.COLT_PINLVL ⟨k.val, k.val⟩ ∧
          d'.bit Reg.COLT_PINLVL ⟨16 + k.val, 16 + k.val⟩ = d.bit Reg.COLT_PINLVL ⟨16 + k.val, 16 + k.val⟩) ∧
        RegsKept d d' [st, fl, Reg.COLT_PINLVL]) ∧
      Does (.coltFlush t m e) s (fun d' => (d'.coltE e.val).tx = [] ∧ (d'.coltE e.val).rx = [] ∧
        { d'.coltE e.val with tx := x.tx, rx := x.rx, txOld := x.txOld, rxOld := x.rxOld } = x ∧ RegsKept d d' [])) ∧
    (let now' := x.startC = some cycle ∨ x.trigT = some cycle ∨ stopNow
     let failed := x.trigFail = some cycle ∧ d.coltStopped e.val = false
     (now' → Does (.coltTrigger t e) s (fun d' => d'.colt = d.colt ∧ RegsKept d d' [])) ∧
     (¬now' → failed → Does (.coltTrigger t e) s (fun d' =>
       d'.coltE e.val = { x with
         trigT := some cycle, trigFail := none, pc := nextM x.ex, atEntry := true, waiting := false, tests := 0,
         blocked := false } ∧ d'.f st F.COLT_STAT_STATE = 1 ∧ RegsKept d d' [st])) ∧
     (¬now' → ¬failed → x.trigp = true → Does (.coltTrigger t e) s (fun d' => flagged d' F.COLT_FLAG_TRIG_OVR)) ∧
     (¬now' → ¬failed → x.trigp = false → Does (.coltTrigger t e) s (fun d' =>
       d'.coltE e.val = { x with trigp := true, trigT := some cycle } ∧ RegsKept d d' []))) ∧
    (d.reach (Reg.COLT_INJHI e.val) true = true →
      let w := stateWord (d.rd (Reg.COLT_INJLO e.val)) v
      (d.coltStopped e.val = true → Does (.coltInject t m e v) s (fun d' =>
        flagged d' F.COLT_FLAG_INJ_DENIED ∧ d'.answer = ⟨false, 0⟩)) ∧
      (d.coltStopped e.val = false → x.inj ≠ none ∨ badWord w = true → Does (.coltInject t m e v) s (fun d' =>
        flagged d' F.COLT_FLAG_INJ_DENIED ∧ d'.answer = ⟨true, 0⟩)) ∧
      (d.coltStopped e.val = false → x.inj = none → badWord w = false → Does (.coltInject t m e v) s (fun d' =>
        d'.coltE e.val = { x with inj := some (w, cycle) } ∧ RegsKept d d' []))) ∧
    (d.reach (Reg.COLT_TAB_LO e.val i.val) true = true → Does (.coltTableStage t m e i v) s (fun d' =>
      d'.coltE e.val = { x with stage := some (i.val, v) } ∧ RegsKept d d' [])) ∧
    (d.reach (Reg.COLT_TAB_HI e.val i.val) true = true → Does (.coltTableCommit t m e i v) s (fun d' =>
      d'.rd (Reg.COLT_TAB_HI e.val i.val) = v ∧ (d'.coltE e.val).stage = none ∧
      (∀ w : Word, x.stage = some (i.val, w) → d'.rd (Reg.COLT_TAB_LO e.val i.val) = w) ∧
      ((∀ w : Word, x.stage ≠ some (i.val, w)) →
        d'.rd (Reg.COLT_TAB_LO e.val i.val) = d.rd (Reg.COLT_TAB_LO e.val i.val)) ∧
      RegsKept d d' [Reg.COLT_TAB_LO e.val i.val, Reg.COLT_TAB_HI e.val i.val])) ∧
    (d.reach (Reg.COLT_TXFIFO e.val) true = true →
      (x.tx.length < 4 → Does (.coltTxPush t m e v) s (fun d' =>
        (d'.coltE e.val).tx = x.tx ++ [v] ∧ { d'.coltE e.val with tx := x.tx, txOld := x.txOld } = x ∧
        RegsKept d d' [])) ∧
      (4 ≤ x.tx.length → Does (.coltTxPush t m e v) s (fun d' => flagged d' F.COLT_FLAG_TXOVR))) ∧
    (d.reach (Reg.COLT_RXFIFO e.val) false = true →
      (∀ (w : Word) (l : List Word), x.rx = w :: l → Does (.coltRxPop t m e) s (fun d' => d'.answer = ⟨false, w⟩ ∧
        (d'.coltE e.val).rx = l ∧ { d'.coltE e.val with rx := x.rx, rxOld := x.rxOld } = x ∧ RegsKept d d' [])) ∧
      (x.rx = [] → Does (.coltRxPop t m e) s (fun d' => d'.answer = ⟨false, 0⟩ ∧ flagged d' F.COLT_FLAG_RXUND))) ∧
    (d.reach Reg.COLT_GFLAG_SET true = true → Does (.coltFlagSet t m v) s (fun d' => RegsKept d d' [Reg.COLT_GFLAG] ∧
      (calm → d'.rd Reg.COLT_GFLAG = g ||| (v &&& 0xFFFFF)) ∧
      (∀ z : FlagCycle, d.gflagOld = some z → z.cyc = cycle → (∀ o ∈ z.ops, o.1 ≠ 0) →
        d'.rd Reg.COLT_GFLAG = flagsAfter z.ops (z.start ||| (v &&& 0xFFFFF))))) ∧
    (d.reach Reg.COLT_GFLAG_CLR true = true → Does (.coltFlagClear t m v) s (fun d' => RegsKept d d' [Reg.COLT_GFLAG] ∧
      (calm → d'.rd Reg.COLT_GFLAG = g &&& ~~~(v &&& 0xFFFFF)) ∧
      (∀ z : FlagCycle, d.gflagOld = some z → z.cyc = cycle → (∀ o ∈ z.ops, o.1 ≠ 0) →
        d'.rd Reg.COLT_GFLAG = flagsAfter z.ops (z.start &&& ~~~(v &&& 0xFFFFF)))))

/-- The running of an engine (R283, R288 to R292, R294, R297, R300): a state is entered with its word fetched, or
injected in its place; a malformed word stops the engine; pin, flag, interrupt and request happen at entry; a shift
makes one bit in each cycle, or at each pacing edge; the wait is tested from the last data cycle on, a match goes
before a timeout, and an injection before both; a blocking transfer that finds its FIFO empty stalls. An engine cycle
comes every DIV + 1 SYS cycles, a pacing edge at the level that PACE selects, and the engine cycle of a STOP's SYS
cycle is still made. What the model chose in it: log 46. -/
def Obligations.ColtExecution : Prop :=
  ∀ (s : State) (t : Tick) (e : Fin 8) (pins : BitVec 16),
    let d := s.devAt t
    let x := d.coltE e.val
    let fl := Reg.COLT_FLAG e.val
    let st := Reg.COLT_STAT e.val
    let lv := Reg.COLT_PINLVL
    let run := Instr.coltEngineCycle t e pins
    let cycle := d.now / 2
    let div := d.f (Reg.COLT_CFG e.val) F.COLT_CFG_DIV + 1
    let next := x.nextC + ((cycle - x.nextC) / div + 1) * div
    let runs := d.coltRuns e.val = true ∧ x.nextC ≤ cycle ∧ ∀ z : ColtStop, x.stop = some z → z.cyc ≠ cycle
    let mode := d.rd (Reg.COLT_MODE e.val)
    let calm := ∀ z : FlagCycle, d.gflagOld = some z → z.cyc ≠ cycle
    let entered := fun (d' : Dev) (pc : Nat) => (d'.coltE e.val).pc = pc ∧ (d'.coltE e.val).atEntry = true ∧
      d'.f st F.COLT_STAT_STATE = 1
    let rot := fun w : BitVec 64 => if wMsbf w = true then x.tsr.rotateLeft 1 else x.tsr.rotateRight 1
    ((∀ z : ColtStop, x.stop = some z → z.cyc ≠ cycle) → d.coltRuns e.val = false ∨ cycle < x.nextC →
      Does run s (fun d' => d' = d)) ∧
    (∀ z : ColtStop, x.stop = some z → z.cyc = cycle → Does run s (fun d' => d'.f st F.COLT_STAT_STATE = 0 ∧
      RegsKept d d' [st, fl, lv, Reg.COLT_GFLAG, Reg.COLT_RELOAD e.val])) ∧
    (runs → Does run s (fun d' => (d'.coltE e.val).nextC = next)) ∧
    (getB mode F.COLT_MODE_PSRC = false → d.paceEdge e.val pins = (decide (getF mode F.COLT_MODE_PACE ≠ 0) &&
      (pins.getLsbD (getF mode F.COLT_MODE_PIDX % 16) == decide (getF mode F.COLT_MODE_PACE = 1)))) ∧
    (d.coltRuns e.val = false ∨ d.paceEdge e.val pins = false → Does (.coltPaceEdge t e pins) s (fun d' => d' = d)) ∧
    (runs → x.atEntry = true →
      let w := (d.usable x).getD (d.tabWord e.val x.pc)
      (badWord w = true → Does run s (fun d' => d'.f st F.COLT_STAT_STATE = 0 ∧ d'.f fl F.COLT_FLAG_STOPC = 1 ∧
        d'.bit fl F.COLT_FLAG_BADWORD = true ∧ RegsKept d d' [st, fl, lv])) ∧
      (badWord w = false → wDact w = 0 → wWait w = 0 → Does run s (fun d' => entered d' (nextM w) ∧
        (d'.coltE e.val).ex = w ∧
        (d.owns e.val (wPpin w) = true → (wPact w = 1 ∨ wPact w = 2) →
          d'.bit lv ⟨wPpin w, wPpin w⟩ = false ∧
          d'.bit lv ⟨16 + wPpin w, 16 + wPpin w⟩ = decide (wPact w = 2)) ∧
        (d.owns e.val (wPpin w) = true → wPact w = 4 → d'.bit lv ⟨wPpin w, wPpin w⟩ = true) ∧
        (d.owns e.val (wPpin w) = false → wPact w ≠ 0 → d'.bit fl F.COLT_FLAG_PINERR = true) ∧
        (calm → wFop w = 1 → (d'.rd Reg.COLT_GFLAG).getLsbD (flagBit e.val (wFidx w)) = true) ∧
        (calm → wFop w = 2 → (d'.rd Reg.COLT_GFLAG).getLsbD (flagBit e.val (wFidx w)) = false) ∧
        (wFop w = 0 → d'.rd Reg.COLT_GFLAG = d.rd Reg.COLT_GFLAG) ∧
        (wIrq w = true → d'.bit fl F.COLT_FLAG_SIRQ = true) ∧
        (wMreq w = true → d.bit (Reg.COLT_FIFOCFG e.val) F.COLT_FIFOCFG_RXREQ = true →
          Send.mule (26 + e.val) 0 ∈ d'.sends) ∧
        RegsKept d d' [st, fl, lv, Reg.COLT_GFLAG])) ∧
      (badWord w = false → wDact w = 1 → wDn w ≠ 0 → d.paced e.val = false → Does run s (fun d' =>
        (d'.coltE e.val).shifting = wDn w ∧ (d'.coltE e.val).tsr = rot w ∧
        (d'.coltE e.val).outN = min 63 (x.outN + 1) ∧ (d'.coltE e.val).atEntry = false ∧
        (d.owns e.val (d.f (Reg.COLT_CFG e.val) F.COLT_CFG_DOUT) = true →
          let k := d.f (Reg.COLT_CFG e.val) F.COLT_CFG_DOUT
          d'.bit lv ⟨16 + k, 16 + k⟩ = (if wMsbf w = true then x.tsr.getLsbD 31 else x.tsr.getLsbD 0)) ∧
        RegsKept d d' [st, fl, lv, Reg.COLT_GFLAG]))) ∧
    (runs → x.atEntry = false → x.blocked = false → x.shifting = 0 →
      (d.usable x ≠ none → Does run s (fun d' => entered d' x.pc ∧ (d'.coltE e.val).inj = x.inj)) ∧
      (d.usable x = none → wWait x.ex = 1 → pins.getLsbD (wArg x.ex % 16) = wPol x.ex → Does run s (fun d' =>
        entered d' (nextM x.ex))) ∧
      (d.usable x = none → (wWait x.ex = 7 ∨ wWait x.ex = 1 ∧ pins.getLsbD (wArg x.ex % 16) ≠ wPol x.ex) →
        (wTmo x.ex ≠ 0 → x.tests + 1 = wTmo x.ex → Does run s (fun d' => entered d' (nextT x.ex))) ∧
        (wTmo x.ex = 0 ∨ x.tests + 1 ≠ wTmo x.ex → Does run s (fun d' => (d'.coltE e.val).tests = x.tests + 1 ∧
          (d'.coltE e.val).pc = x.pc ∧ (d'.coltE e.val).atEntry = false ∧ d'.f st F.COLT_STAT_STATE = 2 ∧
          RegsKept d d' [st, lv]))) ∧
      (d.usable x = none → wWait x.ex = 5 → x.trigp = true → Does run s (fun d' => entered d' (nextM x.ex) ∧
        (d'.coltE e.val).trigp = false))) ∧
    (runs → x.atEntry = false → x.blocked = true → d.usable x = none →
      (wDact x.ex = 4 → d.txHas e.val = false → Does run s (fun d' => d'.coltE e.val = { x with nextC := next } ∧
        d'.f st F.COLT_STAT_STATE = 3 ∧ RegsKept d d' [st, lv])) ∧
      (∀ (v : Word) (l : List Word), wDact x.ex = 4 → d.txHas e.val = true → x.tx = v :: l → Does run s (fun d' =>
        (d'.coltE e.val).tsr = v ∧ (d'.coltE e.val).tx = l ∧ (d'.coltE e.val).outN = 0))) ∧
    (d.coltRuns e.val = true → d.paceEdge e.val pins = true →
      (x.atEntry = false → x.blocked = false → x.shifting ≠ 0 → wDact x.ex = 1 →
        Does (.coltPaceEdge t e pins) s (fun d' => (d'.coltE e.val).shifting = x.shifting - 1 ∧
          (d'.coltE e.val).tsr = rot x.ex ∧ RegsKept d d' [st, fl, lv])) ∧
      (x.atEntry = true → x.pace = false → Does (.coltPaceEdge t e pins) s (fun d' =>
        d'.coltE e.val = { x with pace := true } ∧ RegsKept d d' [])) ∧
      (x.atEntry = true → x.pace = true → Does (.coltPaceEdge t e pins) s (fun d' =>
        d'.bit fl F.COLT_FLAG_PACE_OVR = true ∧ d'.colt = d.colt ∧ RegsKept d d' [fl])))

/-! ### The Mule (15_mule) -/

namespace Sys2Proof.Claims

/-- The registers of a Mule channel. -/
def muleRegs (c : Nat) : List Nat :=
  [Reg.MULE_CFG c, Reg.MULE_STAT c, Reg.MULE_FLAG c, Reg.MULE_ASADDR c, Reg.MULE_ADADDR c, Reg.MULE_ALEN c, Reg.MULE_ACTL c,
    Reg.MULE_SETS c]

/-- A set marked BAD with a cause (R304, R313): counted, and the channel's source raised. -/
def SetBad (d d' : Dev) (c cause : Nat) : Prop :=
  d'.bit (Reg.MULE_FLAG c) F.MULE_FLAG_BAD = true ∧ d'.f (Reg.MULE_FLAG c) F.MULE_FLAG_BADC = cause ∧
  d'.f (Reg.MULE_SETS c) F.MULE_SETS_BADSETS = (d.f (Reg.MULE_SETS c) F.MULE_SETS_BADSETS + 1) % 65536 ∧
  0xF0 + c ∈ d'.irq.raised

/-- The shadow set of a channel loaded (R303, R304): VALID cleared, the set active from its start, or BAD with cause LOAD
and the channel IDLE; the requests counted stay. -/
def SetLoaded (d d' : Dev) (c : Nat) : Prop :=
  let src := d.rd (Reg.MULE_SSADDR c)
  let dst := d.rd (Reg.MULE_SDADDR c)
  let len := d.f (Reg.MULE_SLEN c) F.MULE_SLEN_LEN
  let ctl := d.rd (Reg.MULE_SCTL c)
  let y := d'.muleC c
  let ok := d.setOk src.toNat dst.toNat len ctl
  d'.bit (Reg.MULE_STAT c) F.MULE_STAT_VALID = false ∧ y.reqs = (d.muleC c).reqs ∧ y.active = ok ∧ y.inBurst = false ∧
  d'.rd (Reg.MULE_ASADDR c) = src ∧ d'.rd (Reg.MULE_ADADDR c) = dst ∧ d'.rd (Reg.MULE_ALEN c) = BitVec.ofNat 32 len ∧
  d'.rd (Reg.MULE_ACTL c) = ctl ∧ (ok = false → SetBad d d' c 4) ∧
  (ok = true → y.src = src.toNat ∧ y.dst = dst.toNat ∧ y.len = len)

/-- One request for a channel (R305, R306): counted up to 15, one in a SYS cycle; the next is lost. -/
def Requested (d d' : Dev) (c : Nat) : Prop :=
  let x := d.muleC c
  let fl := Reg.MULE_FLAG c
  (x.lastReq = some (d.now / 2) → d'.muleC c = x) ∧
  (x.lastReq ≠ some (d.now / 2) → x.reqs.length < 15 →
    d'.muleC c = { x with reqs := x.reqs ++ [d.now / 2], lastReq := some (d.now / 2) }) ∧
  (x.lastReq ≠ some (d.now / 2) → 15 ≤ x.reqs.length → d'.muleC c = { x with lastReq := some (d.now / 2) } ∧
    d'.bit fl F.MULE_FLAG_REQ_OVR = true ∧ 0xF0 + c ∈ d'.irq.raised)

end Sys2Proof.Claims

/-- Mule channels (R303 to R306, R312, R315): COMMIT marks the shadow set VALID, or has it loaded by an enabled
channel without a set, as EN set does; STOP ends after the active set, at once where there is none, as EN cleared
does; in the SYS cycle in which a set ends a COMMIT is loaded at that end, and a STOP takes effect at it, a set loaded
there VALID again; WITHDRAW clears VALID; a shadow word of a VALID set is refused; a source line gives a request to
every channel it reaches, a directed or software line to the channel it names. What the model chose in it: log 47. -/
def Obligations.MuleChannels : Prop :=
  ∀ (s : State) (t : Tick) (m : Master) (c line : Fin 16) (src : Fin 46) (w : Fin 4) (v : Word),
    let d := s.devAt t
    let x := d.muleC c.val
    let st := Reg.MULE_STAT c.val
    let cfg := Reg.MULE_CFG c.val
    let en := d.bit cfg F.MULE_CFG_EN
    let valid := d.bit st F.MULE_STAT_VALID
    let kept := fun d' : Dev => RegsKept d d' (muleRegs c.val)
    let cycle := d.now / 2
    let repeats := x.bound = some (cycle, false)
    let reloads := x.bound = some (cycle, true)
    let stops := fun d' : Dev =>
      (x.active = true → repeats ∨ reloads → d'.bit cfg F.MULE_CFG_EN = false ∧ (d'.muleC c.val).active = false ∧
        (d'.muleC c.val).reqs = x.reqs ∧ d'.bit st F.MULE_STAT_VALID = (decide reloads || valid)) ∧
      (x.active = true → ¬repeats → ¬reloads → d'.bit st F.MULE_STAT_STOP_PEND = true ∧ d'.bit cfg F.MULE_CFG_EN = en ∧ d'.muleC c.val = x) ∧
      (x.active = false → d'.bit cfg F.MULE_CFG_EN = false ∧ d'.muleC c.val = x)
    let directed := 38 ≤ src.val ∧ src.val ≤ 40 ∨ src.val = 45
    let named := fun n : Nat => d.f cfg F.MULE_CFG_SRC = n
    let lines := fun d' : Dev => RegsKept d d' ((List.range 16).map Reg.MULE_FLAG)
    (d.reach (Reg.MULE_CMD c.val) true = true →
      (en = true → x.active = false ∨ repeats → Does (.muleCommit t m c) s (fun d' => SetLoaded d d' c.val ∧ kept d')) ∧
      (en = false ∨ (x.active = true ∧ ¬repeats) → Does (.muleCommit t m c) s (fun d' => d'.bit st F.MULE_STAT_VALID = true ∧
        d'.mule = d.mule ∧ RegsKept d d' [st])) ∧
      Does (.muleStop t m c) s (fun d' => stops d' ∧ RegsKept d d' [st, cfg]) ∧
      Does (.muleWithdraw t m c) s (fun d' => d'.bit st F.MULE_STAT_VALID = false ∧
        BitsKept (d.rd st) (d'.rd st) [F.MULE_STAT_VALID] ∧ d'.mule = d.mule ∧ RegsKept d d' [st])) ∧
    (d.reach cfg true = true →
      (getB v F.MULE_CFG_EN = true → en = false → valid = true → x.active = false →
        Does (.muleEnableWrite t m c v) s (fun d' => d'.bit cfg F.MULE_CFG_EN = true ∧ SetLoaded d d' c.val ∧ kept d')) ∧
      (getB v F.MULE_CFG_EN = true → en = true ∨ valid = false ∨ x.active = true →
        Does (.muleEnableWrite t m c v) s (fun d' => d'.bit cfg F.MULE_CFG_EN = true ∧ d'.mule = d.mule ∧
          RegsKept d d' [cfg])) ∧
      (getB v F.MULE_CFG_EN = false → en = true → Does (.muleEnableWrite t m c v) s (fun d' => stops d' ∧
        RegsKept d d' [st, cfg])) ∧
      Does (.muleEnableWrite t m c v) s (fun d' => d'.bit cfg F.MULE_CFG_IE = getB v F.MULE_CFG_IE)) ∧
    (d.reach (Reg.MULE_SSADDR c.val + 4 * w.val) true = true →
      (valid = true → Does (.muleShadowWrite t m c w v) s (fun d' => d'.answer = ⟨true, 0⟩ ∧
        d'.bit (Reg.MULE_FLAG c.val) F.MULE_FLAG_SHW_DENIED = true ∧ d'.mule = d.mule ∧
        RegsKept d d' [Reg.MULE_FLAG c.val])) ∧
      (valid = false → Does (.muleShadowWrite t m c w v) s (fun d' =>
        d'.rd (Reg.MULE_SSADDR c.val + 4 * w.val) =
          v &&& (match w.val with | 2 => 0xFFFFF | 3 => 0x7FFFF | _ => 0xFFFFFFFF) ∧
        RegsKept d d' [Reg.MULE_SSADDR c.val + 4 * w.val]))) ∧
    Does (.muleRequest t src line) s (fun d' => lines d' ∧
      (named src.val → (directed → c = line) → Requested d d' c.val) ∧
      (¬(named src.val ∧ (directed → c = line)) → d'.muleC c.val = x)) ∧
    (d.reach Reg.MULE_SWREQ true = true → Does (.muleSoftwareRequest t m v) s (fun d' => lines d' ∧
      (v.getLsbD c.val = true → named 45 → Requested d d' c.val) ∧
      (¬(v.getLsbD c.val = true ∧ named 45) → d'.muleC c.val = x)))

/-- Mule bursts (R305, R307 to R311, R313): on its turn a channel serves its oldest request with a burst of BEATS x 8
bytes, or of what the set has left; in RAM an access takes what the burst has of one beat; the last write moves the
addresses on, and after the last of the set asks for the read-back; a write that RAM refuses marks the set BAD. The
read-back completes the set: DONE, the count, the source, then the next set. What the model chose in it: log 47. -/
def Obligations.MuleBursts : Prop :=
  ∀ (s : State) (t : Tick) (c : Fin 16) (n : Nat),
    let d := s.devAt t
    let x := d.muleC c.val
    let st := Reg.MULE_STAT c.val
    let fl := Reg.MULE_FLAG c.val
    let ctl := d.rd (Reg.MULE_ACTL c.val)
    let src := (d.rd (Reg.MULE_ASADDR c.val)).toNat
    let dst := (d.rd (Reg.MULE_ADADDR c.val)).toNat
    let len := (d.rd (Reg.MULE_ALEN c.val)).toNat
    let ss := Dev.srcSide ctl
    let ds := Dev.dstSide ctl
    let pend := d.bit st F.MULE_STAT_STOP_PEND
    let valid := d.bit st F.MULE_STAT_VALID
    let again := getB ctl F.MULE_SCTL_REPEAT
    let kept := fun d' : Dev => RegsKept d d' (muleRegs c.val)
    let idle := fun d' : Dev => (d'.muleC c.val).active = false ∧ (d'.muleC c.val).reqs = x.reqs
    (d.muleTurn c.val = false → Does (.muleBurst t c n) s (fun d' => d' = d)) ∧
    (d.muleTurn c.val = true → x.inBurst = false → 0 < len → d.isReg src = false →
      let size := min (8 * (getF ctl F.MULE_SCTL_BEATS + 1)) len
      let k := min (8 - src % 8) size
      let bytes := if 0x300000 ≤ src ∧ src < 0x310000 then Dev.seenBytes (d, s.ram) src k else Memory.bytes s.ram src k
      Does (.muleBurst t c 1) s (fun d' => d'.muleC c.val = { x with
        reqs := x.reqs.drop 1, inBurst := true, size := size, done := 0,
        buf := if size ≤ k then Dev.swapBytes (getF ctl F.MULE_SCTL_SWAP) bytes else bytes } ∧ RegsKept d d' [])) ∧
    (let a := Dev.sideAt ds dst x.done
     let k := min (8 - a % 8) (x.size - x.done)
     d.muleTurn c.val = true → x.inBurst = true → x.size ≤ x.buf.length → x.done < x.size → d.isReg a = false →
      (d.beatMay a = true → DoesMem (.muleBurst t c 1) s (fun d' m' =>
        m' = Memory.setBytes s.ram a ((x.buf.drop x.done).take k) ∧
        (x.done + k < x.size → d'.muleC c.val = { x with done := x.done + k } ∧ RegsKept d d' []) ∧
        (x.size ≤ x.done + k → d'.muleC c.val = { x with
            inBurst := false, size := 0, buf := [], done := 0, readback := decide (len - x.size = 0) } ∧
          d'.sends = d.sends ++ (d.ringsFilled c.val dst).map (fun b => Send.stream b x.size) ∧
          d'.rd (Reg.MULE_ASADDR c.val) = BitVec.ofNat 32 (Dev.sideAt ss src x.size) ∧
          d'.rd (Reg.MULE_ADADDR c.val) = BitVec.ofNat 32 (Dev.sideAt ds dst x.size) ∧
          d'.rd (Reg.MULE_ALEN c.val) = BitVec.ofNat 32 (len - x.size) ∧ kept d'))) ∧
      (d.beatMay a = false → pend = false → valid = false → again = false →
        Does (.muleBurst t c 1) s (fun d' => SetBad d d' c.val 2 ∧ idle d' ∧ kept d'))) ∧
    (x.readback = true → (d.mode = .operate ∨ d.mode = .service) → d.isReg (Dev.lastAddr ds dst) = false →
      Does (.muleReadbackEnd t c) s (fun d' => kept d' ∧ d'.bit fl F.MULE_FLAG_DONE = true ∧
        d'.f (Reg.MULE_SETS c.val) F.MULE_SETS_DONESETS =
          (d.f (Reg.MULE_SETS c.val) F.MULE_SETS_DONESETS + 1) % 65536 ∧
        (d.bit (Reg.MULE_CFG c.val) F.MULE_CFG_IE = true → 0xF0 + c.val ∈ d'.irq.raised) ∧
        (pend = true → idle d' ∧ d'.bit (Reg.MULE_CFG c.val) F.MULE_CFG_EN = false ∧
          d'.bit st F.MULE_STAT_STOP_PEND = false ∧ d'.bit st F.MULE_STAT_VALID = valid) ∧
        (pend = false → valid = true → SetLoaded d d' c.val) ∧
        (pend = false → valid = false → again = true →
          d'.rd (Reg.MULE_ALEN c.val) = BitVec.ofNat 32 x.len ∧
          d'.rd (Reg.MULE_ASADDR c.val) = BitVec.ofNat 32 (if ss.mode = 2 then src else x.src) ∧
          d'.rd (Reg.MULE_ADADDR c.val) = BitVec.ofNat 32 (if ds.mode = 2 then dst else x.dst) ∧
          (d'.muleC c.val).active = x.active ∧ (d'.muleC c.val).readback = false) ∧
        (pend = false → valid = false → again = false → idle d'))) ∧
    (x.readback = false ∨ (d.mode ≠ .operate ∧ d.mode ≠ .service) → Does (.muleReadbackEnd t c) s (fun d' => d' = d))

/-! ### Interrupts (16_interrupts) -/

/-- The interrupt controller (R316 to R318, R320, R322, R324): a raising makes its source pending, unless the source
is reserved; pending and enable bits are set and cleared by word, a source raised in the very cycle staying pending; a
claim takes the winner of the eligible candidates, the highest priority and then the lowest number, clears it and
makes it active; a completion ends the active source of the highest priority, and flags any other number; WAKE_OUT
follows the candidates of the sleeping targets. What the model chose in it: log 13, 48. -/
def Obligations.Interrupts : Prop :=
  ∀ (s : State) (t : Tick) (m : Master) (n : Byte) (k : Fin 8) (g : Fin 2) (v : Word) (j : Fin 256),
    let d := s.devAt t
    let i := d.irq
    let named := j.val / 32 = k.val ∧ v.getLsbD (j.val % 32) = true
    let pend := fun d' : Dev => d'.irq.pend.getLsbD j.val = true
    let en := fun d' : Dev => d'.irq.en.getLsbD j.val = true
    let fresh := d.freshNow.getLsbD j.val = true
    let silent := fun d' : Dev => d'.irq.pend = i.pend ∧ d'.irq.en = i.en ∧ d'.irq.active = i.active
    (d.busRun = true → Does (.irqSourceRaise t n) s (fun d' =>
      (pend d' ↔ pend d ∨ j.val = n.toNat ∧ d.validSrc j.val = true) ∧ d'.irq.en = i.en ∧ d'.irq.active = i.active ∧
      (d'.wakeOut = true ↔ ∃ q : Fin 6, d.tgtSleep q.val = true ∧ ∃ a : Fin 256, d'.candidate q.val a.val = true) ∧
      RegsKept d d' [])) ∧
    (d.busRun = false → Does (.irqSourceRaise t n) s (fun d' => silent d' ∧ RegsKept d d' [])) ∧
    (d.reach (Reg.IRQ_PEND_SET k.val) true = true → Does (.irqPendSet t m k v) s (fun d' =>
      (pend d' ↔ pend d ∨ named ∧ d.validSrc j.val = true) ∧ d'.irq.en = i.en ∧ RegsKept d d' [])) ∧
    (d.reach (Reg.IRQ_PEND_CLR k.val) true = true → Does (.irqPendClear t m k v) s (fun d' =>
      (pend d' ↔ pend d ∧ (¬named ∨ fresh)) ∧ d'.irq.en = i.en ∧ RegsKept d d' [])) ∧
    (d.reach (Reg.IRQ_EN_SET k.val) true = true → Does (.irqEnableSet t m k v) s (fun d' =>
      (en d' ↔ en d ∨ named ∧ d.validSrc j.val = true) ∧ d'.irq.pend = i.pend ∧ RegsKept d d' [])) ∧
    (d.reach (Reg.IRQ_EN_CLR k.val) true = true → Does (.irqEnableClear t m k v) s (fun d' =>
      (en d' ↔ en d ∧ ¬named) ∧ d'.irq.pend = i.pend ∧ RegsKept d d' [])) ∧
    (d.reach (Reg.IRQ_CLAIM g.val) false = true →
      (d.tgtMask g.val = true ∨ d.winner g.val = none → Does (.irqClaim t m g) s (fun d' =>
        d' = { d with answer := ⟨false, 0xFFFFFFFF⟩ })) ∧
      (∀ a : Nat, d.tgtMask g.val = false → d.winner g.val = some a → Does (.irqClaim t m g) s (fun d' =>
        d'.answer = ⟨false, BitVec.ofNat 32 a⟩ ∧ d.eligible g.val a = true ∧
        (d.eligible g.val j.val = true →
          d.srcPrio j.val < d.srcPrio a ∨ d.srcPrio j.val = d.srcPrio a ∧ a ≤ j.val) ∧
        (pend d' ↔ pend d ∧ (j.val ≠ a ∨ fresh)) ∧ d'.irq.active = i.active ++ [(g.val, a, d.srcPrio a)] ∧
        RegsKept d d' []))) ∧
    (d.reach (Reg.IRQ_COMPLETE g.val) true = true →
      let top := i.active.find? fun a => decide (a.1 = g.val ∧ a.2.2 + 1 = d.running g.val)
      let no := getF v F.IRQ_COMPLETE_SRC
      (∀ p : Nat, top = some (g.val, no, p) → Does (.irqComplete t m g v) s (fun d' =>
        d'.irq.active = i.active.erase (g.val, no, p) ∧ d'.irq.pend = i.pend ∧ RegsKept d d' [])) ∧
      ((∀ p : Nat, top ≠ some (g.val, no, p)) → Does (.irqComplete t m g v) s (fun d' => silent d' ∧
        d'.bit (Reg.IRQ_TGTSTAT g.val) F.IRQ_TGTSTAT_CMPL_ERR = true ∧ RegsKept d d' [Reg.IRQ_TGTSTAT g.val])))

/-! ### The Afavo link (17_link) -/

namespace Sys2Proof.Claims

/-- A count of LNK_CNT raised by one. -/
def counted (d d' : Dev) (x : Fld) : Prop := d'.f Reg.LNK_CNT x = (d.f Reg.LNK_CNT x + 1) % 65536

/-- The link goes DOWN (R329, R335): frames sent and waiting, and answers, are discarded; accepted frames stay without
their responses; DOWN is flagged. -/
def LinkDown (d d' : Dev) : Prop :=
  let l := d'.link
  l.time.downT = d.now ∧ l.up = false ∧ l.align = false ∧ l.hold = true ∧ l.txq = [] ∧ l.unacked = [] ∧ l.answers = [] ∧
  l.rx = d.link.rx.map (fun p => (false, p.2)) ∧ d'.bit Reg.LNK_FLAG F.LNK_FLAG_DOWN = true ∧
  (d.bit Reg.LNK_FLAG F.LNK_FLAG_DOWN = false → 0xEE ∈ d'.irq.raised)

/-- Link states (R329, R335): bit lock gives ALIGN once the hold after DOWN is over; eight commas in a row without an error
give UP, whose first frame is a STATUS with SEQ 0 and RESTART; the fourth error within 256 characters, or commas that stay
away for 4 µs, give DOWN; its steady zero ends 8 µs later. -/
def LinkStatesRule : Prop :=
  ∀ (s : State) (t : Tick) (c : LinkChar),
    let d := s.devAt t
    let l := d.link
    let fl := Reg.LNK_FLAG
    let bad := Dev.badChar c = true
    let ch := Instr.linkCharacter t c
    let x := { l.time with commaT := if c = .control 0xBC then d.now else l.time.commaT }
    let y := Dev.frameChar c x
    let errs := (l.errs ++ [l.chars + 1]).filter (fun k => decide (l.chars + 1 < k + 256))
    let hot := l.up = false ∧ l.align = true
    let open' := d.busRun = true ∧ l.up = false ∧ l.hold = false
    (open' → Does (.linkBitLock t) s (fun d' => d'.link = { l with align := true, commas := 0 } ∧ RegsKept d d' [])) ∧
    (¬open' → Does (.linkBitLock t) s (fun d' => d' = d)) ∧
    (l.up = true → ¬bad → Does ch s (fun d' => d' = { d with link := { l with chars := l.chars + 1, time := y } })) ∧
    (l.up = true → bad → errs.length < 4 → Does ch s (fun d' => d'.bit fl F.LNK_FLAG_CODE_ERR = true ∧
      d'.link = { l with chars := l.chars + 1, errs := errs, time := y } ∧ RegsKept d d' [fl])) ∧
    (l.up = true → bad → 4 ≤ errs.length → Does ch s (fun d' => d'.bit fl F.LNK_FLAG_CODE_ERR = true ∧ LinkDown d d' ∧
      RegsKept d d' [fl])) ∧
    (hot → bad → Does ch s (fun d' => d'.bit fl F.LNK_FLAG_CODE_ERR = true ∧ d'.link = { l with commas := 0, time := x } ∧
      RegsKept d d' [fl])) ∧
    (hot → ¬bad → c ≠ .control 0xBC → Does ch s (fun d' => d' = { d with link := { l with commas := 0, time := x } })) ∧
    (hot → c = .control 0xBC → l.commas < 7 → Does ch s (fun d' =>
      d' = { d with link := { l with commas := l.commas + 1, time := x } })) ∧
    (hot → c = .control 0xBC → 7 ≤ l.commas → Does ch s (fun d' => d'.bit fl F.LNK_FLAG_UP = true ∧
      (d.bit fl F.LNK_FLAG_UP = false → 0xEE ∈ d'.irq.raised) ∧ RegsKept d d' [fl] ∧
      d'.link = { l with
        up := true, align := false, commas := 0, chars := 0, errs := [], txSeq := 0,
        txq := [⟨0, 0x31, [1], none, 0, 0⟩],
        time := { x with statT := d.now, lineT := d.now, frameC := none, skip := 0 } })) ∧
    (l.up = false → l.align = false → Does ch s (fun d' => d' = { d with link := { l with time := x } })) ∧
    (l.up = true → l.time.commaT + 1600 ≤ d.now → Does (.commaTimeout t) s (fun d' => LinkDown d d' ∧ RegsKept d d' [fl])) ∧
    (l.up = false ∨ d.now < l.time.commaT + 1600 → Does (.commaTimeout t) s (fun d' => d' = d)) ∧
    (l.time.downT + 3200 ≤ d.now → Does (.downHoldEnd t) s (fun d' => d' = { d with link := { l with hold := false } })) ∧
    (d.now < l.time.downT + 3200 → Does (.downHoldEnd t) s (fun d' => d' = d))

/-- Received frames (R332, R333, R337): a frame with a code error, or one too long, is discarded; a wrong CRC is answered
with NAK CRC, a wrong layout with NAK FORMAT; RESTART and the expected SEQ are accepted and answered with ACK, the latter
with NAK FULL while eight frames wait; one of the last eight SEQs is answered with the ACK of the last accepted one, any
other with NAK SEQ. A NAK carries the expected SEQ. A frame that has gone 73 characters, inserted answers left out,
without its end is discarded; a heartbeat's acceptance is timed. -/
def LinkFramesRule : Prop :=
  ∀ (s : State) (t : Tick) (f : Frame),
    let d := s.devAt t
    let l := d.link
    let e := l.rxExp
    let fl := Reg.LNK_FLAG
    let cmd := Instr.frameReceived t f
    let good := l.up = true ∧ f.codeError = false ∧ f.payload.length ≤ 64 ∧
      crc32 ([f.type, f.seq, f.lenField, f.flags] ++ f.payload) = f.crc
    let formed := f.lenField.toNat ≤ 64 ∧ f.lenField.toNat = f.payload.length ∧ f.flags &&& 0xFC = 0
    let restart := f.flags.getLsbD 1 = true
    let back := (e - f.seq).toNat
    let x := { l.time with frameC := none, skip := 0 }
    let base := { d with link := { l with time := x } }
    let naks := fun (d' : Dev) (code : Byte) => d'.link = { l with time := x, answers := l.answers ++ [(e, code)] } ∧
      counted d d' F.LNK_CNT_ERRCNT
    let accepts := fun d' : Dev => d'.link.rxExp = f.seq + 1 ∧ d'.link.answers = l.answers ++ [(f.seq, 0)] ∧
      RegsKept d d' [] ∧ d'.link.time = { x with hbAt := x.hbAt ++ (if f.type = 0x30 then [d.now] else []) } ∧
      (Dev.hostType f.type = true → d'.link.rx = l.rx ++ [(true, f)] ∧ d'.link.txq = l.txq) ∧
      (Dev.hostType f.type = false → d'.link.rx = l.rx ∧
        d'.link.txq = l.txq ++ [⟨1, 0x03, [f.seq, f.type, 3, 0], none, 0, 0⟩])
    (l.up = false → Does cmd s (fun d' => d' = base)) ∧
    (∀ n : Nat, l.up = true → l.time.frameC = some n →
      (73 ≤ n → Does (.frameLengthTimeout t) s (fun d' => counted d d' F.LNK_CNT_ERRCNT ∧
        RegsKept d d' [Reg.LNK_CNT] ∧ d'.link = { l with time := { l.time with frameC := none } })) ∧
      (n < 73 → Does (.frameLengthTimeout t) s (fun d' => d' = d))) ∧
    (l.up = false ∨ l.time.frameC = none → Does (.frameLengthTimeout t) s (fun d' => d' = d)) ∧
    (l.up = true → f.codeError = true → Does cmd s (fun d' => d'.bit fl F.LNK_FLAG_CODE_ERR = true ∧
      counted d d' F.LNK_CNT_ERRCNT ∧ RegsKept d d' [fl, Reg.LNK_CNT] ∧ HiddenKept base d')) ∧
    (l.up = true → f.codeError = false → 64 < f.payload.length → Does cmd s (fun d' =>
      counted d d' F.LNK_CNT_ERRCNT ∧ RegsKept d d' [Reg.LNK_CNT] ∧ HiddenKept base d')) ∧
    (l.up = true → f.codeError = false → f.payload.length ≤ 64 → ¬good → Does cmd s (fun d' => naks d' 1 ∧
      d'.bit fl F.LNK_FLAG_CRC_ERR = true ∧ RegsKept d d' [fl, Reg.LNK_CNT])) ∧
    (good → ¬formed → Does cmd s (fun d' => naks d' 3 ∧ d'.bit fl F.LNK_FLAG_FMT_ERR = true ∧
      RegsKept d d' [fl, Reg.LNK_CNT])) ∧
    (good → formed → restart → Does cmd s accepts) ∧
    (good → formed → ¬restart → f.seq = e →
      (l.rx.length < 8 → Does cmd s accepts) ∧
      (8 ≤ l.rx.length → Does cmd s (fun d' => naks d' 4 ∧ RegsKept d d' [Reg.LNK_CNT]))) ∧
    (good → formed → ¬restart → 1 ≤ back → back ≤ 8 → Does cmd s (fun d' =>
      d' = { d with link := { l with time := x, answers := l.answers ++ [(e - 1, 0)] } })) ∧
    (good → formed → ¬restart → 8 < back → Does cmd s (fun d' => naks d' 2 ∧ d'.bit fl F.LNK_FLAG_SEQ_ERR = true ∧
      RegsKept d d' [fl, Reg.LNK_CNT]))

end Sys2Proof.Claims

/-- Link states and received frames. What the model chose in it: log 49, 50. -/
def Obligations.LinkStatesAndFrames : Prop :=
  LinkStatesRule ∧ LinkFramesRule

/-- Answers and retransmission (R334 to R336): an ACK acknowledges its frame and every earlier one; a NAK CRC, SEQ or
FORMAT, or no ACK 2 µs after its K29.7, fails a frame, which is sent again with every later one, and the third failure
takes the link DOWN; a NAK FULL sends again two microseconds later. Sent first are answers, then retransmissions, then
new frames while fewer than eight wait for their ACK: REG_RSP, DMD_RESULT, IRQ_MSG, STATUS, STREAM, each with the next
SEQ. What the model chose in it: log 49, 51. -/
def Obligations.LinkTransmission : Prop :=
  ∀ (s : State) (t : Tick) (isNak : Bool) (seq code crc : Byte) (i : Nat),
    let d := s.devAt t
    let l := d.link
    let fl := Reg.LNK_FLAG
    let n := l.unacked.length
    let cmd := Instr.answerReceived t isNak seq code crc
    let heard := l.up = true ∧ Dev.crc8 [seq, code] = crc
    let place := d.unackedAt seq
    let kept := fun d' : Dev => RegsKept d d' [fl]
    let fails := fun (d' : Dev) (j : Nat) => (∀ x : OutFrame, l.unacked[j]? = some x →
      (x.tries < 2 → d'.link.resend = n - j ∧ d'.link.unacked.length = n ∧
        d'.link.unacked[j]? = some { x with tries := x.tries + 1 }) ∧
      (2 ≤ x.tries → LinkDown d d')) ∧ kept d'
    let ends := fun x : OutFrame => d.now + 8 * (x.payload.length + 10)
    let sends := fun (d' : Dev) (x : OutFrame) =>
      let y : OutFrame := { x with seq := some l.txSeq, endT := ends x }
      d'.link.unacked = l.unacked ++ [y] ∧ d'.link.txSeq = l.txSeq + 1 ∧ d'.link.sent = Dev.outBytes y false ∧
      d'.link.time = { l.time with lineT := ends x + 8 }
    let late := (l.unacked.take (n - l.resend)).findIdx? fun x => decide (x.endT + 800 ≤ d.now)
    let free := l.time.lineT ≤ d.now
    let tx := Instr.frameTransmit t
    (¬heard → Does cmd s (fun d' => d' = d)) ∧
    (heard → isNak = false → code = 0 →
      (place = some i → Does cmd s (fun d' => d' = { d with link := { l with
        unacked := l.unacked.drop (i + 1), resend := min l.resend (n - (i + 1)) } })) ∧
      (place = none → Does cmd s (fun d' => d' = d))) ∧
    (heard → isNak = true → 1 ≤ code.toNat → code.toNat ≤ 3 →
      (place = some i → Does cmd s (fun d' => fails d' i ∧ d'.bit fl F.LNK_FLAG_NAK_RX = true)) ∧
      (place = none → Does cmd s (fun d' => d'.link = l ∧ d'.bit fl F.LNK_FLAG_NAK_RX = true ∧ kept d'))) ∧
    (heard → isNak = true → code = 4 → Does cmd s (fun d' => d'.link = { l with
      nakFull := some seq, time := { l.time with nakT := d.now } } ∧
      d'.bit fl F.LNK_FLAG_NAK_RX = true ∧ kept d')) ∧
    (l.up = true → late = some i → Does (.ackTimeout t) s (fun d' => fails d' i)) ∧
    (l.up = false ∨ late = none → Does (.ackTimeout t) s (fun d' => d' = d)) ∧
    (l.nakFull = some seq → l.time.nakT + 800 ≤ d.now →
      (place = some i → Does (.nakFullResend t) s (fun d' =>
        d' = { d with link := { l with nakFull := none, resend := n - i } })) ∧
      (place = none → Does (.nakFullResend t) s (fun d' => d' = { d with link := { l with nakFull := none } }))) ∧
    (l.nakFull = none ∨ d.now < l.time.nakT + 800 → Does (.nakFullResend t) s (fun d' => d' = d)) ∧
    (l.up = false → Does tx s (fun d' => d' = d)) ∧
    (∀ rest : List (Byte × Byte), l.up = true → l.answers = (seq, code) :: rest → Does tx s (fun d' =>
      d' = { d with link := { l with
        answers := rest, sent := [if code = 0 then 0x5C else 0x7C, seq, code, Dev.crc8 [seq, code]]
        unacked := l.unacked.map fun x => if d.now < x.endT then { x with endT := x.endT + 32 } else x
        time := { l.time with lineT := max l.time.lineT d.now + 32 } } })) ∧
    (l.up = true → l.answers = [] → ¬free → Does tx s (fun d' => d' = d)) ∧
    (∀ x : OutFrame, l.up = true → l.answers = [] → free → l.resend ≠ 0 → l.unacked[n - l.resend]? = some x →
      Does tx s (fun d' => d'.link = { l with
          unacked := l.unacked.set (n - l.resend) { x with endT := ends x }, resend := l.resend - 1
          sent := Dev.outBytes x true, time := { l.time with lineT := ends x + 8 } } ∧
        counted d d' F.LNK_CNT_RETXCNT ∧ d'.bit fl F.LNK_FLAG_RETX = true ∧ RegsKept d d' [fl, Reg.LNK_CNT])) ∧
    (l.up = true → l.answers = [] → l.resend = 0 → 8 ≤ n → Does tx s (fun d' => d' = d)) ∧
    (l.up = true → l.answers = [] → free → l.resend = 0 → n < 8 →
      (∀ x : OutFrame, Dev.firstOf l.txq 2 = some x → x.type ≠ 0x31 → Does tx s (fun d' => sends d' x ∧
        d'.link.txq = l.txq.erase x ∧ RegsKept d d' [])) ∧
      (Dev.firstOf l.txq 2 = none →
        (∀ q : IrqMsg, d.irq.queue.find? d.linkMsg = some q → Does tx s (fun d' => sends d' (Dev.msgFrame q) ∧
          d'.link.txq = l.txq ∧ RegsKept d d' [])) ∧
        (d.irq.queue.find? d.linkMsg = none →
          (∀ x : OutFrame, Dev.firstOf l.txq 4 = some x → x.type = 0x31 → Does tx s (fun d' =>
            sends d' { x with payload := d.statusBytes x.payload } ∧ d'.link.txq = l.txq.erase x ∧ RegsKept d d' [])) ∧
          (∀ b : Nat, b < 4 → Dev.firstOf l.txq 4 = none → d.firstStream = some b → Does tx s (fun d' =>
            sends d' ⟨5, 0x20, (d.streamTake s.ram b).1, none, 0, 0⟩ ∧
            (d'.stream b).unsent = (d.stream b).unsent - min (d.stream b).unsent 60 ∧
            RegsKept d d' [Reg.LNK_STRSTAT b])) ∧
          (Dev.firstOf l.txq 4 = none → d.firstStream = none → Does tx s (fun d' => d' = d)))))

/-! ### Host messages, streams, the heartbeat, the SPI port, the flash (17_link, 18_host_ports) -/

namespace Sys2Proof.Claims

/-- A REG_RSP to a frame queued (R335, R338): SEQ, TYPE, STATUS, COUNT and data, unless its response is discarded or the
link is not UP. -/
def Replied (l l' : Link) (p : Bool × Frame) (status count : Nat) (data : List Byte) : Prop :=
  l'.txq = l.txq ++ (if p.1 = true ∧ l.up = true then
    [⟨1, 0x03, [p.2.seq, p.2.type, BitVec.ofNat 8 status, BitVec.ofNat 8 count] ++ data, none, 0, 0⟩] else []) ∧
  { l' with txq := l.txq } = l

/-- A request executed (R338 to R340), the oldest accepted frame where it has the TYPE and no NVM_PASS waits: it leaves the
buffer; a broken layout is answered FORMAT, a mode that does not allow it DENIED; else `run` is what it does. -/
def Executed (c : Instr) (s : State) (t : Tick) (type : Byte) (layout : List Byte → Prop) (allowed : Dev → Prop)
    (run : Bool × Frame → State → State → Prop) : Prop :=
  let d := s.devAt t
  let l := d.link
  let popped := { d with link := { l with rx := l.rx.drop 1 } }
  (d.nextFrame type = none → Does c s (fun d' => d' = d)) ∧
  (∀ p : Bool × Frame, d.nextFrame type = some p →
    (¬layout p.2.payload → Does c s (fun d' => Replied popped.link d'.link p 3 0 [] ∧ RegsKept d d' [])) ∧
    (layout p.2.payload → ¬allowed popped → Does c s (fun d' => Replied popped.link d'.link p 4 0 [] ∧
      RegsKept d d' [])) ∧
    (layout p.2.payload → allowed popped → ∃ s' : State, exec c s = .next s' ∧ run p { s with dev := popped } s'))

/-- Accesses made: the state after them, answered OK, or ERR after a bus error, with the count. -/
def Accessed (p : Bool × Frame) (r s' : State) (ok : Bool) (count : Nat) (data : List Byte) : Prop :=
  s'.ram = r.ram ∧ s'.pending = r.pending ∧ Replied r.dev.link s'.dev.link p (if ok = true then 0 else 1) count data ∧
  { s'.dev with link := r.dev.link } = r.dev

end Sys2Proof.Claims

/-- Host messages (R25, R338 to R341): REG_RD and REG_WR make their accesses at ascending addresses up to the first
bus error and answer how many were made; DMD_STAGE writes the masked words of a staged slot, CTX_STAGE entries of the
transaction buffer; DMD_COMMIT and CTX_COMMIT make their three writes as one sequence. What the model chose in it: log
50. -/
def Obligations.HostMessages : Prop :=
  ∀ (s : State) (t : Tick),
    let h := fun q : List Byte => if q.getD 0 0 = 1 then Half.b else Half.a
    let free := fun _ : Dev => True
    let opens := fun d : Dev => d.mode = .operate ∨ d.mode = .halt ∨ d.mode = .service
    let words := payloadWords
    let ks := fun q : List Byte => (List.range 6).filter fun k => (q.getD 2 0).getLsbD k
    Executed (.regRd t) s t 0x01
      (fun q => q.length = 8 ∧ (wordAt q 0).toNat % 4 = 0 ∧ 1 ≤ (q.getD 4 0).toNat ∧ (q.getD 4 0).toNat ≤ 15 ∧
        q.drop 5 = [0, 0, 0]) free
      (fun p s₁ s' =>
        let r := readWords .link (wordAt p.2.payload 0).toNat (p.2.payload.getD 4 0).toNat [] s₁
        Accessed p r.1 s' r.2.2 (r.2.1.length / 4) r.2.1) ∧
    Executed (.regWr t) s t 0x02
      (fun q => 8 ≤ q.length ∧ q.length % 4 = 0 ∧ q.length ≤ 64 ∧ (wordAt q 0).toNat % 4 = 0) free
      (fun p s₁ s' =>
        let r := writeWords .link (wordAt p.2.payload 0).toNat (words p.2.payload) s₁
        Accessed p r.1 s' r.2.2 r.2.1 []) ∧
    Executed (.dmdStage t) s t 0x10
      (fun q => q.length % 4 = 0 ∧ 8 ≤ q.length ∧ (q.getD 0 0).toNat ≤ 1 ∧ (q.getD 1 0).toNat ≤ 127 ∧ q.getD 3 0 = 0 ∧
        q.getD 2 0 &&& 0xC0 = 0 ∧ (ks q).length = (q.length - 4) / 4) opens
      (fun p s₁ s' =>
        let q := p.2.payload
        let r := writePairs .link
          (((ks q).zip (words q)).map fun x => (Reg.DMD_ANGLE (h q) (q.getD 1 0).toNat + 4 * x.1, x.2)) 0 s₁
        Accessed p r.1 s' r.2.2 r.2.1 []) ∧
    Executed (.dmdCommitMessage t) s t 0x11
      (fun q => q.length = 12 ∧ (q.getD 0 0).toNat ≤ 1 ∧ q.getD 3 0 &&& 0xCC = 0) opens
      (fun p s₁ s' =>
        let q := p.2.payload
        let r := writePairs .link [(Reg.DMD_WHEN_LO (h q), wordAt q 4), (Reg.DMD_WHEN_HI (h q), wordAt q 8),
          (Reg.DMD_CMT (h q), wordOf (q.getD 3 0) (q.getD 1 0) (q.getD 2 0) 0)] 0 s₁
        Accessed p r.1 s' r.2.2 0 []) ∧
    Executed (.ctxStage t) s t 0x18
      (fun q => 1 ≤ (q.getD 1 0).toNat ∧ (q.getD 1 0).toNat ≤ 7 ∧ (q.getD 0 0).toNat + (q.getD 1 0).toNat ≤ 64 ∧
        q.getD 2 0 = 0 ∧ q.getD 3 0 = 0 ∧ q.length = 4 + 8 * (q.getD 1 0).toNat) opens
      (fun p s₁ s' =>
        let q := p.2.payload
        let r := writeWords .link (Reg.CTX_BUF (2 * (q.getD 0 0).toNat)) (words q) s₁
        Accessed p r.1 s' r.2.2 (r.2.1 / 2) []) ∧
    Executed (.ctxCommitMessage t) s t 0x19 (fun q => q.length = 12) opens
      (fun p s₁ s' =>
        let q := p.2.payload
        let r := writePairs .link [(Reg.CTX_WHEN_LO, wordAt q 4), (Reg.CTX_WHEN_HI, wordAt q 8),
          (Reg.CTX_CTL, wordAt q 0)] 0 s₁
        Accessed p r.1 s' r.2.2 0 [])

/-- Flash pass-through and the periodic STATUS (R338, R342, R354): in SERVICE a write of NVL_PCTL with GO runs one
command, refused with DENIED and a bus error elsewhere or while one runs; it takes 320 ns a byte, shifting out OPCODE,
the address, the dummy and the written bytes; its end puts the bytes read into NVL_PDATA, and answers the NVM_PASS
that waits for it. An NVM_PASS makes the same writes. What the model chose in it: log 50, 52. -/
def Obligations.FlashPassThrough : Prop :=
  ∀ (s : State) (t : Tick) (m : Master) (v : Word) (bytes : List Byte),
    let d := s.devAt t
    let l := d.link
    let ps := Reg.NVL_PSTAT
    let busy := d.bit ps F.NVL_PSTAT_BUSY
    let may := d.mode = .service ∧ busy = false
    let legal := getF v F.NVL_PCTL_ADDRB ≠ 3 ∧ getF v F.NVL_PCTL_NRD ≤ 56 ∧ getF v F.NVL_PCTL_NWR ≤ 56
    let bs := bytes.take (d.f Reg.NVL_PCTL F.NVL_PCTL_NRD)
    let nrd := getF v F.NVL_PCTL_NRD
    let byte := fun k : Nat => BitVec.ofNat 8 (d.f (Reg.NVL_PDATA (k / 4)) ⟨8 * (k % 4) + 7, 8 * (k % 4)⟩)
    let addr := wordBytes (d.rd Reg.NVL_PADDR)
    let out := [BitVec.ofNat 8 (getF v F.NVL_PCTL_OPCODE)] ++
      (match getF v F.NVL_PCTL_ADDRB with | 1 => (addr.take 3).reverse | 2 => addr.reverse | _ => []) ++
      List.replicate (getF v F.NVL_PCTL_DUMMY) 0 ++ (List.range (getF v F.NVL_PCTL_NWR)).map byte
    let done := busy = true ∧ l.time.nvlEnd ≤ d.now
    let pdata := (List.range 14).map Reg.NVL_PDATA
    (d.reach Reg.NVL_PCTL true = true →
      (may → legal → Does (.flashCommand t m v) s (fun d' =>
        d'.bit ps F.NVL_PSTAT_BUSY = getB v F.NVL_PCTL_GO ∧
        (getB v F.NVL_PCTL_GO = true → d'.bit Reg.NVL_STAT F.NVL_STAT_DRIVE = true ∧
          d'.link = { l with time := { l.time with flashOut := out, nvlEnd := d.now + 128 * (out.length + nrd) } }) ∧
        (getB v F.NVL_PCTL_GO = false → d'.link = l) ∧
        d'.f Reg.NVL_PCTL F.NVL_PCTL_OPCODE = getF v F.NVL_PCTL_OPCODE ∧
        d'.f Reg.NVL_PCTL F.NVL_PCTL_NRD = getF v F.NVL_PCTL_NRD ∧
        RegsKept d d' [Reg.NVL_PCTL, ps, Reg.NVL_STAT])) ∧
      (¬may → Does (.flashCommand t m v) s (fun d' => d'.answer = ⟨true, 0⟩ ∧ d'.bit ps F.NVL_PSTAT_DENIED = true ∧
        RegsKept d d' [ps]))) ∧
    (done → bytes.length ≤ 56 → Does (.flashCommandDone t bytes) s (fun d' =>
      d'.bit ps F.NVL_PSTAT_BUSY = false ∧ d'.bit ps F.NVL_PSTAT_DONE = true ∧
      (∀ (i : Nat) (b : Byte), bs[i]? = some b →
        d'.f (Reg.NVL_PDATA (i / 4)) ⟨8 * (i % 4) + 7, 8 * (i % 4)⟩ = b.toNat) ∧
      (l.nvmFor = none → d'.link = l) ∧
      (∀ (w : Bool) (q : Byte), l.nvmFor = some (w, q) → d'.link = { l with
        nvmFor := none,
        txq := l.txq ++ (if w = true ∧ l.up = true then
          [⟨1, 0x03, [q, 0x40, 0, BitVec.ofNat 8 bs.length] ++ bs, none, 0, 0⟩] else []) }) ∧
      RegsKept d d' (ps :: pdata))) ∧
    (¬done → Does (.flashCommandDone t bytes) s (fun d' => d' = d)) ∧
    Executed (.nvmPass t) s t 0x40
      (fun q => 8 ≤ q.length ∧ (q.getD 2 0).toNat ≤ 56 ∧ q.getD 3 0 = 0 ∧ q.getD 1 0 &&& 0x0C = 0 ∧ q.getD 1 0 &&& 0x03 ≠ 3)
      (fun e => e.mode = .service)
      (fun p s₁ s' => s'.ram = s.ram ∧ s'.pending = s.pending ∧
        (busy = true → Replied s₁.dev.link s'.dev.link p 5 0 [] ∧ RegsKept d s'.dev []) ∧
        (busy = false → p.2.payload.length ≤ 64 → s'.dev.bit ps F.NVL_PSTAT_BUSY = true ∧
          s'.dev.rd Reg.NVL_PADDR = wordAt p.2.payload 4 ∧
          s'.dev.f Reg.NVL_PCTL F.NVL_PCTL_OPCODE = (p.2.payload.getD 0 0).toNat ∧
          s'.dev.f Reg.NVL_PCTL F.NVL_PCTL_NRD = (p.2.payload.getD 2 0).toNat ∧
          s'.dev.f Reg.NVL_PCTL F.NVL_PCTL_NWR = p.2.payload.length - 8 ∧
          { s'.dev.link with time := s₁.dev.link.time } = { s₁.dev.link with nvmFor := some (p.1, p.2.seq) })) ∧
    (let per := 400000 * d.f Reg.LNK_CFG F.LNK_CFG_STAT_PER
     let due := per ≠ 0 ∧ l.up = true ∧ l.time.statT + per ≤ d.now
     (due → l.txq.any (fun x => decide (x.type = 0x31)) = false → Does (.statusPeriod t) s (fun d' =>
       d' = { d with link := { l with
         txq := l.txq ++ [⟨4, 0x31, [5], none, 0, 0⟩], time := { l.time with statT := l.time.statT + per } } })) ∧
     (¬due → Does (.statusPeriod t) s (fun d' => d' = d)))

/-- Heartbeat and host loss (R177, R345 to R348): a heartbeat of a selected port is recorded, judged in OPERATE, and
opens the next window with the bounds in force; within the window it is valid, or ends a host loss; outside it, or
when none comes in time, host loss begins with HL, its source and the grace of every enabled half. A grace that has
run out by marks or by time sets the fuel cut where CUT is set. Times count from the acceptance of a heartbeat, and
one of the SYS cycle in which its window ends is in time. A port that is not selected counts none. What the model
chose in it: log 53. -/
def Obligations.Heartbeats : Prop :=
  ∀ (s : State) (t : Tick) (v : Word) (h : Half),
    let d := s.devAt t
    let l := d.link
    let fl := Reg.LNK_FLAG
    let st := Reg.LNK_STAT
    let lost := d.bit st F.LNK_STAT_HL
    let hb := Instr.spiHb t v
    let port := d.spiOn = true ∧ d.hbCounts true = true
    let noted := fun d' : Dev => d'.rd Reg.LNK_HBVAL = v ∧ d'.rd Reg.LNK_HBTIME = Dev.lo32 d.now
    let heard := l.time.hbAt.headD d.now
    let regs := [Reg.LNK_HBVAL, Reg.LNK_HBTIME, st, fl, Reg.SPH_STAT]
    let started := fun (d' : Dev) (at' : Nat) => d'.link.lastHb = some at' ∧ d'.link.hbFirst = none ∧
      d'.link.hbMin = usTk (d.f Reg.LNK_HBCFG F.LNK_HBCFG_HB_MIN) ∧
      d'.link.hbMax = usTk (d.f Reg.LNK_HBCFG F.LNK_HBCFG_HB_MAX)
    let begun := fun (d' : Dev) (at' : Nat) => d'.bit st F.LNK_STAT_HL = true ∧ d'.bit st F.LNK_STAT_HBV = false ∧
      d'.link.lossT = some at' ∧ d'.link.hbValidT = none ∧
      (∀ g : Half, (d'.half g).commit = (d.half g).commit.map fun c => { c with ends := false }) ∧ 0xEF ∈ d'.irq.raised ∧
      d'.link.graceA = (if d.a.enabled = true then some 0 else none) ∧
      d'.link.graceB = (if d.b.enabled = true then some 0 else none)
    let grace := match h with
      | .a => l.graceA
      | .b => l.graceB
    let from' := (l.lastHb.or l.hbFirst).getD 0
    let waits := d.hbCounts false = true ∧ ∃ a ∈ l.time.hbAt, a / 2 ≤ (from' + l.hbMax) / 2
    let due := decide ((l.lastHb.or l.hbFirst) ≠ none ∧ (from' + l.hbMax) / 2 < d.now / 2)
    let late := d.mode = .operate ∧ d.bit Reg.LNK_HLCFG F.LNK_HLCFG_HB_EN = true ∧ lost = false ∧ due = true ∧ ¬waits
    let out := ∃ k x : Nat, grace = some k ∧ l.lossT = some x ∧ (d.f Reg.LNK_HLCFG F.LNK_HLCFG_HL_CYC ≤ k ∨
      x + usTk (1000 * d.f Reg.LNK_HLCFG F.LNK_HLCFG_HL_MS) ≤ d.now)
    let cut := d.bit Reg.LNK_HLCFG F.LNK_HLCFG_CUT = true
    (d.spiOn = true → d.hbCounts true = false → Does hb s (fun d' => RegsKept d d' [Reg.SPH_STAT] ∧
      d'.link.lastHb = l.lastHb ∧ d'.link.lossT = l.lossT)) ∧
    (port → d.mode ≠ .operate → Does hb s (fun d' => noted d' ∧ d'.link.lastHb = l.lastHb ∧ RegsKept d d' regs)) ∧
    (port → d.mode = .operate → Does hb s (fun d' => noted d' ∧ started d' d.now ∧ RegsKept d d' regs)) ∧
    (∀ x : Nat, port → d.mode = .operate → l.lastHb = some x →
      (x + l.hbMin ≤ d.now → d.now / 2 ≤ (x + l.hbMax) / 2 → Does hb s (fun d' => d'.bit st F.LNK_STAT_HL = false ∧
        d'.bit st F.LNK_STAT_HBV = true ∧ (lost = true → d'.bit fl F.LNK_FLAG_HL_END = true ∧ d'.link.lossT = none ∧
          d'.link.graceA = none ∧ d'.link.graceB = none ∧ 0xEF ∈ d'.irq.raised))) ∧
      (lost = false → d.now < x + l.hbMin → Does hb s (fun d' => d'.bit fl F.LNK_FLAG_HB_EARLY = true ∧ begun d' d.now)) ∧
      (lost = false → x + l.hbMin ≤ d.now → (x + l.hbMax) / 2 < d.now / 2 → Does hb s (fun d' =>
        d'.bit fl F.LNK_FLAG_HB_LATE = true ∧ begun d' (x + l.hbMax)))) ∧
    (∀ x : Nat, port → d.mode = .operate → l.lastHb = none → l.hbFirst = some x → lost = false →
      (d.now / 2 ≤ (x + l.hbMax) / 2 → Does hb s (fun d' => d'.bit st F.LNK_STAT_HBV = true)) ∧
      ((x + l.hbMax) / 2 < d.now / 2 → Does hb s (fun d' =>
        d'.bit fl F.LNK_FLAG_HB_LATE = true ∧ begun d' (x + l.hbMax)))) ∧
    (port → d.mode = .operate → l.lastHb = none → lost = true → Does hb s (fun d' => d'.rd st = d.rd st)) ∧
    (∀ p : Bool × Frame, (l.rx.find? fun p => decide (p.2.type = 0x30)) = some p →
      (p.2.payload.length = 4 → d.hbCounts false = true → Does (.heartbeat t) s (fun d' =>
        d'.rd Reg.LNK_HBVAL = wordAt p.2.payload 0 ∧ d'.rd Reg.LNK_HBTIME = Dev.lo32 heard ∧
        d'.link.rx = l.rx.erase p ∧ d'.link.time.hbAt = l.time.hbAt.drop 1 ∧ (d.mode = .operate → started d' heard) ∧
        RegsKept d d' regs)) ∧
      (p.2.payload.length ≠ 4 → Does (.heartbeat t) s (fun d' =>
        Replied { l with rx := l.rx.erase p, time := { l.time with hbAt := l.time.hbAt.drop 1 } } d'.link p 3 0 [] ∧ RegsKept d d' []))) ∧
    ((l.rx.find? fun p => decide (p.2.type = 0x30)) = none → Does (.heartbeat t) s (fun d' => d' = d)) ∧
    (late → Does (.heartbeatLate t) s (fun d' => d'.bit fl F.LNK_FLAG_HB_LATE = true ∧ begun d' (from' + l.hbMax) ∧
      d'.link.lastHb = none ∧ d'.link.hbFirst = none ∧ RegsKept d d' [st, fl])) ∧
    (¬late → Does (.heartbeatLate t) s (fun d' => d' = d)) ∧
    (d.mode = .operate → out → cut → Does (.hostLossGraceEnd t h) s (fun d' => ∃ e : Dev,
      e.bit (Reg.DMD_STAT h) F.DMD_STAT_FUELCUT = true ∧ RegsKept d e [Reg.DMD_STAT h] ∧ d' = e.endInjection h)) ∧
    (d.mode = .operate → out → ¬cut → Does (.hostLossGraceEnd t h) s (fun d' => RegsKept d d' [] ∧
      (match h with | .a => d'.link.graceA | .b => d'.link.graceB) = none)) ∧
    (d.mode ≠ .operate ∨ ¬out → Does (.hostLossGraceEnd t h) s (fun d' => d' = d))

/-- Streams (R343, R344) and the SPI host port (R349 to R351): bytes added to an enabled buffer wait, the oldest
beyond the ring lost with OVR; a flush makes them due once the oldest has waited FLUSH µs. The port counts each frame
of correct length and shifts out the response to the last one: a read or a write of one word by the port, the oldest
message routed to it, nothing; a frame of wrong length, CRC or command, or one that came early, is flagged and not
executed. What the model chose in it: log 52, 54. -/
def Obligations.StreamsAndSpi : Prop :=
  ∀ (s : State) (t : Tick) (b : Fin 4) (n : Nat) (w : BitVec 20) (v : Word) (c : BitVec 4),
    let d := s.devAt t
    let l := d.link
    let x := d.stream b.val
    let st := Reg.LNK_STRSTAT b.val
    let ring := 2 ^ (d.f (Reg.LNK_STRCFG b.val) F.LNK_STRCFG_RSZ + 8)
    let adds := x.adds ++ [(x.added + n, d.now)]
    let wait := d.f (Reg.LNK_STRCFG b.val) F.LNK_STRCFG_FLUSH
    let oldest := ((x.adds.find? fun p => decide (x.added - x.unsent < p.1)).map (·.2)).getD 0
    let on := d.bit (Reg.LNK_STRCFG b.val) F.LNK_STRCFG_EN = true
    let ss := Reg.SPH_STAT
    let begun : Dev := (d.setF ss F.SPH_STAT_FCNT (d.f ss F.SPH_STAT_FCNT + 1)).onLink fun l => { l with spiOut := l.spiResp }
    let fcnt := (d.f ss F.SPH_STAT_FCNT + 1) % 256
    let answers := fun (r d' : Dev) (cmd : BitVec 4) (status : Nat) (data : Word) =>
      d'.link.spiResp = ⟨cmd, status, r.f ss F.SPH_STAT_FCNT, r.faultLow, r.hostLost, r.irq.queue.any r.spiMsg, data⟩ ∧
      { d' with link := { d'.link with spiResp := r.link.spiResp } } = r
    let rejected := fun (d' : Dev) (f : Fld) => d'.bit Reg.SPH_FLAG f = true ∧
      d'.f ss F.SPH_STAT_ERRCNT = (d.f ss F.SPH_STAT_ERRCNT + 1) % 65536 ∧ RegsKept d d' [ss, Reg.SPH_FLAG]
    let first := d.irq.queue.find? d.spiMsg
    (on → x.unsent + n ≤ ring → Does (.streamBytesAdded t b n) s (fun d' =>
      d'.stream b.val = { x with added := x.added + n, unsent := x.unsent + n, adds := adds } ∧ RegsKept d d' [st])) ∧
    (on → ring < x.unsent + n → Does (.streamBytesAdded t b n) s (fun d' =>
      d'.stream b.val = { x with added := x.added + n, unsent := ring, adds := adds } ∧ d'.bit st F.LNK_STRSTAT_OVR = true ∧
      d'.bit Reg.LNK_FLAG F.LNK_FLAG_STR_OVR = true ∧ RegsKept d d' [st, Reg.LNK_FLAG])) ∧
    (¬on → Does (.streamBytesAdded t b n) s (fun d' => d'.link = l ∧ RegsKept d d' [])) ∧
    (x.unsent ≠ 0 → wait ≠ 0 → oldest + 400 * wait ≤ d.now → Does (.streamFlushTimeout t b) s (fun d' =>
      d'.stream b.val = { x with due := true } ∧ RegsKept d d' [st])) ∧
    (x.unsent = 0 ∨ wait = 0 ∨ d.now < oldest + 400 * wait → Does (.streamFlushTimeout t b) s (fun d' => d' = d)) ∧
    (d.spiOn = true →
      begun.f ss F.SPH_STAT_FCNT = fcnt ∧ begun.link.spiOut = l.spiResp ∧ RegsKept d begun [ss] ∧
      Does (.spiNop t) s (fun d' => answers begun d' 0 0 0) ∧
      (let r := busRead .spi (4 * w.toNat) { s with dev := begun }
       DoesMem (.spiRd t w) s (fun d' m' => m' = r.ram ∧
        answers r.dev d' 1 (if r.dev.answer.err = true then 1 else 0) r.dev.answer.data)) ∧
      (let r := busWrite .spi (4 * w.toNat) v { s with dev := begun }
       DoesMem (.spiWr t w v) s (fun d' m' => m' = r.ram ∧
        answers r.dev d' 2 (if r.dev.answer.err = true then 1 else 0) 0)) ∧
      Does (.spiHb t v) s (fun d' => d'.link.spiResp.cmd = 3 ∧ d'.link.spiResp.status = 0 ∧
        d'.link.spiResp.fcnt = fcnt ∧ d'.link.spiOut = l.spiResp) ∧
      (first = none → Does (.spiMsgrd t) s (fun d' => answers begun d' 4 0 0xFFFFFFFF)) ∧
      (∀ q : IrqMsg, first = some q → Does (.spiMsgrd t) s (fun d' => d'.link.spiResp.cmd = 4 ∧
        d'.link.spiResp.data = BitVec.ofNat 32
          (q.seq % 0x10000 * 2 ^ 16 + (q.tgt - 2) % 4 * 2 ^ 10 + q.prio % 4 * 2 ^ 8 + q.src % 256) ∧
        d'.irq.pend = d.irq.pend ∧ RegsKept d d' [ss])) ∧
      Does (.spiFrameReject t .length) s (fun d' => rejected d' F.SPH_FLAG_FRAME ∧ d'.link = l) ∧
      Does (.spiFrameReject t (.crc c)) s (fun d' => rejected d' F.SPH_FLAG_CRC_ERR ∧ d'.link.spiResp.cmd = c ∧
        d'.link.spiResp.status = 2 ∧ d'.link.spiOut = l.spiResp) ∧
      Does (.spiFrameReject t (.command c)) s (fun d' => rejected d' F.SPH_FLAG_FMT_ERR ∧ d'.link.spiResp.cmd = c ∧
        d'.link.spiResp.status = 3 ∧ d'.link.spiOut = l.spiResp) ∧
      Does (.spiFrameReject t .early) s (fun d' => rejected d' F.SPH_FLAG_EARLY ∧ d'.link.spiResp = l.spiResp ∧
        d'.link.spiOut = { l.spiResp with status := 15, data := 0 })) ∧
    (d.spiOn = false → Does (.spiNop t) s (fun d' => d' = d) ∧ Does (.spiRd t w) s (fun d' => d' = d) ∧
      Does (.spiWr t w v) s (fun d' => d' = d) ∧ Does (.spiHb t v) s (fun d' => d' = d) ∧
      Does (.spiMsgrd t) s (fun d' => d' = d) ∧ Does (.spiFrameReject t (.crc c)) s (fun d' => d' = d))

/-! ### Safety (18_safety) -/

namespace Sys2Proof.Claims

/-- A fault recorded (R357, R416): its class bit, the last class and scope, the first one with its time while none is
kept, the time of the last fault, the source of its scope. -/
def Recorded (d e : Dev) (cls : FaultClass) (sc : Scope) : Prop :=
  let k := Dev.classCode cls
  let z : Nat := match sc with
    | .half .a => 0
    | .half .b => 1
    | .device => 2
  let first := Reg.SAF_FIRST
  let src : Nat := match sc with
    | .half .a => 0x50
    | .half .b => 0xB0
    | .device => 0xCE
  e.bit Reg.SAF_FLAG ⟨k, k⟩ = true ∧ e.f Reg.SAF_STAT F.SAF_STAT_LASTC = k ∧ e.f Reg.SAF_STAT F.SAF_STAT_LASTS = z ∧
  (d.bit first F.SAF_FIRST_VALID = false → e.bit first F.SAF_FIRST_VALID = true ∧ e.f first F.SAF_FIRST_CLASS = k ∧
    e.f first F.SAF_FIRST_SCOPE = z ∧ e.rd Reg.SAF_FIRSTTIME = Dev.lo32 d.now) ∧
  (d.bit first F.SAF_FIRST_VALID = true → e.rd first = d.rd first ∧ e.rd Reg.SAF_FIRSTTIME = d.rd Reg.SAF_FIRSTTIME) ∧
  RegsKept d e [Reg.SAF_FLAG, Reg.SAF_STAT, first, Reg.SAF_FIRSTTIME] ∧
  HiddenKept d { e with lastFault := d.lastFault, irq := d.irq } ∧ e.lastFault = some d.now ∧ src ∈ e.irq.raised

/-- A command has the effect of a fault of a class and a scope at its tick. -/
def IsFault (c : Instr) (s : State) (t : Tick) (cls : FaultClass) (sc : Scope) : Prop :=
  exec c s = exec (.faultReaction t cls sc) s

end Sys2Proof.Claims

/-- Fault reactions (R356, R357, R369, R370, R374, R416): from the end of step 3 every fault is recorded; in OPERATE
and HALT its reaction level moves the half of the fault, or both, into SAFE, those that are enabled, operate and are
not there, and level DEVICE begins device-wide SAFE, which classes LANE and SENTINEL always do. Parity, a scrub that
differs and the lane checks raise their classes. What the model chose in it: log 19, 55. -/
def Obligations.FaultReactions : Prop :=
  ∀ (s : State) (t : Tick) (cls : FaultClass) (sc : Scope) (h : Half),
    let d := s.devAt t
    let cmd := Instr.faultReaction t cls sc
    let k := Dev.classCode cls
    let level := if cls = .lane ∨ cls = .sentinel then 3 else getF (d.rd Reg.SAF_REACT) ⟨2 * k + 1, 2 * k⟩
    let meant := sc = .device ∨ sc = .half h ∨ level ≠ 1
    let can := (d.half h).enabled = true ∧ d.hmode h ≠ .safe ∧ d.hmode h ≠ .off
    (d.busRun = false → Does cmd s (fun d' => d' = d)) ∧
    (d.busRun = true → d.operating = false → Does cmd s (fun d' => Recorded d d' cls sc)) ∧
    (d.busRun = true → d.operating = true → Does cmd s (fun d' =>
      (meant ∧ can → d'.hmode h = .safe) ∧ (¬(meant ∧ can) → d'.hmode h = d.hmode h) ∧
      d'.devSafe = (d.devSafe || decide (level = 3)) ∧ d'.mode = d.mode ∧
      ∃ e : Dev, Recorded d e cls sc ∧ (cls ≠ .lane → d' = e.react cls sc) ∧
        (cls = .lane → d' = { e.react cls sc with hbRun := false, laneFault := true }.hbRestart))) ∧
    IsFault (.parityError t sc) s t .parity sc ∧
    IsFault (.scrubPass t true) s t .ecc .device ∧
    Does (.scrubPass t false) s (fun d' => d' = d) ∧
    (d.tests.getLsbD 1 = false → IsFault (.returnHeartbeatTimeout t) s t .lane .device) ∧
    (d.tests.getLsbD 1 = true → Does (.returnHeartbeatTimeout t) s (fun d' => d' = d)) ∧
    IsFault (.laneWordError t) s t .lane .device ∧
    IsFault (.laneHandshakeTimeout t) s t .lane .device

namespace Sys2Proof.Claims

/-- The clocks that R371 finds out of tolerance (R371, R411), as SAF_MON.CLK shows them, PLL-M, PLL-G, RC, XIN from bit 0:
PLL-M against XIN 0.5 % and against RC 4 % where it runs on XIN, PLL-M against PLL-G 6 %, or 9 % where it runs on RC,
PLL-G against RC 9 %; without a valid trim page 20 %, 25 % or 40 %, 40 %. Both of a pair show (the model's, log 60). -/
def clocksWrong (rc bad : Bool) (w : Clocks) : Nat :=
  let off := fun (used : Bool) (ok wide : Nat) (x y : Int) => used && decide ((if bad then wide else ok) < (x - y).natAbs)
  let mx := off (!rc) 5000 5000 w.pllM w.xin
  let mr := off (!rc) 40000 200000 w.pllM w.rc
  let mg := off true (if rc then 90000 else 60000) (if rc then 400000 else 250000) w.pllM w.pllG
  let gr := off true 90000 400000 w.pllG w.rc
  (if mx || mr || mg then 1 else 0) + (if mg || gr then 2 else 0) + (if mr || gr then 4 else 0) + (if mx then 8 else 0)

end Sys2Proof.Claims

/-- Monitors (R369 to R372, R375, R376): a corrected read error is counted, an uncorrectable one recorded, class ECC
and a bus error; the clock, supply and temperature monitors show what is out of bounds and raise CLOCK, VOLTAGE and
TEMP; a stop of PLL-M forces FAULT_N and the PWM outputs and stops what it clocks; the sentinel ramps every IGN output
down, stops both boost converters, latches and is reported, but for its built-in test, which only latches it; its
oscillator against the DRIVE clock raises CLOCK. What the model chose in it: log 60. -/
def Obligations.Monitors : Prop :=
  ∀ (s : State) (t : Tick) (a : Word) (w : Clocks) (tree : Option Half) (vout : BitVec 6) (logic power : Int)
    (h : Half) (n : Nat),
    let d := s.devAt t
    let mon := Reg.SAF_MON
    let ecc := Reg.SAF_ECC
    let lim : Int := d.f Reg.SAF_CFG F.SAF_CFG_TLIM
    let hot := (if lim < logic then 1 else 0) + (if lim < power then 2 else 0)
    let shows := fun (e : Dev) (x : Fld) (v : Nat) => e.f mon x = v ∧ BitsKept (d.rd mon) (e.rd mon) [x] ∧
      RegsKept d e [mon] ∧ HiddenKept d e
    let none' := fun c : Instr => Does c s (fun d' => d' = d)
    let boot := Reg.SYS_BOOTSTAT
    let out := clocksWrong (d.bit boot F.SYS_BOOTSTAT_RC_CLK) (d.bit boot F.SYS_BOOTSTAT_TRIM_BAD) w
    let wrong := out ≠ 0 ∨ w.sentinel = true
    let test := d.tests.getLsbD 1 = true
    let resting := d.mode = .boot ∧ d.busRun = false
    (d.busRun = true →
      Does (.eccReadError t a false) s (fun d' => d'.f ecc F.SAF_ECC_CE = (d.f ecc F.SAF_ECC_CE + 1) % 65536 ∧
        RegsKept d d' [ecc] ∧ HiddenKept d d') ∧
      Does (.eccReadError t a true) s (fun d' => d'.answer = ⟨true, 0⟩ ∧ ∃ e : Dev,
        e.f ecc F.SAF_ECC_UE = (d.f ecc F.SAF_ECC_UE + 1) % 65536 ∧ e.rd Reg.SAF_ECCADDR = a ∧
        RegsKept d e [ecc, Reg.SAF_ECCADDR] ∧ HiddenKept d e ∧ d' = (e.fault .ecc (Dev.memScope a.toNat)).busErr) ∧
      Does (.clockMonitorWindow t w tree) s (fun d' => ∃ e : Dev, shows e F.SAF_MON_CLK out ∧
        (¬wrong → tree = none → d' = e) ∧ (wrong → tree = none → d' = e.fault .clock .device) ∧
        (∀ k : Half, ¬wrong → tree = some k → d' = e.fault .clock (.half k)) ∧
        (∀ k : Half, wrong → tree = some k → d' = (e.fault .clock .device).fault .clock (.half k))) ∧
      Does (.supplyWindowFault t vout) s (fun d' => ∃ e : Dev, shows e F.SAF_MON_VWIN vout.toNat ∧
        (vout = 0 → d' = e) ∧ (vout ≠ 0 → d' = e.fault .voltage .device)) ∧
      Does (.temperatureSample t logic power) s (fun d' => ∃ e : Dev, shows e F.SAF_MON_TOVER hot ∧
        (hot = 0 → d' = e) ∧ (hot ≠ 0 → d' = e.fault .temp .device)) ∧
      Does (.pllMStop t) s (fun d' => d' = { d.fault .clock .device with
        pllStop := true, pwmForce := true, hbRun := false, timeRun := false, busRun := false } ∧ d'.faultLow = true)) ∧
    (d.busRun = false → none' (.eccReadError t a true) ∧ none' (.clockMonitorWindow t w tree) ∧
      none' (.supplyWindowFault t vout) ∧ none' (.temperatureSample t logic power) ∧ none' (.pllMStop t)) ∧
    (¬resting → test → Does (.sentinelTimeout t) s (fun d' => d' = { d with sentinel := true })) ∧
    (¬resting → ¬test → d.mode ≠ .unpowered → d.mode ≠ .standby → Does (.sentinelTimeout t) s (fun d' => ∃ e : Dev,
      e.sentinel = true ∧ e.hbSince = d.now ∧ (e.half h).boost.gate = false ∧
      (n < 12 → (e.ign h n).softoff = ((d.ign h n).softoff || (d.ign h n).high ||
        (d.ign h n).sparkT.any fun x => decide (x / 4 = d.now / 4))) ∧
      (n < 12 → (d.ign h n).high = true → (d.ign h n).softoff = false → (e.ign h n).dwellT = none ∧ (e.ign h n).left = 0) ∧
      (d.busRun = true → d' = e.fault .sentinel .device) ∧ (d.busRun = false → d' = e))) ∧
    (resting → Does (.sentinelTimeout t) s (fun d' =>
      d' = { d with driven := d.driven.map (fun x => (x.1, x.2.1, true)) })) ∧
    (¬resting → ¬test → d.mode = .unpowered ∨ d.mode = .standby → none' (.sentinelTimeout t))

namespace Sys2Proof.Claims

/-- SAFE_REQ_N, the end of device-wide SAFE, the built-in tests (R360, R362, R376): a qualified low moves both operating
halves into SAFE and begins device-wide SAFE, elsewhere it only shows; device-wide SAFE ends once every condition holds,
and not before; a recovery write is kept only during it; the tests run for the key in IDLE, and their end reports them. -/
def RecoveryAndTestsRule : Prop :=
  ∀ (s : State) (t : Tick) (m : Master) (v : Word) (pass : BitVec 5) (h : Half),
    let d := s.devAt t
    let st := Reg.SAF_TESTSTAT
    let may := d.devSafe = true ∧ d.endingsDone .a = true ∧ d.endingsDone .b = true ∧ d.safeReq = false ∧
      (∀ x : Nat, d.lastFault = some x → x + usTk (1000 * d.f Reg.SAF_CFG F.SAF_CFG_HOLD) ≤ d.now) ∧ d.hbRun = true ∧
      d.hbSince + usTk 100 ≤ d.now ∧ (d.bit Reg.SAF_CFG F.SAF_CFG_AUTO = true ∨ d.recover = true)
    let idle := d.devSafe = false ∧ ∀ g : Half, (d.half g).enabled = true → d.hmode g = .idle
    let key := getF v F.SAF_TEST_KEY = 0x7E57
    (d.busRun = true → d.operating = true → Does (.safeReqQualified t) s (fun d' => d'.safeReq = true ∧
      d'.devSafe = true ∧ d'.mode = d.mode ∧ d'.hmode h = (if d.hmode h = .off then .off else .safe))) ∧
    (d.busRun = true → d.operating = false → Does (.safeReqQualified t) s (fun d' =>
      d' = { d with safeReq := true })) ∧
    (d.busRun = false → Does (.safeReqQualified t) s (fun d' => d' = d)) ∧
    Does (.safeReqRelease t) s (fun d' => d' = { d with safeReq := false }) ∧
    (may → Does (.deviceSafeEnd t) s (fun d' => d'.devSafe = false ∧ d'.recover = false ∧ d'.sentinel = false ∧
      0xCE ∈ d'.irq.raised ∧ RegsKept d d' [] ∧
      HiddenKept d { d' with devSafe := d.devSafe, recover := d.recover, sentinel := d.sentinel, irq := d.irq })) ∧
    (¬may → Does (.deviceSafeEnd t) s (fun d' => d' = d)) ∧
    (d.reach Reg.SAF_RECOVER true = true →
      (v = 0x5246 → d.devSafe = true → Does (.safRecoverWrite t m v) s (fun d' =>
        d' = { d with recover := true, answer := ⟨false, 0⟩ })) ∧
      (v ≠ 0x5246 ∨ d.devSafe = false → Does (.safRecoverWrite t m v) s (fun d' =>
        d' = { d with answer := ⟨false, 0⟩ }))) ∧
    (d.reach Reg.SAF_TEST true = true →
      (key → idle → Does (.safTest t m v) s (fun d' => d'.bit st F.SAF_TESTSTAT_BUSY = true ∧
        d'.tests = d.tests ||| BitVec.ofNat 5 (getF v F.SAF_TEST_SEL) ∧ RegsKept d d' [st])) ∧
      (¬(key ∧ idle) → Does (.safTest t m v) s (fun d' => d'.bit st F.SAF_TESTSTAT_TEST_DENIED = true ∧
        d'.tests = d.tests ∧ RegsKept d d' [st]))) ∧
    (d.bit st F.SAF_TESTSTAT_BUSY = true → Does (.safTestDone t pass) s (fun d' =>
      d'.bit st F.SAF_TESTSTAT_BUSY = false ∧ d'.tests = 0 ∧ 0xCE ∈ d'.irq.raised ∧ RegsKept d d' [st] ∧
      d'.sentinel = (d.sentinel && (d.devSafe || !d.tests.getLsbD 1)) ∧
      (∀ i : Nat, i < 5 → d.tests.getLsbD i = true →
        (BitVec.ofNat 5 (d'.f st F.SAF_TESTSTAT_DONE)).getLsbD i = true ∧
        (BitVec.ofNat 5 (d'.f st F.SAF_TESTSTAT_PASS)).getLsbD i = pass.getLsbD i))) ∧
    (d.bit st F.SAF_TESTSTAT_BUSY = false → Does (.safTestDone t pass) s (fun d' => d' = d))

/-- The cross-link (R186, R373): while it is used, a half that loses it shows LOST, raises its source and ends the cross-half
commits; Half B with GRACE 0 enters SAFE at once with GRACE_OUT; a return shows UP again. -/
def CrossLinkRule : Prop :=
  ∀ (s : State) (t : Tick) (h : Half),
    let d := s.devAt t
    let st := Reg.XLK_STAT h
    let fl := Reg.XLK_FLAG h
    let used := d.operating = true ∧ d.a.enabled = true ∧ d.b.enabled = true
    let up := d.xlkUp h = true
    let src : Nat := match h with
      | .a => 0x51
      | .b => 0xB1
    let lost := fun e : Dev => e.bit st F.XLK_STAT_UP = false ∧ e.bit st F.XLK_STAT_LOST = true ∧
      e.f st F.XLK_STAT_MARKS = 0 ∧ e.bit fl F.XLK_FLAG_LOST = true ∧ e.xlkUp h = false ∧
      (d.bit fl F.XLK_FLAG_LOST = false → src ∈ e.irq.raised) ∧ RegsKept d e [st, fl]
    (used → up → h = .a ∨ d.f (Reg.XLK_CFG .b) F.XLK_CFG_GRACE ≠ 0 → Does (.crossLinkLoss t h) s (fun d' =>
      ∃ e : Dev, lost e ∧ d' = e.xlkCommits)) ∧
    (used → up → h = .b → d.f (Reg.XLK_CFG .b) F.XLK_CFG_GRACE = 0 → Does (.crossLinkLoss t h) s (fun d' =>
      (d.hmode .b ≠ .off → d'.hmode .b = .safe) ∧ ∃ e f : Dev, lost e ∧
        f.bit (Reg.XLK_STAT .b) F.XLK_STAT_GRACE_OUT = true ∧ RegsKept e.xlkCommits f [Reg.XLK_STAT .b] ∧
        d' = f.enterSafe .b Dev.rFAULT false)) ∧
    (used → ¬up → Does (.crossLinkReturn t h) s (fun d' => d'.bit st F.XLK_STAT_UP = true ∧
      d'.bit st F.XLK_STAT_LOST = false ∧ d'.bit st F.XLK_STAT_GRACE_OUT = false ∧
      d'.bit fl F.XLK_FLAG_RET = true ∧ d'.xlkUp h = true ∧ (d.bit fl F.XLK_FLAG_RET = false → src ∈ d'.irq.raised) ∧
      RegsKept d d' [st, fl])) ∧
    (¬used ∨ ¬up → Does (.crossLinkLoss t h) s (fun d' => d' = d)) ∧
    (¬used ∨ up → Does (.crossLinkReturn t h) s (fun d' => d' = d))

end Sys2Proof.Claims

/-- SAFE_REQ_N, recovery, built-in tests and the cross-link. What the model chose in it: log 55, 61, 62. -/
def Obligations.RecoveryTestsAndCrossLink : Prop :=
  RecoveryAndTestsRule ∧ CrossLinkRule

/-! ### Registers, addresses, checks (00_conventions, 19_address_map) -/

namespace Sys2Proof.Claims

/-- A write of a word at an address that is no command of its own (R7, R25, R383): an address that is not word-aligned,
unmapped, or not opened, and a register of TX fields alone, answer with a bus error; else the RW bits take the value,
the W1C flags written 1 are cleared, but for those that hardware set in this very cycle, every other bit stays, and so
does every other register. The counts of DRV_STAT go with their flags, but for what hardware added in this cycle. The TX
fields beside others are left alone (the model's choice, log 68). A word of stream RAM is written to RAM. -/
def RegisterWritesRule : Prop :=
  ∀ (s : State) (t : Tick) (m : Master) (addr v : Word) (r : RegRow) (h : Half) (i : Nat),
    let d := s.devAt t
    let a := addr.toNat
    let w := Instr.registerWrite t m addr v
    let plain := cmdAt d.timeBase m a v { s with dev := d } = none
    let err := fun d' : Dev => d' = { d with answer := ⟨true, 0⟩ }
    let txOnly := r.tx ≠ 0 ∧ r.rw ||| r.w1c ||| r.w1s ||| r.wo = 0
    let drv := Reg.DRV_STAT h
    (a % 4 ≠ 0 → Does w s err) ∧
    (regAt a = none → ¬(0x310000 ≤ a ∧ a < 0x311800) → ¬(0x340000 ≤ a ∧ a < 0x360000) → Does w s err) ∧
    (plain → d.reach a true = false → Does w s err) ∧
    (plain → a % 4 = 0 → regAt a = some (some r) → d.reach a true = true →
      (txOnly → Does w s err) ∧
      (¬txOnly → Does w s (fun d' => d'.answer = ⟨false, 0⟩ ∧ RegsKept d d' [a] ∧
        HiddenKept d { d' with answer := d.answer } ∧
        (a ≠ Reg.DRV_STAT .a → a ≠ Reg.DRV_STAT .b → (∀ (k : Half) (n : Nat), n < 8 → a ≠ Reg.ASC_STAT k n) → i < 32 → (d'.rd a).getLsbD i =
          if (BitVec.ofNat 32 r.rw).getLsbD i = true then v.getLsbD i
          else if (BitVec.ofNat 32 r.w1c).getLsbD i = true ∧ v.getLsbD i = true then (d.hwSet a).getLsbD i
          else (d.rd a).getLsbD i) ∧
        (a = drv → getB v F.DRV_STAT_LOWBOOST = true → d'.bit drv F.DRV_STAT_LOWBOOST = getB (d.hwSet drv) F.DRV_STAT_LOWBOOST ∧
          d'.f drv F.DRV_STAT_LOWB_CNT = d.f drv F.DRV_STAT_LOWB_CNT - getF (d.oldRd drv) F.DRV_STAT_LOWB_CNT) ∧
        (a = drv → getB v F.DRV_STAT_OVLP_DROP = true → d'.bit drv F.DRV_STAT_OVLP_DROP = getB (d.hwSet drv) F.DRV_STAT_OVLP_DROP ∧
          d'.f drv F.DRV_STAT_OVLP_CNT = d.f drv F.DRV_STAT_OVLP_CNT - getF (d.oldRd drv) F.DRV_STAT_OVLP_CNT) ∧
        (∀ n : Nat, n < 8 → a = Reg.ASC_STAT h n → getB v F.ASC_STAT_SKIP = true →
          d'.bit a F.ASC_STAT_SKIP = getB (d.hwSet a) F.ASC_STAT_SKIP ∧
          d'.f a F.ASC_STAT_SKIPS = d.f a F.ASC_STAT_SKIPS - getF (d.oldRd a) F.ASC_STAT_SKIPS)))) ∧
    (a % 4 = 0 → 0x340000 ≤ a → a < 0x360000 → d.reach a true = true → DoesMem w s (fun d' m' =>
      d' = { d with answer := ⟨false, 0⟩ } ∧ m' = Memory.setWord s.ram a v))

/-- A write of an address that a command of its own names is that command (R7). -/
def RegisterWriteIsItsCommandRule : Prop :=
  ∀ (s : State) (t : Tick) (m : Master) (v : Word) (h : Half) (k : Fin 8) (c : Fin 32) (g : Fin 16) (n : Fin 128)
    (w : Fin 8) (e : Fin 8) (i : Fin 64) (j : Fin 768),
    let wr := fun a : Nat => exec (.registerWrite t m (BitVec.ofNat 32 a) v) s
    wr Reg.SYS_SWRST = exec (.softwareReset t m v) s ∧ wr (Reg.CTX_BUF n.val) = exec (.ctxBufWrite t m n v) s ∧
    wr (Reg.IRQ_PEND_SET k.val) = exec (.irqPendSet t m k v) s ∧ wr (Reg.EVC_ARM h g.val) = exec (.channelArm t m h g v) s ∧
    wr (Reg.DMD_ANGLE h n.val + 4 * w.val) = exec (.stagedSlotWrite t m h n w v) s ∧
    wr (Reg.DRV_BANKCLR h) = exec (.bankClear t m h v) s ∧ wr (Reg.PWM_FALL c.val) = exec (.pwmFallWrite t m c v) s ∧
    wr (Reg.COLT_TXFIFO e.val) = exec (.coltTxPush t m e v) s ∧
    wr (Reg.COLT_TAB_HI e.val i.val) = exec (.coltTableCommit t m e i v) s ∧
    wr (Reg.MULE_CFG g.val) = exec (.muleEnableWrite t m g v) s ∧ wr Reg.SAF_RECOVER = exec (.safRecoverWrite t m v) s ∧
    wr (learnBase h + 4 * j.val) = exec (.learnedTableWrite t m h j v) s

end Sys2Proof.Claims

/-- A register write writes its fields, or is the command of its address. What the model chose in it: log 63, 68. -/
def Obligations.RegisterWriteRules : Prop :=
  RegisterWritesRule ∧ RegisterWriteIsItsCommandRule

/-- A reserved word within the window of a register block reads 0 and ignores writes, without a bus error, and a read of
several words or a Mule burst runs across it (R381). -/
def Obligations.ReservedWords : Prop :=
  ∀ (s : State) (t : Tick) (m : Master) (addr v : Word),
    let d := s.devAt t
    let a := addr.toNat
    let okay : Dev := { d with answer := ⟨false, 0⟩ }
    a % 4 = 0 → regAt a = some none →
    (d.reach a true = true → Does (.registerWrite t m addr v) s (fun d' => d' = okay)) ∧
    (d.reach a false = true → busRead m a { s with dev := d } = { s with dev := okay } ∧
      ∀ (n : Nat) (l : List Byte), readWords m a (n + 1) l { s with dev := d } =
        readWords m (a + 4) n (l ++ [0, 0, 0, 0]) { s with dev := okay }) ∧
    (∀ c : Fin 16, d.isReg a = true →
      let x := d.muleC c.val
      let ctl := d.rd (Reg.MULE_ACTL c.val)
      (d.reach a false = true → Dev.sideAt (Dev.srcSide ctl) (d.rd (Reg.MULE_ASADDR c.val)).toNat x.buf.length = a →
        muleReadStep c { s with dev := d } = { s with dev := okay.burstTake c.val [0, 0, 0, 0] }) ∧
      (d.reach a true = true → Dev.sideAt (Dev.dstSide ctl) (d.rd (Reg.MULE_ADADDR c.val)).toNat x.done = a →
        muleWriteStep c { s with dev := d } = { s with dev := okay.burstPut c.val 4 }))

/-- On a TZN-5110 the Half B window, tooth log B and the Half B learned tables answer every access with a bus error, as
unmapped addresses do; every other address is opened and mapped as on a TZN-5120 (R385). -/
def Obligations.SmallGradeRanges : Prop :=
  ∀ (s : State) (t : Tick) (m : Master) (addr v : Word) (w : Bool),
    let d := s.devAt t
    let a := addr.toNat
    let full : Dev := { d with grade := .tzn5120 }
    let absent := 0xC0000 ≤ a ∧ a < 0x100000 ∨ 0x308000 ≤ a ∧ a < 0x310000 ∨ 0x310C00 ≤ a ∧ a < 0x311800
    d.grade = .tzn5110 →
    (absent → Does (.registerWrite t m addr v) s (fun d' => d' = { d with answer := ⟨true, 0⟩ }) ∧
      busRead m a { s with dev := d } = { s with dev := { d with answer := ⟨true, 0⟩ } } ∧ d.regionAt a = none) ∧
    (¬absent → d.reach a w = full.reach a w ∧ d.regionAt a = full.regionAt a)

/-- The swap of a set (R310): within each unit the bytes of a buffer change places, bytes within halfwords, halfwords within
words, or bytes within words; the byte at place i comes from place i xor the code. The unit of a set is 1, 2, 4 or 4
bytes. A burst that reads all its bytes at once holds them swapped. -/
def Obligations.MuleSwap : Prop :=
  ∀ (s : State) (t : Tick) (c : Fin 16) (mode i : Nat) (l : List Byte) (ctl : Word),
    let d := s.devAt t
    let x := d.muleC c.val
    let act := d.rd (Reg.MULE_ACTL c.val)
    let src := (d.rd (Reg.MULE_ASADDR c.val)).toNat
    let len := (d.rd (Reg.MULE_ALEN c.val)).toNat
    let size := min (8 * (getF act F.MULE_SCTL_BEATS + 1)) len
    let unit := fun k : Nat => if k = 0 then 1 else if k = 1 then 2 else 4
    (mode < 4 → l.length % unit mode = 0 → (Dev.swapBytes mode l).length = l.length ∧
      (i < l.length → (Dev.swapBytes mode l)[i]? = l[i ^^^ mode]?)) ∧
    Dev.swapUnit ctl = unit (getF ctl F.MULE_SCTL_SWAP) ∧
    (d.muleTurn c.val = true → x.inBurst = false → 0 < len → d.isReg src = false → size ≤ 8 - src % 8 →
      Does (.muleBurst t c 1) s (fun d' => (d'.muleC c.val).buf =
        Dev.swapBytes (getF act F.MULE_SCTL_SWAP) (Dev.seenBytes (d, s.ram) src size)))

namespace Sys2Proof.Claims

/-- The check values of "123456789": CRC-32 (R55), CRC-16 (R70), CRC-8 (R331); and the ACK of SEQ 5 (R332). -/
def PublishedChecksRule : Prop :=
  let l : List Byte := [0x31, 0x32, 0x33, 0x34, 0x35, 0x36, 0x37, 0x38, 0x39]
  crc32 l = 0xCBF43926 ∧ crc16 l = 0x29B1 ∧ Dev.crc8 l = 0xF4 ∧
  ∀ (s : State) (t : Tick) (rest : List (Byte × Byte)), (s.devAt t).link.up = true →
    (s.devAt t).link.answers = (5, 0) :: rest →
    Does (.frameTransmit t) s (fun d' => d'.link.sent = [0x5C, 0x05, 0x00, 0x41])

/-- After reset (R2, R31, R39, R40, R51): nothing waits, RAM lists nothing, the device is in BOOT with both halves off, the
bus and the time base stand, no pending source, no accepted frame; registers read their reset words. The grade is the
model's choice (log 3). -/
def ResetLeavesRule : Prop :=
  let d := State.reset.dev
  State.reset.pending = [] ∧ State.reset.ram = [] ∧ State.reset.ramOk ∧ d.mode = .boot ∧ d.busRun = false ∧
  d.timeRun = false ∧ d.timeBase = 0 ∧ (∀ h : Half, d.hmode h = .off) ∧ d.devSafe = false ∧ d.irq.pend = 0 ∧
  d.lastFault = none ∧
  d.irq.en = 0 ∧ d.link.up = false ∧ d.link.rx = [] ∧ d.sends = [] ∧ (∀ a : Nat, d.rd a = regReset a) ∧
  d.idView = 0x5120214C ∧ d.rd Reg.SYS_BOOTSTAT = 0 ∧ (∀ h : Half, d.rd (Reg.DMD_STAT h) = 0) ∧
  (∀ h : Half, d.f (Reg.GDR_CFG h) F.GDR_CFG_PWIN = 48 ∧ d.f (Reg.GDR_CFG h) F.GDR_CFG_SPDK = 128)

end Sys2Proof.Claims

/-- Published check values, and the machine after reset (grade and open reset values: log 3, 5 and 8). What the model
chose in it: log 3, 5, 8, 64. -/
def Obligations.ChecksAndReset : Prop :=
  PublishedChecksRule ∧ ResetLeavesRule
end

