-- ==== Sys2Proof/Laws/Fields.lean ====
section
/-! SUPPORT. Fields of words: what each bit and each field holds after a field is replaced. -/

namespace Sys2Proof.Machine

open Sys2Proof

/-- Bit `i` after a field was replaced. -/
theorem getLsbD_putF (v : Word) (f : Fld) (n i : Nat) (hi : i < 32) :
    (putF v f n).getLsbD i = if f.lo ≤ i ∧ i ≤ f.hi then n.testBit (i - f.lo) else v.getLsbD i := by
  simp only [putF, ← Nat.shiftLeft_eq, BitVec.getLsbD_or, BitVec.getLsbD_and, BitVec.getLsbD_not,
    BitVec.getLsbD_ofNat, hi, Nat.testBit_shiftLeft, Nat.testBit_two_pow_sub_one, Nat.testBit_mod_two_pow,
    decide_true, Bool.true_and]
  by_cases h1 : f.lo ≤ i
  · by_cases h2 : i ≤ f.hi
    · have h3 : i - f.lo < f.hi + 1 - f.lo := by omega
      simp [h1, h2, h3]
    · have h3 : ¬ i - f.lo < f.hi + 1 - f.lo := by omega
      simp [h2, h3]
  · simp [h1]

/-- Bit `i` of a field's value. -/
theorem testBit_getF (v : Word) (f : Fld) (i : Nat) :
    (getF v f).testBit i = (decide (i < f.hi + 1 - f.lo) && v.getLsbD (f.lo + i)) := by
  simp [getF, Nat.testBit_mod_two_pow, Nat.testBit_div_two_pow, BitVec.getLsbD, Nat.add_comm]

/-- A field reads what was put there, modulo its range. -/
theorem getF_putF_same (v : Word) (f : Fld) (n : Nat) (h : f.hi < 32) :
    getF (putF v f n) f = n % 2 ^ (f.hi + 1 - f.lo) := by
  refine Nat.eq_of_testBit_eq fun i => ?_
  rw [testBit_getF, Nat.testBit_mod_two_pow]
  by_cases hi : i < f.hi + 1 - f.lo
  · rw [getLsbD_putF _ _ _ _ (by omega), if_pos (by omega)]
    simp
  · simp [hi]

/-- A field apart from the replaced one reads as before. -/
theorem getF_putF_apart (v : Word) (f g : Fld) (n : Nat) (h : g.hi < 32) (hd : g.hi < f.lo ∨ f.hi < g.lo) :
    getF (putF v f n) g = getF v g := by
  refine Nat.eq_of_testBit_eq fun i => ?_
  rw [testBit_getF, testBit_getF]
  by_cases hi : i < g.hi + 1 - g.lo
  · rw [getLsbD_putF _ _ _ _ (by omega), if_neg (by omega)]
  · simp [hi]

/-- A one-bit field reads the bit put there. -/
theorem getB_putB_same (v : Word) (f : Fld) (b : Bool) (h : f.lo ≤ f.hi) (h2 : f.lo < 32) :
    getB (putB v f b) f = b := by
  rw [getB, putB, getLsbD_putF _ _ _ _ h2, if_pos ⟨Nat.le_refl _, h⟩]
  cases b <;> simp

/-- A one-bit field outside the replaced one reads as before. -/
theorem getB_putF_apart (v : Word) (f g : Fld) (n : Nat) (h : g.lo < 32) (hd : g.lo < f.lo ∨ f.hi < g.lo) :
    getB (putF v f n) g = getB v g := by
  rw [getB, getLsbD_putF _ _ _ _ h, if_neg (by omega), getB]

end Sys2Proof.Machine
end

