-- ==== Sys2Proof/Laws/Table.lean ====
section
/-! SUPPORT. The sparse tables: what a read gives after a write, and that writes keep the canonical form. -/

namespace Sys2Proof.Machine

variable {α : Type}

theorem sparseFind_insert_same (m : List (Nat × α)) (k : Nat) (v : α) :
    sparseFind (sparseInsert m k v) k = some v := by
  induction m with
  | nil => simp [sparseInsert, sparseFind]
  | cons c m ih =>
    obtain ⟨k', v'⟩ := c
    simp only [sparseInsert]
    split
    · simp [sparseFind]
    · split
      · simp [sparseFind]
      · next h => simp [sparseFind, h, ih]

theorem sparseFind_insert_other (m : List (Nat × α)) {k a : Nat} (v : α) (h : a ≠ k) :
    sparseFind (sparseInsert m k v) a = sparseFind m a := by
  induction m with
  | nil => simp [sparseInsert, sparseFind, h]
  | cons c m ih =>
    obtain ⟨k', v'⟩ := c
    simp only [sparseInsert]
    split
    · simp [sparseFind, h]
    · split
      · next hk => subst hk; simp [sparseFind, h]
      · simp [sparseFind, ih]

theorem sparseFind_erase_same (m : List (Nat × α)) (k : Nat) :
    sparseFind (sparseErase m k) k = none := by
  induction m with
  | nil => simp [sparseErase, sparseFind]
  | cons c m ih =>
    obtain ⟨k', v'⟩ := c
    simp only [sparseErase]
    split
    · exact ih
    · next h => simp [sparseFind, h, ih]

theorem sparseFind_erase_other (m : List (Nat × α)) {k a : Nat} (h : a ≠ k) :
    sparseFind (sparseErase m k) a = sparseFind m a := by
  induction m with
  | nil => simp [sparseErase, sparseFind]
  | cons c m ih =>
    obtain ⟨k', v'⟩ := c
    simp only [sparseErase]
    split
    · next hk => subst hk; simp [sparseFind, h, ih]
    · simp [sparseFind, ih]

/-- Whatever the default: a write leaves every other entry alone. -/
theorem sparseFind_set_other [DecidableEq α] (d : α) (m : List (Nat × α)) {k a : Nat} (v : α) (h : a ≠ k) :
    sparseFind (sparseSet d m k v) a = sparseFind m a := by
  unfold sparseSet
  split
  · exact sparseFind_erase_other m h
  · exact sparseFind_insert_other m v h

/-- A table reads what was written last. -/
@[simp] theorem sparseGet_set_same [DecidableEq α] (d : α) (m : List (Nat × α)) (k : Nat) (v : α) :
    sparseGet d (sparseSet d m k v) k = v := by
  unfold sparseGet sparseSet
  split
  · next h => simp [sparseFind_erase_same, h]
  · simp [sparseFind_insert_same]

/-- A write leaves every other place alone. -/
theorem sparseGet_set_other [DecidableEq α] (d : α) (m : List (Nat × α)) {k a : Nat} (v : α) (h : a ≠ k) :
    sparseGet d (sparseSet d m k v) a = sparseGet d m a := by
  unfold sparseGet sparseSet
  split <;> simp [sparseFind_erase_other, sparseFind_insert_other, h]

/-- Both at once, for rewriting. -/
theorem sparseGet_set [DecidableEq α] (d : α) (m : List (Nat × α)) (k a : Nat) (v : α) :
    sparseGet d (sparseSet d m k v) a = if a = k then v else sparseGet d m a := by
  split
  · next h => subst h; simp
  · next h => exact sparseGet_set_other d m v h

/-! ### The canonical form -/

/-- A table whose keys rise, all from a bound on. -/
theorem sparseSorted_cons {k : Nat} {v : α} {m : List (Nat × α)} :
    sparseSorted ((k, v) :: m) = true ↔ (∀ c ∈ m, k < c.1) ∧ sparseSorted m = true := by
  induction m generalizing k v with
  | nil => simp [sparseSorted]
  | cons c m ih =>
    obtain ⟨k', v'⟩ := c
    simp only [sparseSorted, Bool.and_eq_true, decide_eq_true_eq]
    constructor
    · rintro ⟨h, hm⟩
      refine ⟨fun c hc => ?_, hm⟩
      rcases List.mem_cons.1 hc with rfl | hc
      · exact h
      · exact Nat.lt_trans h ((ih.1 hm).1 c hc)
    · rintro ⟨h, hm⟩
      exact ⟨h _ (List.mem_cons_self ..), hm⟩

theorem mem_sparseErase {m : List (Nat × α)} {k : Nat} {c : Nat × α} (h : c ∈ sparseErase m k) : c ∈ m := by
  induction m with
  | nil => simp [sparseErase] at h
  | cons x m ih =>
    obtain ⟨k', v'⟩ := x
    simp only [sparseErase] at h
    split at h
    · exact List.mem_cons_of_mem _ (ih h)
    · rcases List.mem_cons.1 h with rfl | h
      · exact List.mem_cons_self ..
      · exact List.mem_cons_of_mem _ (ih h)

theorem mem_sparseInsert {m : List (Nat × α)} {k : Nat} {v : α} {c : Nat × α}
    (h : c ∈ sparseInsert m k v) : c = (k, v) ∨ c ∈ m := by
  induction m with
  | nil => simpa [sparseInsert] using h
  | cons x m ih =>
    obtain ⟨k', v'⟩ := x
    simp only [sparseInsert] at h
    split at h
    · rcases List.mem_cons.1 h with h | h
      · exact .inl h
      · exact .inr h
    · split at h
      · rcases List.mem_cons.1 h with h | h
        · exact .inl h
        · exact .inr (List.mem_cons_of_mem _ h)
      · rcases List.mem_cons.1 h with rfl | h
        · exact .inr (List.mem_cons_self ..)
        · exact (ih h).imp_right (List.mem_cons_of_mem _)

theorem sparseSorted_erase {m : List (Nat × α)} (k : Nat) (h : sparseSorted m = true) :
    sparseSorted (sparseErase m k) = true := by
  induction m with
  | nil => rfl
  | cons x m ih =>
    obtain ⟨k', v'⟩ := x
    have hm := sparseSorted_cons.1 h
    simp only [sparseErase]
    split
    · exact ih hm.2
    · exact sparseSorted_cons.2 ⟨fun c hc => hm.1 c (mem_sparseErase hc), ih hm.2⟩

theorem sparseSorted_insert {m : List (Nat × α)} (k : Nat) (v : α) (h : sparseSorted m = true) :
    sparseSorted (sparseInsert m k v) = true := by
  induction m with
  | nil => rfl
  | cons x m ih =>
    obtain ⟨k', v'⟩ := x
    have hm := sparseSorted_cons.1 h
    simp only [sparseInsert]
    split
    · next hk =>
      refine sparseSorted_cons.2 ⟨fun c hc => ?_, h⟩
      rcases List.mem_cons.1 hc with rfl | hc
      · exact hk
      · exact Nat.lt_trans hk (hm.1 c hc)
    · next hk =>
      split
      · next he => subst he; exact sparseSorted_cons.2 hm
      · next he =>
        refine sparseSorted_cons.2 ⟨fun c hc => ?_, ih hm.2⟩
        rcases mem_sparseInsert hc with rfl | hc
        · show k' < k; omega
        · exact hm.1 c hc

end Sys2Proof.Machine
end

