-- ==== Sys2Proof/Laws/State.lean ====
section
/-! SUPPORT. Reading a field of the device after each basic update: one lemma per field per update. -/

namespace Sys2Proof.Machine

open Sys2Proof

namespace Dev

/-! ### Registers -/

/-- A register reads what was written last. -/
@[simp] theorem rd_wr_same (d : Dev) (a : Nat) (v : Word) : (d.wr a v).rd a = v := by simp [rd, wr]

/-- A write leaves every other register alone. -/
theorem rd_wr_other (d : Dev) {a b : Nat} (v : Word) (h : b ≠ a) :
    (d.wr a v).rd b = d.rd b := by
  simp [rd, wr, sparseGet, sparseFind_set_other (regReset a) d.regs v h]

/-- A register after a write, both cases. -/
theorem rd_wr (d : Dev) (a b : Nat) (v : Word) : (d.wr a v).rd b = if b = a then v else d.rd b := by
  split
  · next h => subst h; simp
  · next h => exact rd_wr_other d v h

/-- Only the registers' table decides what a register reads. -/
theorem rd_congr {d e : Dev} (h : e.regs = d.regs) (a : Nat) : e.rd a = d.rd a := by simp [rd, h]

/-! ### wr -/

@[simp] theorem wr_grade (d : Dev) (a : Nat) (v : Word) : (d.wr a v).grade = d.grade := rfl
@[simp] theorem wr_mode (d : Dev) (a : Nat) (v : Word) : (d.wr a v).mode = d.mode := rfl
@[simp] theorem wr_timeRun (d : Dev) (a : Nat) (v : Word) : (d.wr a v).timeRun = d.timeRun := rfl
@[simp] theorem wr_timeBase (d : Dev) (a : Nat) (v : Word) : (d.wr a v).timeBase = d.timeBase := rfl
@[simp] theorem wr_freeCtr (d : Dev) (a : Nat) (v : Word) : (d.wr a v).freeCtr = d.freeCtr := rfl
@[simp] theorem wr_a (d : Dev) (a : Nat) (v : Word) : (d.wr a v).a = d.a := rfl
@[simp] theorem wr_b (d : Dev) (a : Nat) (v : Word) : (d.wr a v).b = d.b := rfl
@[simp] theorem wr_answer (d : Dev) (a : Nat) (v : Word) : (d.wr a v).answer = d.answer := rfl
@[simp] theorem wr_stopped (d : Dev) (a : Nat) (v : Word) : (d.wr a v).stopped = d.stopped := rfl
@[simp] theorem wr_busRun (d : Dev) (a : Nat) (v : Word) : (d.wr a v).busRun = d.busRun := rfl
@[simp] theorem wr_waitReset (d : Dev) (a : Nat) (v : Word) : (d.wr a v).waitReset = d.waitReset := rfl
@[simp] theorem wr_heldUp (d : Dev) (a : Nat) (v : Word) : (d.wr a v).heldUp = d.heldUp := rfl
@[simp] theorem wr_driven (d : Dev) (a : Nat) (v : Word) : (d.wr a v).driven = d.driven := rfl
@[simp] theorem wr_fromWake (d : Dev) (a : Nat) (v : Word) : (d.wr a v).fromWake = d.fromWake := rfl
@[simp] theorem wr_debugReq (d : Dev) (a : Nat) (v : Word) : (d.wr a v).debugReq = d.debugReq := rfl
@[simp] theorem wr_svcKey (d : Dev) (a : Nat) (v : Word) : (d.wr a v).svcKey = d.svcKey := rfl
@[simp] theorem wr_pmA (d : Dev) (a : Nat) (v : Word) : (d.wr a v).pmA = d.pmA := rfl
@[simp] theorem wr_pmB (d : Dev) (a : Nat) (v : Word) : (d.wr a v).pmB = d.pmB := rfl
@[simp] theorem wr_wakeOut (d : Dev) (a : Nat) (v : Word) : (d.wr a v).wakeOut = d.wakeOut := rfl
@[simp] theorem wr_wakeReq (d : Dev) (a : Nat) (v : Word) : (d.wr a v).wakeReq = d.wakeReq := rfl
@[simp] theorem wr_keySlot (d : Dev) (a : Nat) (v : Word) : (d.wr a v).keySlot = d.keySlot := rfl
@[simp] theorem wr_keyUndef (d : Dev) (a : Nat) (v : Word) : (d.wr a v).keyUndef = d.keyUndef := rfl
@[simp] theorem wr_keyStage (d : Dev) (a : Nat) (v : Word) : (d.wr a v).keyStage = d.keyStage := rfl
@[simp] theorem wr_keyBusy (d : Dev) (a : Nat) (v : Word) : (d.wr a v).keyBusy = d.keyBusy := rfl
@[simp] theorem wr_trimCells (d : Dev) (a : Nat) (v : Word) : (d.wr a v).trimCells = d.trimCells := rfl
@[simp] theorem wr_wear (d : Dev) (a : Nat) (v : Word) : (d.wr a v).wear = d.wear := rfl
@[simp] theorem wr_sections (d : Dev) (a : Nat) (v : Word) : (d.wr a v).sections = d.sections := rfl
@[simp] theorem wr_pins (d : Dev) (a : Nat) (v : Word) : (d.wr a v).pins = d.pins := rfl
@[simp] theorem wr_ctx (d : Dev) (a : Nat) (v : Word) : (d.wr a v).ctx = d.ctx := rfl
@[simp] theorem wr_ctxOwner (d : Dev) (a : Nat) (v : Word) : (d.wr a v).ctxOwner = d.ctxOwner := rfl
@[simp] theorem wr_tmbLatch (d : Dev) (a : Nat) (v : Word) : (d.wr a v).tmbLatch = d.tmbLatch := rfl
@[simp] theorem wr_angLatch (d : Dev) (a : Nat) (v : Word) : (d.wr a v).angLatch = d.angLatch := rfl
@[simp] theorem wr_fireT (d : Dev) (a : Nat) (v : Word) : (d.wr a v).fireT = d.fireT := rfl
@[simp] theorem wr_firedT (d : Dev) (a : Nat) (v : Word) : (d.wr a v).firedT = d.firedT := rfl
@[simp] theorem wr_pwm (d : Dev) (a : Nat) (v : Word) : (d.wr a v).pwm = d.pwm := rfl
@[simp] theorem wr_pwmForce (d : Dev) (a : Nat) (v : Word) : (d.wr a v).pwmForce = d.pwmForce := rfl
@[simp] theorem wr_pwmHalt (d : Dev) (a : Nat) (v : Word) : (d.wr a v).pwmHalt = d.pwmHalt := rfl
@[simp] theorem wr_dlBad (d : Dev) (a : Nat) (v : Word) : (d.wr a v).dlBad = d.dlBad := rfl
@[simp] theorem wr_convs (d : Dev) (a : Nat) (v : Word) : (d.wr a v).convs = d.convs := rfl
@[simp] theorem wr_accs (d : Dev) (a : Nat) (v : Word) : (d.wr a v).accs = d.accs := rfl
@[simp] theorem wr_sent (d : Dev) (a : Nat) (v : Word) : (d.wr a v).sent = d.sent := rfl
@[simp] theorem wr_colt (d : Dev) (a : Nat) (v : Word) : (d.wr a v).colt = d.colt := rfl
@[simp] theorem wr_gflagOld (d : Dev) (a : Nat) (v : Word) : (d.wr a v).gflagOld = d.gflagOld := rfl
@[simp] theorem wr_mule (d : Dev) (a : Nat) (v : Word) : (d.wr a v).mule = d.mule := rfl
@[simp] theorem wr_irq (d : Dev) (a : Nat) (v : Word) : (d.wr a v).irq = d.irq := rfl
@[simp] theorem wr_sends (d : Dev) (a : Nat) (v : Word) : (d.wr a v).sends = d.sends := rfl
@[simp] theorem wr_link (d : Dev) (a : Nat) (v : Word) : (d.wr a v).link = d.link := rfl
@[simp] theorem wr_devSafe (d : Dev) (a : Nat) (v : Word) : (d.wr a v).devSafe = d.devSafe := rfl
@[simp] theorem wr_lastFault (d : Dev) (a : Nat) (v : Word) : (d.wr a v).lastFault = d.lastFault := rfl
@[simp] theorem wr_recover (d : Dev) (a : Nat) (v : Word) : (d.wr a v).recover = d.recover := rfl
@[simp] theorem wr_halfReact (d : Dev) (a : Nat) (v : Word) : (d.wr a v).halfReact = d.halfReact := rfl
@[simp] theorem wr_sentinel (d : Dev) (a : Nat) (v : Word) : (d.wr a v).sentinel = d.sentinel := rfl
@[simp] theorem wr_hbRun (d : Dev) (a : Nat) (v : Word) : (d.wr a v).hbRun = d.hbRun := rfl
@[simp] theorem wr_hbSince (d : Dev) (a : Nat) (v : Word) : (d.wr a v).hbSince = d.hbSince := rfl
@[simp] theorem wr_laneFault (d : Dev) (a : Nat) (v : Word) : (d.wr a v).laneFault = d.laneFault := rfl
@[simp] theorem wr_safeReq (d : Dev) (a : Nat) (v : Word) : (d.wr a v).safeReq = d.safeReq := rfl
@[simp] theorem wr_pllStop (d : Dev) (a : Nat) (v : Word) : (d.wr a v).pllStop = d.pllStop := rfl
@[simp] theorem wr_tests (d : Dev) (a : Nat) (v : Word) : (d.wr a v).tests = d.tests := rfl
@[simp] theorem wr_xlkA (d : Dev) (a : Nat) (v : Word) : (d.wr a v).xlkA = d.xlkA := rfl
@[simp] theorem wr_xlkB (d : Dev) (a : Nat) (v : Word) : (d.wr a v).xlkB = d.xlkB := rfl
@[simp] theorem wr_snap (d : Dev) (a : Nat) (v : Word) : (d.wr a v).snap = d.snap := rfl

/-! ### advance -/

@[simp] theorem advance_regs (d : Dev) (t : Tick) : (d.advance t).regs = d.regs := by unfold advance; split <;> rfl
@[simp] theorem advance_grade (d : Dev) (t : Tick) : (d.advance t).grade = d.grade := by unfold advance; split <;> rfl
@[simp] theorem advance_mode (d : Dev) (t : Tick) : (d.advance t).mode = d.mode := by unfold advance; split <;> rfl
@[simp] theorem advance_timeRun (d : Dev) (t : Tick) : (d.advance t).timeRun = d.timeRun := by unfold advance; split <;> rfl
@[simp] theorem advance_freeCtr (d : Dev) (t : Tick) : (d.advance t).freeCtr = d.freeCtr := by unfold advance; split <;> rfl
@[simp] theorem advance_a (d : Dev) (t : Tick) : (d.advance t).a = d.a := by unfold advance; split <;> rfl
@[simp] theorem advance_b (d : Dev) (t : Tick) : (d.advance t).b = d.b := by unfold advance; split <;> rfl
@[simp] theorem advance_answer (d : Dev) (t : Tick) : (d.advance t).answer = d.answer := by unfold advance; split <;> rfl
@[simp] theorem advance_stopped (d : Dev) (t : Tick) : (d.advance t).stopped = d.stopped := by unfold advance; split <;> rfl
@[simp] theorem advance_busRun (d : Dev) (t : Tick) : (d.advance t).busRun = d.busRun := by unfold advance; split <;> rfl
@[simp] theorem advance_waitReset (d : Dev) (t : Tick) : (d.advance t).waitReset = d.waitReset := by unfold advance; split <;> rfl
@[simp] theorem advance_heldUp (d : Dev) (t : Tick) : (d.advance t).heldUp = d.heldUp := by unfold advance; split <;> rfl
@[simp] theorem advance_driven (d : Dev) (t : Tick) : (d.advance t).driven = d.driven := by unfold advance; split <;> rfl
@[simp] theorem advance_fromWake (d : Dev) (t : Tick) : (d.advance t).fromWake = d.fromWake := by unfold advance; split <;> rfl
@[simp] theorem advance_debugReq (d : Dev) (t : Tick) : (d.advance t).debugReq = d.debugReq := by unfold advance; split <;> rfl
@[simp] theorem advance_svcKey (d : Dev) (t : Tick) : (d.advance t).svcKey = d.svcKey := by unfold advance; split <;> rfl
@[simp] theorem advance_pmA (d : Dev) (t : Tick) : (d.advance t).pmA = d.pmA := by unfold advance; split <;> rfl
@[simp] theorem advance_pmB (d : Dev) (t : Tick) : (d.advance t).pmB = d.pmB := by unfold advance; split <;> rfl
@[simp] theorem advance_wakeOut (d : Dev) (t : Tick) : (d.advance t).wakeOut = d.wakeOut := by unfold advance; split <;> rfl
@[simp] theorem advance_wakeReq (d : Dev) (t : Tick) : (d.advance t).wakeReq = d.wakeReq := by unfold advance; split <;> rfl
@[simp] theorem advance_keySlot (d : Dev) (t : Tick) : (d.advance t).keySlot = d.keySlot := by unfold advance; split <;> rfl
@[simp] theorem advance_keyUndef (d : Dev) (t : Tick) : (d.advance t).keyUndef = d.keyUndef := by unfold advance; split <;> rfl
@[simp] theorem advance_keyStage (d : Dev) (t : Tick) : (d.advance t).keyStage = d.keyStage := by unfold advance; split <;> rfl
@[simp] theorem advance_keyBusy (d : Dev) (t : Tick) : (d.advance t).keyBusy = d.keyBusy := by unfold advance; split <;> rfl
@[simp] theorem advance_trimCells (d : Dev) (t : Tick) : (d.advance t).trimCells = d.trimCells := by unfold advance; split <;> rfl
@[simp] theorem advance_wear (d : Dev) (t : Tick) : (d.advance t).wear = d.wear := by unfold advance; split <;> rfl
@[simp] theorem advance_sections (d : Dev) (t : Tick) : (d.advance t).sections = d.sections := by unfold advance; split <;> rfl
@[simp] theorem advance_pins (d : Dev) (t : Tick) : (d.advance t).pins = d.pins := by unfold advance; split <;> rfl
@[simp] theorem advance_ctx (d : Dev) (t : Tick) : (d.advance t).ctx = d.ctx := by unfold advance; split <;> rfl
@[simp] theorem advance_ctxOwner (d : Dev) (t : Tick) : (d.advance t).ctxOwner = d.ctxOwner := by unfold advance; split <;> rfl
@[simp] theorem advance_tmbLatch (d : Dev) (t : Tick) : (d.advance t).tmbLatch = d.tmbLatch := by unfold advance; split <;> rfl
@[simp] theorem advance_angLatch (d : Dev) (t : Tick) : (d.advance t).angLatch = d.angLatch := by unfold advance; split <;> rfl
@[simp] theorem advance_fireT (d : Dev) (t : Tick) : (d.advance t).fireT = d.fireT := by unfold advance; split <;> rfl
@[simp] theorem advance_firedT (d : Dev) (t : Tick) : (d.advance t).firedT = d.firedT := by unfold advance; split <;> rfl
@[simp] theorem advance_pwm (d : Dev) (t : Tick) : (d.advance t).pwm = d.pwm := by unfold advance; split <;> rfl
@[simp] theorem advance_pwmForce (d : Dev) (t : Tick) : (d.advance t).pwmForce = d.pwmForce := by unfold advance; split <;> rfl
@[simp] theorem advance_pwmHalt (d : Dev) (t : Tick) : (d.advance t).pwmHalt = d.pwmHalt := by unfold advance; split <;> rfl
@[simp] theorem advance_dlBad (d : Dev) (t : Tick) : (d.advance t).dlBad = d.dlBad := by unfold advance; split <;> rfl
@[simp] theorem advance_convs (d : Dev) (t : Tick) : (d.advance t).convs = d.convs := by unfold advance; split <;> rfl
@[simp] theorem advance_accs (d : Dev) (t : Tick) : (d.advance t).accs = d.accs := by unfold advance; split <;> rfl
@[simp] theorem advance_sent (d : Dev) (t : Tick) : (d.advance t).sent = d.sent := by unfold advance; split <;> rfl
@[simp] theorem advance_colt (d : Dev) (t : Tick) : (d.advance t).colt = d.colt := by unfold advance; split <;> rfl
@[simp] theorem advance_gflagOld (d : Dev) (t : Tick) : (d.advance t).gflagOld = d.gflagOld := by unfold advance; split <;> rfl
@[simp] theorem advance_mule (d : Dev) (t : Tick) : (d.advance t).mule = d.mule := by unfold advance; split <;> rfl
@[simp] theorem advance_irq (d : Dev) (t : Tick) : (d.advance t).irq = d.irq := by unfold advance; split <;> rfl
@[simp] theorem advance_sends (d : Dev) (t : Tick) : (d.advance t).sends = d.sends := by unfold advance; split <;> rfl
@[simp] theorem advance_link (d : Dev) (t : Tick) : (d.advance t).link = d.link := by unfold advance; split <;> rfl
@[simp] theorem advance_devSafe (d : Dev) (t : Tick) : (d.advance t).devSafe = d.devSafe := by unfold advance; split <;> rfl
@[simp] theorem advance_lastFault (d : Dev) (t : Tick) : (d.advance t).lastFault = d.lastFault := by unfold advance; split <;> rfl
@[simp] theorem advance_recover (d : Dev) (t : Tick) : (d.advance t).recover = d.recover := by unfold advance; split <;> rfl
@[simp] theorem advance_halfReact (d : Dev) (t : Tick) : (d.advance t).halfReact = d.halfReact := by unfold advance; split <;> rfl
@[simp] theorem advance_sentinel (d : Dev) (t : Tick) : (d.advance t).sentinel = d.sentinel := by unfold advance; split <;> rfl
@[simp] theorem advance_hbRun (d : Dev) (t : Tick) : (d.advance t).hbRun = d.hbRun := by unfold advance; split <;> rfl
@[simp] theorem advance_hbSince (d : Dev) (t : Tick) : (d.advance t).hbSince = d.hbSince := by unfold advance; split <;> rfl
@[simp] theorem advance_laneFault (d : Dev) (t : Tick) : (d.advance t).laneFault = d.laneFault := by unfold advance; split <;> rfl
@[simp] theorem advance_safeReq (d : Dev) (t : Tick) : (d.advance t).safeReq = d.safeReq := by unfold advance; split <;> rfl
@[simp] theorem advance_pllStop (d : Dev) (t : Tick) : (d.advance t).pllStop = d.pllStop := by unfold advance; split <;> rfl
@[simp] theorem advance_tests (d : Dev) (t : Tick) : (d.advance t).tests = d.tests := by unfold advance; split <;> rfl
@[simp] theorem advance_xlkA (d : Dev) (t : Tick) : (d.advance t).xlkA = d.xlkA := by unfold advance; split <;> rfl
@[simp] theorem advance_xlkB (d : Dev) (t : Tick) : (d.advance t).xlkB = d.xlkB := by unfold advance; split <;> rfl
@[simp] theorem rd_advance (d : Dev) (t : Tick) (r : Nat) : (d.advance t).rd r = d.rd r := rd_congr (by simp) r

/-! ### okay -/

@[simp] theorem okay_regs (d : Dev) (v : Word) : (d.okay v).regs = d.regs := rfl
@[simp] theorem okay_grade (d : Dev) (v : Word) : (d.okay v).grade = d.grade := rfl
@[simp] theorem okay_mode (d : Dev) (v : Word) : (d.okay v).mode = d.mode := rfl
@[simp] theorem okay_timeRun (d : Dev) (v : Word) : (d.okay v).timeRun = d.timeRun := rfl
@[simp] theorem okay_timeBase (d : Dev) (v : Word) : (d.okay v).timeBase = d.timeBase := rfl
@[simp] theorem okay_freeCtr (d : Dev) (v : Word) : (d.okay v).freeCtr = d.freeCtr := rfl
@[simp] theorem okay_a (d : Dev) (v : Word) : (d.okay v).a = d.a := rfl
@[simp] theorem okay_b (d : Dev) (v : Word) : (d.okay v).b = d.b := rfl
@[simp] theorem okay_stopped (d : Dev) (v : Word) : (d.okay v).stopped = d.stopped := rfl
@[simp] theorem okay_busRun (d : Dev) (v : Word) : (d.okay v).busRun = d.busRun := rfl
@[simp] theorem okay_waitReset (d : Dev) (v : Word) : (d.okay v).waitReset = d.waitReset := rfl
@[simp] theorem okay_heldUp (d : Dev) (v : Word) : (d.okay v).heldUp = d.heldUp := rfl
@[simp] theorem okay_driven (d : Dev) (v : Word) : (d.okay v).driven = d.driven := rfl
@[simp] theorem okay_fromWake (d : Dev) (v : Word) : (d.okay v).fromWake = d.fromWake := rfl
@[simp] theorem okay_debugReq (d : Dev) (v : Word) : (d.okay v).debugReq = d.debugReq := rfl
@[simp] theorem okay_svcKey (d : Dev) (v : Word) : (d.okay v).svcKey = d.svcKey := rfl
@[simp] theorem okay_pmA (d : Dev) (v : Word) : (d.okay v).pmA = d.pmA := rfl
@[simp] theorem okay_pmB (d : Dev) (v : Word) : (d.okay v).pmB = d.pmB := rfl
@[simp] theorem okay_wakeOut (d : Dev) (v : Word) : (d.okay v).wakeOut = d.wakeOut := rfl
@[simp] theorem okay_wakeReq (d : Dev) (v : Word) : (d.okay v).wakeReq = d.wakeReq := rfl
@[simp] theorem okay_keySlot (d : Dev) (v : Word) : (d.okay v).keySlot = d.keySlot := rfl
@[simp] theorem okay_keyUndef (d : Dev) (v : Word) : (d.okay v).keyUndef = d.keyUndef := rfl
@[simp] theorem okay_keyStage (d : Dev) (v : Word) : (d.okay v).keyStage = d.keyStage := rfl
@[simp] theorem okay_keyBusy (d : Dev) (v : Word) : (d.okay v).keyBusy = d.keyBusy := rfl
@[simp] theorem okay_trimCells (d : Dev) (v : Word) : (d.okay v).trimCells = d.trimCells := rfl
@[simp] theorem okay_wear (d : Dev) (v : Word) : (d.okay v).wear = d.wear := rfl
@[simp] theorem okay_sections (d : Dev) (v : Word) : (d.okay v).sections = d.sections := rfl
@[simp] theorem okay_pins (d : Dev) (v : Word) : (d.okay v).pins = d.pins := rfl
@[simp] theorem okay_ctx (d : Dev) (v : Word) : (d.okay v).ctx = d.ctx := rfl
@[simp] theorem okay_ctxOwner (d : Dev) (v : Word) : (d.okay v).ctxOwner = d.ctxOwner := rfl
@[simp] theorem okay_tmbLatch (d : Dev) (v : Word) : (d.okay v).tmbLatch = d.tmbLatch := rfl
@[simp] theorem okay_angLatch (d : Dev) (v : Word) : (d.okay v).angLatch = d.angLatch := rfl
@[simp] theorem okay_fireT (d : Dev) (v : Word) : (d.okay v).fireT = d.fireT := rfl
@[simp] theorem okay_firedT (d : Dev) (v : Word) : (d.okay v).firedT = d.firedT := rfl
@[simp] theorem okay_pwm (d : Dev) (v : Word) : (d.okay v).pwm = d.pwm := rfl
@[simp] theorem okay_pwmForce (d : Dev) (v : Word) : (d.okay v).pwmForce = d.pwmForce := rfl
@[simp] theorem okay_pwmHalt (d : Dev) (v : Word) : (d.okay v).pwmHalt = d.pwmHalt := rfl
@[simp] theorem okay_dlBad (d : Dev) (v : Word) : (d.okay v).dlBad = d.dlBad := rfl
@[simp] theorem okay_convs (d : Dev) (v : Word) : (d.okay v).convs = d.convs := rfl
@[simp] theorem okay_accs (d : Dev) (v : Word) : (d.okay v).accs = d.accs := rfl
@[simp] theorem okay_sent (d : Dev) (v : Word) : (d.okay v).sent = d.sent := rfl
@[simp] theorem okay_colt (d : Dev) (v : Word) : (d.okay v).colt = d.colt := rfl
@[simp] theorem okay_gflagOld (d : Dev) (v : Word) : (d.okay v).gflagOld = d.gflagOld := rfl
@[simp] theorem okay_mule (d : Dev) (v : Word) : (d.okay v).mule = d.mule := rfl
@[simp] theorem okay_irq (d : Dev) (v : Word) : (d.okay v).irq = d.irq := rfl
@[simp] theorem okay_sends (d : Dev) (v : Word) : (d.okay v).sends = d.sends := rfl
@[simp] theorem okay_link (d : Dev) (v : Word) : (d.okay v).link = d.link := rfl
@[simp] theorem okay_devSafe (d : Dev) (v : Word) : (d.okay v).devSafe = d.devSafe := rfl
@[simp] theorem okay_lastFault (d : Dev) (v : Word) : (d.okay v).lastFault = d.lastFault := rfl
@[simp] theorem okay_recover (d : Dev) (v : Word) : (d.okay v).recover = d.recover := rfl
@[simp] theorem okay_halfReact (d : Dev) (v : Word) : (d.okay v).halfReact = d.halfReact := rfl
@[simp] theorem okay_sentinel (d : Dev) (v : Word) : (d.okay v).sentinel = d.sentinel := rfl
@[simp] theorem okay_hbRun (d : Dev) (v : Word) : (d.okay v).hbRun = d.hbRun := rfl
@[simp] theorem okay_hbSince (d : Dev) (v : Word) : (d.okay v).hbSince = d.hbSince := rfl
@[simp] theorem okay_laneFault (d : Dev) (v : Word) : (d.okay v).laneFault = d.laneFault := rfl
@[simp] theorem okay_safeReq (d : Dev) (v : Word) : (d.okay v).safeReq = d.safeReq := rfl
@[simp] theorem okay_pllStop (d : Dev) (v : Word) : (d.okay v).pllStop = d.pllStop := rfl
@[simp] theorem okay_tests (d : Dev) (v : Word) : (d.okay v).tests = d.tests := rfl
@[simp] theorem okay_xlkA (d : Dev) (v : Word) : (d.okay v).xlkA = d.xlkA := rfl
@[simp] theorem okay_xlkB (d : Dev) (v : Word) : (d.okay v).xlkB = d.xlkB := rfl
@[simp] theorem okay_snap (d : Dev) (v : Word) : (d.okay v).snap = d.snap := rfl
@[simp] theorem rd_okay (d : Dev) (v : Word) (r : Nat) : (d.okay v).rd r = d.rd r := rd_congr (by simp) r

/-! ### busErr -/

@[simp] theorem busErr_regs (d : Dev) : (d.busErr).regs = d.regs := rfl
@[simp] theorem busErr_grade (d : Dev) : (d.busErr).grade = d.grade := rfl
@[simp] theorem busErr_mode (d : Dev) : (d.busErr).mode = d.mode := rfl
@[simp] theorem busErr_timeRun (d : Dev) : (d.busErr).timeRun = d.timeRun := rfl
@[simp] theorem busErr_timeBase (d : Dev) : (d.busErr).timeBase = d.timeBase := rfl
@[simp] theorem busErr_freeCtr (d : Dev) : (d.busErr).freeCtr = d.freeCtr := rfl
@[simp] theorem busErr_a (d : Dev) : (d.busErr).a = d.a := rfl
@[simp] theorem busErr_b (d : Dev) : (d.busErr).b = d.b := rfl
@[simp] theorem busErr_stopped (d : Dev) : (d.busErr).stopped = d.stopped := rfl
@[simp] theorem busErr_busRun (d : Dev) : (d.busErr).busRun = d.busRun := rfl
@[simp] theorem busErr_waitReset (d : Dev) : (d.busErr).waitReset = d.waitReset := rfl
@[simp] theorem busErr_heldUp (d : Dev) : (d.busErr).heldUp = d.heldUp := rfl
@[simp] theorem busErr_driven (d : Dev) : (d.busErr).driven = d.driven := rfl
@[simp] theorem busErr_fromWake (d : Dev) : (d.busErr).fromWake = d.fromWake := rfl
@[simp] theorem busErr_debugReq (d : Dev) : (d.busErr).debugReq = d.debugReq := rfl
@[simp] theorem busErr_svcKey (d : Dev) : (d.busErr).svcKey = d.svcKey := rfl
@[simp] theorem busErr_pmA (d : Dev) : (d.busErr).pmA = d.pmA := rfl
@[simp] theorem busErr_pmB (d : Dev) : (d.busErr).pmB = d.pmB := rfl
@[simp] theorem busErr_wakeOut (d : Dev) : (d.busErr).wakeOut = d.wakeOut := rfl
@[simp] theorem busErr_wakeReq (d : Dev) : (d.busErr).wakeReq = d.wakeReq := rfl
@[simp] theorem busErr_keySlot (d : Dev) : (d.busErr).keySlot = d.keySlot := rfl
@[simp] theorem busErr_keyUndef (d : Dev) : (d.busErr).keyUndef = d.keyUndef := rfl
@[simp] theorem busErr_keyStage (d : Dev) : (d.busErr).keyStage = d.keyStage := rfl
@[simp] theorem busErr_keyBusy (d : Dev) : (d.busErr).keyBusy = d.keyBusy := rfl
@[simp] theorem busErr_trimCells (d : Dev) : (d.busErr).trimCells = d.trimCells := rfl
@[simp] theorem busErr_wear (d : Dev) : (d.busErr).wear = d.wear := rfl
@[simp] theorem busErr_sections (d : Dev) : (d.busErr).sections = d.sections := rfl
@[simp] theorem busErr_pins (d : Dev) : (d.busErr).pins = d.pins := rfl
@[simp] theorem busErr_ctx (d : Dev) : (d.busErr).ctx = d.ctx := rfl
@[simp] theorem busErr_ctxOwner (d : Dev) : (d.busErr).ctxOwner = d.ctxOwner := rfl
@[simp] theorem busErr_tmbLatch (d : Dev) : (d.busErr).tmbLatch = d.tmbLatch := rfl
@[simp] theorem busErr_angLatch (d : Dev) : (d.busErr).angLatch = d.angLatch := rfl
@[simp] theorem busErr_fireT (d : Dev) : (d.busErr).fireT = d.fireT := rfl
@[simp] theorem busErr_firedT (d : Dev) : (d.busErr).firedT = d.firedT := rfl
@[simp] theorem busErr_pwm (d : Dev) : (d.busErr).pwm = d.pwm := rfl
@[simp] theorem busErr_pwmForce (d : Dev) : (d.busErr).pwmForce = d.pwmForce := rfl
@[simp] theorem busErr_pwmHalt (d : Dev) : (d.busErr).pwmHalt = d.pwmHalt := rfl
@[simp] theorem busErr_dlBad (d : Dev) : (d.busErr).dlBad = d.dlBad := rfl
@[simp] theorem busErr_convs (d : Dev) : (d.busErr).convs = d.convs := rfl
@[simp] theorem busErr_accs (d : Dev) : (d.busErr).accs = d.accs := rfl
@[simp] theorem busErr_sent (d : Dev) : (d.busErr).sent = d.sent := rfl
@[simp] theorem busErr_colt (d : Dev) : (d.busErr).colt = d.colt := rfl
@[simp] theorem busErr_gflagOld (d : Dev) : (d.busErr).gflagOld = d.gflagOld := rfl
@[simp] theorem busErr_mule (d : Dev) : (d.busErr).mule = d.mule := rfl
@[simp] theorem busErr_irq (d : Dev) : (d.busErr).irq = d.irq := rfl
@[simp] theorem busErr_sends (d : Dev) : (d.busErr).sends = d.sends := rfl
@[simp] theorem busErr_link (d : Dev) : (d.busErr).link = d.link := rfl
@[simp] theorem busErr_devSafe (d : Dev) : (d.busErr).devSafe = d.devSafe := rfl
@[simp] theorem busErr_lastFault (d : Dev) : (d.busErr).lastFault = d.lastFault := rfl
@[simp] theorem busErr_recover (d : Dev) : (d.busErr).recover = d.recover := rfl
@[simp] theorem busErr_halfReact (d : Dev) : (d.busErr).halfReact = d.halfReact := rfl
@[simp] theorem busErr_sentinel (d : Dev) : (d.busErr).sentinel = d.sentinel := rfl
@[simp] theorem busErr_hbRun (d : Dev) : (d.busErr).hbRun = d.hbRun := rfl
@[simp] theorem busErr_hbSince (d : Dev) : (d.busErr).hbSince = d.hbSince := rfl
@[simp] theorem busErr_laneFault (d : Dev) : (d.busErr).laneFault = d.laneFault := rfl
@[simp] theorem busErr_safeReq (d : Dev) : (d.busErr).safeReq = d.safeReq := rfl
@[simp] theorem busErr_pllStop (d : Dev) : (d.busErr).pllStop = d.pllStop := rfl
@[simp] theorem busErr_tests (d : Dev) : (d.busErr).tests = d.tests := rfl
@[simp] theorem busErr_xlkA (d : Dev) : (d.busErr).xlkA = d.xlkA := rfl
@[simp] theorem busErr_xlkB (d : Dev) : (d.busErr).xlkB = d.xlkB := rfl
@[simp] theorem busErr_snap (d : Dev) : (d.busErr).snap = d.snap := rfl
@[simp] theorem rd_busErr (d : Dev) (r : Nat) : (d.busErr).rd r = d.rd r := rd_congr (by simp) r

/-! ### raise -/

@[simp] theorem raise_regs (d : Dev) (n : Nat) : (d.raise n).regs = d.regs := rfl
@[simp] theorem raise_grade (d : Dev) (n : Nat) : (d.raise n).grade = d.grade := rfl
@[simp] theorem raise_mode (d : Dev) (n : Nat) : (d.raise n).mode = d.mode := rfl
@[simp] theorem raise_timeRun (d : Dev) (n : Nat) : (d.raise n).timeRun = d.timeRun := rfl
@[simp] theorem raise_timeBase (d : Dev) (n : Nat) : (d.raise n).timeBase = d.timeBase := rfl
@[simp] theorem raise_freeCtr (d : Dev) (n : Nat) : (d.raise n).freeCtr = d.freeCtr := rfl
@[simp] theorem raise_a (d : Dev) (n : Nat) : (d.raise n).a = d.a := rfl
@[simp] theorem raise_b (d : Dev) (n : Nat) : (d.raise n).b = d.b := rfl
@[simp] theorem raise_answer (d : Dev) (n : Nat) : (d.raise n).answer = d.answer := rfl
@[simp] theorem raise_stopped (d : Dev) (n : Nat) : (d.raise n).stopped = d.stopped := rfl
@[simp] theorem raise_busRun (d : Dev) (n : Nat) : (d.raise n).busRun = d.busRun := rfl
@[simp] theorem raise_waitReset (d : Dev) (n : Nat) : (d.raise n).waitReset = d.waitReset := rfl
@[simp] theorem raise_heldUp (d : Dev) (n : Nat) : (d.raise n).heldUp = d.heldUp := rfl
@[simp] theorem raise_driven (d : Dev) (n : Nat) : (d.raise n).driven = d.driven := rfl
@[simp] theorem raise_fromWake (d : Dev) (n : Nat) : (d.raise n).fromWake = d.fromWake := rfl
@[simp] theorem raise_debugReq (d : Dev) (n : Nat) : (d.raise n).debugReq = d.debugReq := rfl
@[simp] theorem raise_svcKey (d : Dev) (n : Nat) : (d.raise n).svcKey = d.svcKey := rfl
@[simp] theorem raise_pmA (d : Dev) (n : Nat) : (d.raise n).pmA = d.pmA := rfl
@[simp] theorem raise_pmB (d : Dev) (n : Nat) : (d.raise n).pmB = d.pmB := rfl
@[simp] theorem raise_wakeOut (d : Dev) (n : Nat) : (d.raise n).wakeOut = d.wakeOut := rfl
@[simp] theorem raise_wakeReq (d : Dev) (n : Nat) : (d.raise n).wakeReq = d.wakeReq := rfl
@[simp] theorem raise_keySlot (d : Dev) (n : Nat) : (d.raise n).keySlot = d.keySlot := rfl
@[simp] theorem raise_keyUndef (d : Dev) (n : Nat) : (d.raise n).keyUndef = d.keyUndef := rfl
@[simp] theorem raise_keyStage (d : Dev) (n : Nat) : (d.raise n).keyStage = d.keyStage := rfl
@[simp] theorem raise_keyBusy (d : Dev) (n : Nat) : (d.raise n).keyBusy = d.keyBusy := rfl
@[simp] theorem raise_trimCells (d : Dev) (n : Nat) : (d.raise n).trimCells = d.trimCells := rfl
@[simp] theorem raise_wear (d : Dev) (n : Nat) : (d.raise n).wear = d.wear := rfl
@[simp] theorem raise_sections (d : Dev) (n : Nat) : (d.raise n).sections = d.sections := rfl
@[simp] theorem raise_pins (d : Dev) (n : Nat) : (d.raise n).pins = d.pins := rfl
@[simp] theorem raise_ctx (d : Dev) (n : Nat) : (d.raise n).ctx = d.ctx := rfl
@[simp] theorem raise_ctxOwner (d : Dev) (n : Nat) : (d.raise n).ctxOwner = d.ctxOwner := rfl
@[simp] theorem raise_tmbLatch (d : Dev) (n : Nat) : (d.raise n).tmbLatch = d.tmbLatch := rfl
@[simp] theorem raise_angLatch (d : Dev) (n : Nat) : (d.raise n).angLatch = d.angLatch := rfl
@[simp] theorem raise_fireT (d : Dev) (n : Nat) : (d.raise n).fireT = d.fireT := rfl
@[simp] theorem raise_firedT (d : Dev) (n : Nat) : (d.raise n).firedT = d.firedT := rfl
@[simp] theorem raise_pwm (d : Dev) (n : Nat) : (d.raise n).pwm = d.pwm := rfl
@[simp] theorem raise_pwmForce (d : Dev) (n : Nat) : (d.raise n).pwmForce = d.pwmForce := rfl
@[simp] theorem raise_pwmHalt (d : Dev) (n : Nat) : (d.raise n).pwmHalt = d.pwmHalt := rfl
@[simp] theorem raise_dlBad (d : Dev) (n : Nat) : (d.raise n).dlBad = d.dlBad := rfl
@[simp] theorem raise_convs (d : Dev) (n : Nat) : (d.raise n).convs = d.convs := rfl
@[simp] theorem raise_accs (d : Dev) (n : Nat) : (d.raise n).accs = d.accs := rfl
@[simp] theorem raise_sent (d : Dev) (n : Nat) : (d.raise n).sent = d.sent := rfl
@[simp] theorem raise_colt (d : Dev) (n : Nat) : (d.raise n).colt = d.colt := rfl
@[simp] theorem raise_gflagOld (d : Dev) (n : Nat) : (d.raise n).gflagOld = d.gflagOld := rfl
@[simp] theorem raise_mule (d : Dev) (n : Nat) : (d.raise n).mule = d.mule := rfl
@[simp] theorem raise_sends (d : Dev) (n : Nat) : (d.raise n).sends = d.sends := rfl
@[simp] theorem raise_link (d : Dev) (n : Nat) : (d.raise n).link = d.link := rfl
@[simp] theorem raise_devSafe (d : Dev) (n : Nat) : (d.raise n).devSafe = d.devSafe := rfl
@[simp] theorem raise_lastFault (d : Dev) (n : Nat) : (d.raise n).lastFault = d.lastFault := rfl
@[simp] theorem raise_recover (d : Dev) (n : Nat) : (d.raise n).recover = d.recover := rfl
@[simp] theorem raise_halfReact (d : Dev) (n : Nat) : (d.raise n).halfReact = d.halfReact := rfl
@[simp] theorem raise_sentinel (d : Dev) (n : Nat) : (d.raise n).sentinel = d.sentinel := rfl
@[simp] theorem raise_hbRun (d : Dev) (n : Nat) : (d.raise n).hbRun = d.hbRun := rfl
@[simp] theorem raise_hbSince (d : Dev) (n : Nat) : (d.raise n).hbSince = d.hbSince := rfl
@[simp] theorem raise_laneFault (d : Dev) (n : Nat) : (d.raise n).laneFault = d.laneFault := rfl
@[simp] theorem raise_safeReq (d : Dev) (n : Nat) : (d.raise n).safeReq = d.safeReq := rfl
@[simp] theorem raise_pllStop (d : Dev) (n : Nat) : (d.raise n).pllStop = d.pllStop := rfl
@[simp] theorem raise_tests (d : Dev) (n : Nat) : (d.raise n).tests = d.tests := rfl
@[simp] theorem raise_xlkA (d : Dev) (n : Nat) : (d.raise n).xlkA = d.xlkA := rfl
@[simp] theorem raise_xlkB (d : Dev) (n : Nat) : (d.raise n).xlkB = d.xlkB := rfl
@[simp] theorem raise_snap (d : Dev) (n : Nat) : (d.raise n).snap = d.snap := rfl
@[simp] theorem rd_raise (d : Dev) (n : Nat) (r : Nat) : (d.raise n).rd r = d.rd r := rd_congr (by simp) r

/-! ### setHalf -/

@[simp] theorem setHalf_regs (d : Dev) (h : Half) (x : HalfSt) : (d.setHalf h x).regs = d.regs := by cases h <;> rfl
@[simp] theorem setHalf_grade (d : Dev) (h : Half) (x : HalfSt) : (d.setHalf h x).grade = d.grade := by cases h <;> rfl
@[simp] theorem setHalf_mode (d : Dev) (h : Half) (x : HalfSt) : (d.setHalf h x).mode = d.mode := by cases h <;> rfl
@[simp] theorem setHalf_timeRun (d : Dev) (h : Half) (x : HalfSt) : (d.setHalf h x).timeRun = d.timeRun := by cases h <;> rfl
@[simp] theorem setHalf_timeBase (d : Dev) (h : Half) (x : HalfSt) : (d.setHalf h x).timeBase = d.timeBase := by cases h <;> rfl
@[simp] theorem setHalf_freeCtr (d : Dev) (h : Half) (x : HalfSt) : (d.setHalf h x).freeCtr = d.freeCtr := by cases h <;> rfl
@[simp] theorem setHalf_answer (d : Dev) (h : Half) (x : HalfSt) : (d.setHalf h x).answer = d.answer := by cases h <;> rfl
@[simp] theorem setHalf_stopped (d : Dev) (h : Half) (x : HalfSt) : (d.setHalf h x).stopped = d.stopped := by cases h <;> rfl
@[simp] theorem setHalf_busRun (d : Dev) (h : Half) (x : HalfSt) : (d.setHalf h x).busRun = d.busRun := by cases h <;> rfl
@[simp] theorem setHalf_waitReset (d : Dev) (h : Half) (x : HalfSt) : (d.setHalf h x).waitReset = d.waitReset := by cases h <;> rfl
@[simp] theorem setHalf_heldUp (d : Dev) (h : Half) (x : HalfSt) : (d.setHalf h x).heldUp = d.heldUp := by cases h <;> rfl
@[simp] theorem setHalf_driven (d : Dev) (h : Half) (x : HalfSt) : (d.setHalf h x).driven = d.driven := by cases h <;> rfl
@[simp] theorem setHalf_fromWake (d : Dev) (h : Half) (x : HalfSt) : (d.setHalf h x).fromWake = d.fromWake := by cases h <;> rfl
@[simp] theorem setHalf_debugReq (d : Dev) (h : Half) (x : HalfSt) : (d.setHalf h x).debugReq = d.debugReq := by cases h <;> rfl
@[simp] theorem setHalf_svcKey (d : Dev) (h : Half) (x : HalfSt) : (d.setHalf h x).svcKey = d.svcKey := by cases h <;> rfl
@[simp] theorem setHalf_pmA (d : Dev) (h : Half) (x : HalfSt) : (d.setHalf h x).pmA = d.pmA := by cases h <;> rfl
@[simp] theorem setHalf_pmB (d : Dev) (h : Half) (x : HalfSt) : (d.setHalf h x).pmB = d.pmB := by cases h <;> rfl
@[simp] theorem setHalf_wakeOut (d : Dev) (h : Half) (x : HalfSt) : (d.setHalf h x).wakeOut = d.wakeOut := by cases h <;> rfl
@[simp] theorem setHalf_wakeReq (d : Dev) (h : Half) (x : HalfSt) : (d.setHalf h x).wakeReq = d.wakeReq := by cases h <;> rfl
@[simp] theorem setHalf_keySlot (d : Dev) (h : Half) (x : HalfSt) : (d.setHalf h x).keySlot = d.keySlot := by cases h <;> rfl
@[simp] theorem setHalf_keyUndef (d : Dev) (h : Half) (x : HalfSt) : (d.setHalf h x).keyUndef = d.keyUndef := by cases h <;> rfl
@[simp] theorem setHalf_keyStage (d : Dev) (h : Half) (x : HalfSt) : (d.setHalf h x).keyStage = d.keyStage := by cases h <;> rfl
@[simp] theorem setHalf_keyBusy (d : Dev) (h : Half) (x : HalfSt) : (d.setHalf h x).keyBusy = d.keyBusy := by cases h <;> rfl
@[simp] theorem setHalf_trimCells (d : Dev) (h : Half) (x : HalfSt) : (d.setHalf h x).trimCells = d.trimCells := by cases h <;> rfl
@[simp] theorem setHalf_wear (d : Dev) (h : Half) (x : HalfSt) : (d.setHalf h x).wear = d.wear := by cases h <;> rfl
@[simp] theorem setHalf_sections (d : Dev) (h : Half) (x : HalfSt) : (d.setHalf h x).sections = d.sections := by cases h <;> rfl
@[simp] theorem setHalf_pins (d : Dev) (h : Half) (x : HalfSt) : (d.setHalf h x).pins = d.pins := by cases h <;> rfl
@[simp] theorem setHalf_ctx (d : Dev) (h : Half) (x : HalfSt) : (d.setHalf h x).ctx = d.ctx := by cases h <;> rfl
@[simp] theorem setHalf_ctxOwner (d : Dev) (h : Half) (x : HalfSt) : (d.setHalf h x).ctxOwner = d.ctxOwner := by cases h <;> rfl
@[simp] theorem setHalf_tmbLatch (d : Dev) (h : Half) (x : HalfSt) : (d.setHalf h x).tmbLatch = d.tmbLatch := by cases h <;> rfl
@[simp] theorem setHalf_angLatch (d : Dev) (h : Half) (x : HalfSt) : (d.setHalf h x).angLatch = d.angLatch := by cases h <;> rfl
@[simp] theorem setHalf_fireT (d : Dev) (h : Half) (x : HalfSt) : (d.setHalf h x).fireT = d.fireT := by cases h <;> rfl
@[simp] theorem setHalf_firedT (d : Dev) (h : Half) (x : HalfSt) : (d.setHalf h x).firedT = d.firedT := by cases h <;> rfl
@[simp] theorem setHalf_pwm (d : Dev) (h : Half) (x : HalfSt) : (d.setHalf h x).pwm = d.pwm := by cases h <;> rfl
@[simp] theorem setHalf_pwmForce (d : Dev) (h : Half) (x : HalfSt) : (d.setHalf h x).pwmForce = d.pwmForce := by cases h <;> rfl
@[simp] theorem setHalf_pwmHalt (d : Dev) (h : Half) (x : HalfSt) : (d.setHalf h x).pwmHalt = d.pwmHalt := by cases h <;> rfl
@[simp] theorem setHalf_dlBad (d : Dev) (h : Half) (x : HalfSt) : (d.setHalf h x).dlBad = d.dlBad := by cases h <;> rfl
@[simp] theorem setHalf_convs (d : Dev) (h : Half) (x : HalfSt) : (d.setHalf h x).convs = d.convs := by cases h <;> rfl
@[simp] theorem setHalf_accs (d : Dev) (h : Half) (x : HalfSt) : (d.setHalf h x).accs = d.accs := by cases h <;> rfl
@[simp] theorem setHalf_sent (d : Dev) (h : Half) (x : HalfSt) : (d.setHalf h x).sent = d.sent := by cases h <;> rfl
@[simp] theorem setHalf_colt (d : Dev) (h : Half) (x : HalfSt) : (d.setHalf h x).colt = d.colt := by cases h <;> rfl
@[simp] theorem setHalf_gflagOld (d : Dev) (h : Half) (x : HalfSt) : (d.setHalf h x).gflagOld = d.gflagOld := by cases h <;> rfl
@[simp] theorem setHalf_mule (d : Dev) (h : Half) (x : HalfSt) : (d.setHalf h x).mule = d.mule := by cases h <;> rfl
@[simp] theorem setHalf_irq (d : Dev) (h : Half) (x : HalfSt) : (d.setHalf h x).irq = d.irq := by cases h <;> rfl
@[simp] theorem setHalf_sends (d : Dev) (h : Half) (x : HalfSt) : (d.setHalf h x).sends = d.sends := by cases h <;> rfl
@[simp] theorem setHalf_link (d : Dev) (h : Half) (x : HalfSt) : (d.setHalf h x).link = d.link := by cases h <;> rfl
@[simp] theorem setHalf_devSafe (d : Dev) (h : Half) (x : HalfSt) : (d.setHalf h x).devSafe = d.devSafe := by cases h <;> rfl
@[simp] theorem setHalf_lastFault (d : Dev) (h : Half) (x : HalfSt) : (d.setHalf h x).lastFault = d.lastFault := by cases h <;> rfl
@[simp] theorem setHalf_recover (d : Dev) (h : Half) (x : HalfSt) : (d.setHalf h x).recover = d.recover := by cases h <;> rfl
@[simp] theorem setHalf_halfReact (d : Dev) (h : Half) (x : HalfSt) : (d.setHalf h x).halfReact = d.halfReact := by cases h <;> rfl
@[simp] theorem setHalf_sentinel (d : Dev) (h : Half) (x : HalfSt) : (d.setHalf h x).sentinel = d.sentinel := by cases h <;> rfl
@[simp] theorem setHalf_hbRun (d : Dev) (h : Half) (x : HalfSt) : (d.setHalf h x).hbRun = d.hbRun := by cases h <;> rfl
@[simp] theorem setHalf_hbSince (d : Dev) (h : Half) (x : HalfSt) : (d.setHalf h x).hbSince = d.hbSince := by cases h <;> rfl
@[simp] theorem setHalf_laneFault (d : Dev) (h : Half) (x : HalfSt) : (d.setHalf h x).laneFault = d.laneFault := by cases h <;> rfl
@[simp] theorem setHalf_safeReq (d : Dev) (h : Half) (x : HalfSt) : (d.setHalf h x).safeReq = d.safeReq := by cases h <;> rfl
@[simp] theorem setHalf_pllStop (d : Dev) (h : Half) (x : HalfSt) : (d.setHalf h x).pllStop = d.pllStop := by cases h <;> rfl
@[simp] theorem setHalf_tests (d : Dev) (h : Half) (x : HalfSt) : (d.setHalf h x).tests = d.tests := by cases h <;> rfl
@[simp] theorem setHalf_xlkA (d : Dev) (h : Half) (x : HalfSt) : (d.setHalf h x).xlkA = d.xlkA := by cases h <;> rfl
@[simp] theorem setHalf_xlkB (d : Dev) (h : Half) (x : HalfSt) : (d.setHalf h x).xlkB = d.xlkB := by cases h <;> rfl
@[simp] theorem setHalf_snap (d : Dev) (h : Half) (x : HalfSt) : (d.setHalf h x).snap = d.snap := by cases h <;> rfl
@[simp] theorem rd_setHalf (d : Dev) (h : Half) (x : HalfSt) (r : Nat) : (d.setHalf h x).rd r = d.rd r := rd_congr (by simp) r

/-! ### Halves -/

@[simp] theorem half_setHalf_same (d : Dev) (h : Half) (x : HalfSt) : (d.setHalf h x).half h = x := by
  cases h <;> rfl

theorem half_setHalf_other (d : Dev) {h g : Half} (x : HalfSt) (hg : g ≠ h) :
    (d.setHalf h x).half g = d.half g := by
  cases h <;> cases g <;> first | rfl | exact absurd rfl hg

@[simp] theorem half_wr (d : Dev) (a : Nat) (v : Word) (h : Half) : (d.wr a v).half h = d.half h := by
  cases h <;> rfl

@[simp] theorem half_advance (d : Dev) (t : Tick) (h : Half) : (d.advance t).half h = d.half h := by
  cases h <;> simp [half]

@[simp] theorem half_okay (d : Dev) (v : Word) (h : Half) : (d.okay v).half h = d.half h := by
  cases h <;> rfl

@[simp] theorem half_raise (d : Dev) (n : Nat) (h : Half) : (d.raise n).half h = d.half h := by
  cases h <;> rfl

/-! ### Time (R235) -/

/-- A command never turns the time base back. -/
theorem le_advance (d : Dev) (t : Tick) : d.now ≤ (d.advance t).now := by
  unfold advance now
  split
  · next h => simp only [Bool.and_eq_true, decide_eq_true_eq] at h; exact h.2
  · exact Nat.le_refl _

@[simp] theorem okay_answer (d : Dev) (v : Word) : (d.okay v).answer = ⟨false, v⟩ := rfl
@[simp] theorem busErr_answer (d : Dev) : d.busErr.answer = ⟨true, 0⟩ := rfl

end Dev

end Sys2Proof.Machine
end

