-- ==== Sys2Proof/Laws/Answers.lean ====
section
/-! SUPPORT. How the claims' terms follow from a meaning: answers, kept registers, kept bits, flags. -/

namespace Sys2Proof.Machine

open Sys2Proof

/-! ### Answers -/

/-- A command that is an effect on the device does what the effect does at its tick. -/
theorem does_onDev {c : Instr} {s : State} {t : Tick} {g : Dev → Dev} {Q : Dev → Prop}
    (h : exec c s = s.onDev t g) (hq : Q (g (s.dev.advance t))) : Does c s Q := ⟨_, h, hq⟩

/-- The same for an effect on the device and RAM. -/
theorem doesMem_onBoth {c : Instr} {s : State} {t : Tick} {g : Dev → List Host.Cell → Dev × List Host.Cell}
    {Q : Dev → List Host.Cell → Prop} (h : exec c s = s.onBoth t g)
    (hq : Q (g (s.dev.advance t) s.ram).1 (g (s.dev.advance t) s.ram).2) : DoesMem c s Q := ⟨_, _, h, hq⟩

theorem Does.imp {c : Instr} {s : State} {P Q : Dev → Prop} (h : Does c s P) (hpq : ∀ d, P d → Q d) :
    Does c s Q := by
  obtain ⟨d', h1, h2⟩ := h
  exact ⟨d', h1, hpq _ h2⟩

namespace Dev

/-! ### Accesses -/

theorem onWrite_reach {d : Dev} {a : Nat} (g : Dev → Dev) (h : d.reach a true = true) :
    d.onWrite a g = g (d.okay 0) := if_pos h

theorem onRead_reach {d : Dev} {a : Nat} (v : Word) (g : Dev → Dev) (h : d.reach a false = true) :
    d.onRead a v g = g (d.okay v) := if_pos h

/-! ### Kept registers -/

theorem regsKept_refl (d : Dev) (as : List Nat) : RegsKept d d as := fun _ _ => rfl

theorem regsKept_trans {d e f : Dev} {as : List Nat} (h : RegsKept d e as) (h' : RegsKept e f as) :
    RegsKept d f as := fun a ha => (h' a ha).trans (h a ha)

theorem regsKept_mono {d e : Dev} {as bs : List Nat} (h : RegsKept d e as) (hs : ∀ a ∈ as, a ∈ bs) :
    RegsKept d e bs := fun a ha => h a fun x => ha (hs a x)

/-- A device whose registers' table is the same keeps every register. -/
theorem regsKept_of_regs {d e : Dev} (h : e.regs = d.regs) (as : List Nat) : RegsKept d e as :=
  fun a _ => rd_congr h a

theorem regsKept_wr (d : Dev) (a : Nat) (v : Word) {as : List Nat} (h : a ∈ as) : RegsKept d (d.wr a v) as :=
  fun _ hb => rd_wr_other d v fun e => hb (e ▸ h)

theorem regsKept_setF (d : Dev) (a : Nat) (x : Fld) (n : Nat) {as : List Nat} (h : a ∈ as) :
    RegsKept d (d.setF a x n) as := regsKept_wr d a _ h

theorem regsKept_setB (d : Dev) (a : Nat) (x : Fld) (b : Bool) {as : List Nat} (h : a ∈ as) :
    RegsKept d (d.setB a x b) as := regsKept_wr d a _ h

/-! ### Fields of registers -/

theorem rd_setB_same (d : Dev) (a : Nat) (x : Fld) (b : Bool) : (d.setB a x b).rd a = putB (d.rd a) x b := by
  simp [setB]

theorem rd_setF_same (d : Dev) (a : Nat) (x : Fld) (n : Nat) : (d.setF a x n).rd a = putF (d.rd a) x n := by
  simp [setF]

theorem rd_setB_other (d : Dev) {a b : Nat} (x : Fld) (v : Bool) (h : b ≠ a) : (d.setB a x v).rd b = d.rd b :=
  rd_wr_other d _ h

theorem rd_setF_other (d : Dev) {a b : Nat} (x : Fld) (n : Nat) (h : b ≠ a) : (d.setF a x n).rd b = d.rd b :=
  rd_wr_other d _ h

/-- A one-bit field reads what was set. -/
theorem bit_setB_same (d : Dev) (a : Nat) (x : Fld) (b : Bool) (h : x.lo ≤ x.hi) (h2 : x.lo < 32) :
    (d.setB a x b).bit a x = b := by
  rw [bit, rd_setB_same, getB_putB_same _ _ _ h h2]

/-- A field reads what was set, modulo its range. -/
theorem f_setF_same (d : Dev) (a : Nat) (x : Fld) (n : Nat) (h : x.hi < 32) :
    (d.setF a x n).f a x = n % 2 ^ (x.hi + 1 - x.lo) := by
  rw [f, rd_setF_same, getF_putF_same _ _ _ h]

/-- A one-bit field apart from a replaced field reads as before. -/
theorem bit_setF_apart (d : Dev) (a : Nat) (f g : Fld) (n : Nat) (h : g.lo < 32) (hd : g.lo < f.lo ∨ f.hi < g.lo) :
    (d.setF a f n).bit a g = d.bit a g := by
  rw [bit, rd_setF_same, getB_putF_apart _ _ _ _ h hd, bit]

theorem bit_setB_apart (d : Dev) (a : Nat) (f g : Fld) (b : Bool) (h : g.lo < 32) (hd : g.lo < f.lo ∨ f.hi < g.lo) :
    (d.setB a f b).bit a g = d.bit a g := bit_setF_apart d a f g _ h hd

/-- A field apart from a replaced field reads as before. -/
theorem f_setF_apart (d : Dev) (a : Nat) (f g : Fld) (n : Nat) (h : g.hi < 32) (hd : g.hi < f.lo ∨ f.hi < g.lo) :
    (d.setF a f n).f a g = d.f a g := by
  rw [Dev.f, rd_setF_same, getF_putF_apart _ _ _ _ h hd, Dev.f]

theorem f_setB_apart (d : Dev) (a : Nat) (f g : Fld) (b : Bool) (h : g.hi < 32) (hd : g.hi < f.lo ∨ f.hi < g.lo) :
    (d.setB a f b).f a g = d.f a g := f_setF_apart d a f g _ h hd

/-! ### Flags -/

/-- A flag set reads 1. -/
theorem bit_flag (d : Dev) (a : Nat) (x : Fld) (n : Nat) (h : x.lo ≤ x.hi) (h2 : x.lo < 32) :
    (d.flag a x n).bit a x = true := by
  unfold flag
  split
  · assumption
  · show (d.setB a x true).bit a x = true
    exact bit_setB_same d a x true h h2

theorem regsKept_flag (d : Dev) (a : Nat) (x : Fld) (n : Nat) {as : List Nat} (h : a ∈ as) :
    RegsKept d (d.flag a x n) as := by
  unfold flag
  split
  · exact regsKept_refl d as
  · exact regsKept_setB d a x true h

theorem rd_flag_other (d : Dev) {a b : Nat} (x : Fld) (n : Nat) (h : b ≠ a) : (d.flag a x n).rd b = d.rd b := by
  unfold flag
  split
  · rfl
  · exact rd_setB_other d x true h

theorem bit_flag_apart (d : Dev) (a : Nat) (x g : Fld) (n : Nat) (h : g.lo < 32) (hd : g.lo < x.lo ∨ x.hi < g.lo) :
    (d.flag a x n).bit a g = d.bit a g := by
  unfold flag
  split
  · rfl
  · exact bit_setB_apart d a x g true h hd

theorem f_flag_apart (d : Dev) (a : Nat) (x g : Fld) (n : Nat) (h : g.hi < 32) (hd : g.hi < x.lo ∨ x.hi < g.lo) :
    (d.flag a x n).f a g = d.f a g := by
  unfold flag
  split
  · rfl
  · exact f_setB_apart d a x g true h hd

/-- A flag changes its register and, where it rises, raises its source: nothing else. -/
theorem flag_hidden (d : Dev) (a : Nat) (x : Fld) (n : Nat) :
    HiddenKept d { d.flag a x n with irq := d.irq } := by
  unfold flag HiddenKept
  split <;> rfl

end Dev

/-! ### Bits -/

theorem bitsKept_putF (v : Word) (x : Fld) (n : Nat) : BitsKept v (putF v x n) [x] := by
  intro i hi h
  have := h x (List.mem_singleton.2 rfl)
  rw [getLsbD_putF _ _ _ _ hi, if_neg (by omega)]

theorem bitsKept_putB (v : Word) (x : Fld) (b : Bool) : BitsKept v (putB v x b) [x] := bitsKept_putF v x _

theorem bitsKept_refl (v : Word) (fs : List Fld) : BitsKept v v fs := fun _ _ _ => rfl

end Sys2Proof.Machine
end

