-- ==== Sys2Proof/Laws/Memory.lean ====
section
/-! SUPPORT. The memory: every operation keeps the canonical form, and reads after writes. -/

namespace Sys2Proof.Machine

open Sys2Proof

theorem Memory.wf_iff {m : List Host.Cell} :
    Memory.wf m = true ↔ sparseSorted m = true ∧ ∀ c ∈ m, c.2 ≠ ramDefault := by
  simp [Memory.wf]

@[simp] theorem Memory.wf_nil : Memory.wf [] = true := by decide

/-- A byte write keeps the canonical form. -/
theorem Memory.setByte_wf {m : List Host.Cell} (a : Nat) (b : Byte) (h : Memory.wf m = true) :
    Memory.wf (Memory.setByte m a b) = true := by
  rw [Memory.wf_iff] at h ⊢
  unfold Memory.setByte sparseSet
  split
  · exact ⟨sparseSorted_erase a h.1, fun c hc => h.2 c (mem_sparseErase hc)⟩
  · next hb =>
    refine ⟨sparseSorted_insert a b h.1, fun c hc => ?_⟩
    rcases mem_sparseInsert hc with rfl | hc
    · exact hb
    · exact h.2 c hc

theorem Memory.setBytes_wf {m : List Host.Cell} (a : Nat) (bs : List Byte) (h : Memory.wf m = true) :
    Memory.wf (Memory.setBytes m a bs) = true := by
  induction bs generalizing m a with
  | nil => exact h
  | cons b bs ih => exact ih (a + 1) (Memory.setByte_wf a b h)

theorem Memory.setWord_wf {m : List Host.Cell} (a : Nat) (v : Word) (h : Memory.wf m = true) :
    Memory.wf (Memory.setWord m a v) = true := Memory.setBytes_wf a _ h

/-- Leaving entries out keeps the canonical form. -/
theorem Memory.filter_wf {m : List Host.Cell} (p : Host.Cell → Bool) (h : Memory.wf m = true) :
    Memory.wf (m.filter p) = true := by
  rw [Memory.wf_iff] at h ⊢
  refine ⟨?_, fun c hc => h.2 c (List.mem_filter.1 hc).1⟩
  have hs := h.1
  clear h
  induction m with
  | nil => rfl
  | cons x m ih =>
    obtain ⟨k, v⟩ := x
    have hm := sparseSorted_cons.1 hs
    simp only [List.filter_cons]
    split
    · exact sparseSorted_cons.2 ⟨fun c hc => hm.1 c (List.mem_filter.1 hc).1, ih hm.2⟩
    · exact ih hm.2

theorem Memory.clear_wf {m : List Host.Cell} (a n : Nat) (h : Memory.wf m = true) :
    Memory.wf (Memory.clear m a n) = true := Memory.filter_wf _ h

/-- Two sorted tables, the first wholly below the second. -/
theorem sparseSorted_append {α : Type} {l m : List (Nat × α)} (hl : sparseSorted l = true)
    (hm : sparseSorted m = true) (h : ∀ x ∈ l, ∀ y ∈ m, x.1 < y.1) : sparseSorted (l ++ m) = true := by
  induction l with
  | nil => exact hm
  | cons x l ih =>
    obtain ⟨k, v⟩ := x
    have hx := sparseSorted_cons.1 hl
    refine sparseSorted_cons.2 ⟨fun c hc => ?_, ih hx.2 fun y hy => h y (List.mem_cons_of_mem _ hy)⟩
    rcases List.mem_append.1 hc with hc | hc
    · exact hx.1 c hc
    · exact h _ (List.mem_cons_self ..) c hc

/-- The entries of a block of bytes rise. -/
theorem sparseSorted_block (a n : Nat) (bs : List Byte) :
    sparseSorted ((bs.zipIdx n).map fun p => (a + p.2, p.1)) = true := by
  induction bs generalizing n with
  | nil => rfl
  | cons b bs ih =>
    simp only [List.zipIdx_cons, List.map_cons]
    refine sparseSorted_cons.2 ⟨fun c hc => ?_, ih (n + 1)⟩
    obtain ⟨p, hp, rfl⟩ := List.mem_map.1 hc
    have := List.le_snd_of_mem_zipIdx hp
    show a + n < a + p.2
    omega

/-- A block load keeps the canonical form. -/
theorem Memory.load_wf {m : List Host.Cell} (a : Nat) (bs : List Byte) (h : Memory.wf m = true) :
    Memory.wf (Memory.load m a bs) = true := by
  have hlo := Memory.wf_iff.1 (Memory.filter_wf (fun c => decide (c.1 < a)) h)
  have hhi := Memory.wf_iff.1 (Memory.filter_wf (fun c => decide (a + bs.length ≤ c.1)) h)
  have hnew : sparseSorted ((bs.zipIdx.map fun p => (a + p.2, p.1)).filter
      fun c : Host.Cell => decide (c.2 ≠ ramDefault)) = true := by
    have hs := sparseSorted_block a 0 bs
    generalize (bs.zipIdx 0).map (fun p => (a + p.2, p.1)) = l at hs
    induction l with
    | nil => rfl
    | cons x l ih =>
      obtain ⟨k, v⟩ := x
      have hm := sparseSorted_cons.1 hs
      simp only [List.filter_cons]
      split
      · exact sparseSorted_cons.2 ⟨fun c hc => hm.1 c (List.mem_filter.1 hc).1, ih hm.2⟩
      · exact ih hm.2
  have hin : ∀ c ∈ bs.zipIdx.map (fun p => (a + p.2, p.1)), a ≤ c.1 ∧ c.1 < a + bs.length := by
    intro c hc
    obtain ⟨p, hp, rfl⟩ := List.mem_map.1 hc
    have h2 := List.snd_lt_of_mem_zipIdx hp
    constructor
    · show a ≤ a + p.2; omega
    · show a + p.2 < a + bs.length; omega
  rw [Memory.wf_iff]
  constructor
  · refine sparseSorted_append (sparseSorted_append hlo.1 hnew ?_) hhi.1 ?_
    · intro x hx y hy
      have h1 := (List.mem_filter.1 hx).2
      have h2 := (hin y (List.mem_filter.1 hy).1).1
      simp only [decide_eq_true_eq] at h1
      omega
    · intro x hx y hy
      have h3 := (List.mem_filter.1 hy).2
      simp only [decide_eq_true_eq] at h3
      rcases List.mem_append.1 hx with hx | hx
      · have h1 := (List.mem_filter.1 hx).2
        simp only [decide_eq_true_eq] at h1
        omega
      · have := (hin x (List.mem_filter.1 hx).1).2
        omega
  · intro c hc
    rcases List.mem_append.1 hc with hc | hc
    · rcases List.mem_append.1 hc with hc | hc
      · exact hlo.2 c hc
      · simpa using (List.mem_filter.1 hc).2
    · exact hhi.2 c hc

/-! ### Reads after writes -/

theorem Memory.byte_setByte (m : List Host.Cell) (a x : Nat) (b : Byte) :
    Memory.byte (Memory.setByte m a b) x = if x = a then b else Memory.byte m x :=
  sparseGet_set _ _ _ _ _

/-- Bytes outside the written range read as before. -/
theorem Memory.byte_setBytes_outside (m : List Host.Cell) (a x : Nat) (bs : List Byte)
    (h : x < a ∨ a + bs.length ≤ x) : Memory.byte (Memory.setBytes m a bs) x = Memory.byte m x := by
  induction bs generalizing m a with
  | nil => rfl
  | cons b bs ih =>
    simp only [List.length_cons] at h
    rw [Memory.setBytes, ih _ _ (by omega), Memory.byte_setByte, if_neg (by omega)]

/-- The bytes written are the bytes read. -/
theorem Memory.byte_setBytes_inside (m : List Host.Cell) (a : Nat) (bs : List Byte) (i : Nat)
    (h : i < bs.length) : Memory.byte (Memory.setBytes m a bs) (a + i) = bs[i] := by
  induction bs generalizing m a i with
  | nil => simp at h
  | cons b bs ih =>
    cases i with
    | zero =>
      rw [Memory.setBytes, Nat.add_zero, Memory.byte_setBytes_outside _ _ _ _ (by omega),
        Memory.byte_setByte]
      simp
    | succ i =>
      have h' : i < bs.length := by simpa using h
      rw [Memory.setBytes, show a + (i + 1) = a + 1 + i by omega, ih _ _ _ h']
      simp

end Sys2Proof.Machine
end

