-- ==== Sys2Proof/WellFormed.lean ====
section
/-! DEFINITION. Which commands can occur, where the type of an operand admits more than the spec does. The
meanings complete on every command; a command that is not well formed stands for no happening of the block. -/

namespace Sys2Proof

/-- log2 of the size in bytes of the flash that a probe shows; 24 without SFDP (the register NVL_STAT). -/
def FlashProbe.size : FlashProbe → Nat
  | .silent | .noSfdp => 24
  | .noQuad n _ | .quad n _ => n

/-- The flash is addressed with at most four bytes and holds no more bytes than its size (R352). -/
def PowerUp.wf (e : PowerUp) : Bool :=
  decide (e.probe.size ≤ 32) && decide (e.flash.length ≤ 2 ^ e.probe.size)

/-- The control characters of the link: K28.5, K27.7, K29.7, K28.2 and K28.3; any other counts as a code
error (R328). -/
def LinkChar.wf : LinkChar → Bool
  | .data _ | .error => true
  | .control b => decide (b ∈ [0xBC#8, 0xFB#8, 0xFD#8, 0x5C#8, 0x7C#8])

/-- A frame that ends in K29.7 within 73 characters carries at most 64 payload bytes (R330, R332). -/
def Frame.wf (f : Frame) : Bool := decide (f.payload.length ≤ 64)

/-- A CMD from 0 to 4 has an action, so the port does not turn the frame away for its CMD (R350). -/
def SpiReject.wf : SpiReject → Bool
  | .command c => decide (4 < c.toNat)
  | _ => true

/-- A class whose scope is only a half, or only the device, comes with that scope (R356). -/
def FaultClass.scopeOk : FaultClass → Scope → Bool
  | .vote, .device | .gander, .device | .slot, .device | .adc, .device | .drive, .device => false
  | .voltage, .half _ | .trim, .half _ | .lane, .half _ | .sentinel, .half _ | .temp, .half _ => false
  | _, _ => true

/-- A command that can occur. -/
def Instr.wf : Instr → Bool
  | .supplyValid _ env => env.wf
  | .linkCharacter _ c => c.wf
  | .frameReceived _ f => f.wf
  | .spiFrameReject _ why => why.wf
  | .faultReaction _ cls sc => cls.scopeOk sc
  | .muleBurst _ _ n => decide (0 < n)
  | .streamBytesAdded _ _ n => decide (0 < n)
  | .flashCommandDone _ bytes => decide (bytes.length ≤ 56)
  | .powerOnReset .. | .brownReset .. | .pinReset .. | .resetNRelease .. | .softwareReset .. | .tapReset ..
  | .vddcEarlyWarning .. | .standbyEntry .. | .vbatLost .. | .wakeInAsserted .. | .standbyCrankEdge ..
  | .settleExpiry .. | .wakeSupplyTimeout .. | .jtagDebugRequest .. | .jtagDebugResume ..
  | .serviceKeyWrite .. | .keyDataWrite .. | .keySlotProgram .. | .keyProgramDone .. | .trimBufferWrite ..
  | .trimRewrite .. | .trimRewriteDone .. | .ctxOpen .. | .ctxCommit .. | .ctxAbort .. | .ctxBufWrite ..
  | .ctxChecksEnd .. | .ctxSwitch .. | .crankTimedEdge .. | .crankPulseEnd .. | .crankEdgeHandover ..
  | .crkdEdge .. | .camTimedEdge .. | .camEdgeHandover .. | .thresholdFloorTimeout .. | .snsCountClear ..
  | .captureRead .. | .camMissingEdge .. | .stallTimeout .. | .rundownSpeedTimeout .. | .resyncPermit ..
  | .resync .. | .whlCountClear .. | .toothPassEnd .. | .prePassEnd .. | .channelEvaluationDone ..
  | .clampReached .. | .catchupTimeout .. | .catchupEnd .. | .learnedTableAdjust .. | .rippleDerivation ..
  | .weClear .. | .ripClear .. | .learnedTableWrite .. | .angleRead .. | .ascFire .. | .ascDeferredFire ..
  | .ascEnable .. | .crkoFall .. | .crkoFillEdge .. | .crkoDelayedRise .. | .slotTake .. | .startLaunch ..
  | .endLaunch .. | .internalActionIssue .. | .anchorReached .. | .heldTimeout .. | .channelArm ..
  | .channelDisarm .. | .evcStatusClear .. | .outputEdgeAtVoter .. | .permitOpen .. | .permitClose ..
  | .durationLimit .. | .permitLaneSilent .. | .dmdCommit .. | .dmdAbort .. | .stagedSlotWrite ..
  | .dmdChecksEnd .. | .crossHalfTimeFix .. | .dmdSwitch .. | .boostPhaseEnd .. | .fastDecayTimeEnd ..
  | .transitionEnd .. | .peakTimeEnd .. | .holdTimeout .. | .chopThreshold .. | .openLoadCheck ..
  | .monitorBlankEnd .. | .bankProtectionTrip .. | .bootstrapRefresh .. | .openingKnee .. | .closingArm ..
  | .closingKnee .. | .closingSearchTimeout .. | .resultRecordWrite .. | .deferredLaunch ..
  | .deferralTimeout .. | .bankClear .. | .hydClear .. | .boostPeriodStart .. | .boostGateOff ..
  | .vbstMeasure .. | .vbstOvervoltage .. | .vbstOvRelease .. | .vbstUndervoltage .. | .dwellTimeout ..
  | .restrikeStep .. | .softOffEnd .. | .timeBaseRead .. | .timerArmWrite .. | .timerArmRequest ..
  | .timerDisarm .. | .timerFire .. | .pwmReload .. | .pwmEdge .. | .pwmPerWrite .. | .pwmRiseWrite ..
  | .pwmFallWrite .. | .pwmEnable .. | .pwmSyncRestart .. | .tripQualified .. | .tripReleased ..
  | .tripClear .. | .delayLineRecalibration .. | .conversionEnd .. | .urgentRequest ..
  | .urgentSampleStart .. | .urgentConversionEnd .. | .accSample .. | .windowOpen .. | .windowClose ..
  | .accRecordWrite .. | .accRecordRead .. | .accSumRead .. | .sentEdge .. | .sentIntervalTimeout ..
  | .sentDataRead .. | .sentSerialRead .. | .coltStart .. | .coltStop .. | .coltFlush ..
  | .coltEngineCycle .. | .coltPaceEdge .. | .coltTrigger .. | .coltInject .. | .coltTableCommit ..
  | .coltTableStage .. | .coltTxPush .. | .coltRxPop .. | .coltFlagSet .. | .coltFlagClear ..
  | .muleCommit .. | .muleStop .. | .muleWithdraw .. | .muleEnableWrite .. | .muleShadowWrite ..
  | .muleRequest .. | .muleSoftwareRequest .. | .muleReadbackEnd .. | .irqSourceRaise .. | .irqPendSet ..
  | .irqPendClear .. | .irqEnableSet .. | .irqEnableClear .. | .irqClaim .. | .irqComplete ..
  | .linkBitLock .. | .commaTimeout .. | .downHoldEnd .. | .frameLengthTimeout .. | .answerReceived ..
  | .ackTimeout .. | .nakFullResend .. | .frameTransmit .. | .regRd .. | .regWr .. | .dmdStage ..
  | .dmdCommitMessage .. | .ctxStage .. | .ctxCommitMessage .. | .heartbeat .. | .nvmPass ..
  | .statusPeriod .. | .streamFlushTimeout .. | .heartbeatLate .. | .hostLossGraceEnd .. | .spiNop ..
  | .spiRd .. | .spiWr .. | .spiHb .. | .spiMsgrd .. | .flashCommand .. | .eccReadError .. | .scrubPass ..
  | .parityError .. | .clockMonitorWindow .. | .pllMStop .. | .supplyWindowFault .. | .temperatureSample ..
  | .ganderEdge .. | .ganderLagTimeout .. | .sentinelTimeout .. | .returnHeartbeatTimeout ..
  | .laneWordError .. | .laneHandshakeTimeout .. | .safeReqQualified .. | .safeReqRelease ..
  | .safRecoverWrite .. | .deviceSafeEnd .. | .safTest .. | .safTestDone .. | .crossLinkLoss ..
  | .crossLinkReturn .. | .registerWrite .. | .fastDecayEnd .. => true

end Sys2Proof
end

