-- ==== Sys2Proof/Laws/PerInstr.lean ====
section
/-! SUPPORT. Which commands can occur, constructor by constructor: well-formedness restricts the operands of eight
commands only, and of those it says what the spec says. -/

namespace Sys2Proof.Laws.Occurs

open Sys2Proof

/-- The bound that well-formedness puts on the operands of a command is the spec's own. -/
def Statement : Instr → Prop
  | .supplyValid t e => (Instr.supplyValid t e).wf = true ↔ e.probe.size ≤ 32 ∧ e.flash.length ≤ 2 ^ e.probe.size
  | .linkCharacter t (.control b) => (Instr.linkCharacter t (.control b)).wf = true ↔
      b = 0xBC#8 ∨ b = 0xFB#8 ∨ b = 0xFD#8 ∨ b = 0x5C#8 ∨ b = 0x7C#8
  | .frameReceived t f => (Instr.frameReceived t f).wf = true ↔ f.payload.length ≤ 64
  | .spiFrameReject t (.command c) => (Instr.spiFrameReject t (.command c)).wf = true ↔ 4 < c.toNat
  | .faultReaction t cls (.half h) => (Instr.faultReaction t cls (.half h)).wf = true ↔
      cls ∉ [FaultClass.voltage, .trim, .lane, .sentinel, .temp]
  | .faultReaction t cls .device => (Instr.faultReaction t cls .device).wf = true ↔
      cls ∉ [FaultClass.vote, .gander, .slot, .adc, .drive]
  | .muleBurst t c n => (Instr.muleBurst t c n).wf = true ↔ 0 < n
  | .streamBytesAdded t b n => (Instr.streamBytesAdded t b n).wf = true ↔ 0 < n
  | .flashCommandDone t bytes => (Instr.flashCommandDone t bytes).wf = true ↔ bytes.length ≤ 56
  | i => i.wf = true

theorem supplyValid (t : Tick) (env : PowerUp) : Statement (.supplyValid t env) :=
  by simp [Statement, Instr.wf, PowerUp.wf]
theorem powerOnReset (t : Tick) : Statement (.powerOnReset t) := rfl
theorem brownReset (t : Tick) : Statement (.brownReset t) := rfl
theorem pinReset (t : Tick) : Statement (.pinReset t) := rfl
theorem resetNRelease (t : Tick) : Statement (.resetNRelease t) := rfl
theorem softwareReset (t : Tick) (m : Master) (v : Word) : Statement (.softwareReset t m v) := rfl
theorem tapReset (t : Tick) : Statement (.tapReset t) := rfl
theorem vddcEarlyWarning (t : Tick) (okA okB : Bool) : Statement (.vddcEarlyWarning t okA okB) := rfl
theorem standbyEntry (t : Tick) (wakeIn : Bool) : Statement (.standbyEntry t wakeIn) := rfl
theorem vbatLost (t : Tick) : Statement (.vbatLost t) := rfl
theorem wakeInAsserted (t : Tick) : Statement (.wakeInAsserted t) := rfl
theorem standbyCrankEdge (t : Tick) (h : Half) (e : WakeEdge) : Statement (.standbyCrankEdge t h e) := rfl
theorem settleExpiry (t : Tick) (h : Half) : Statement (.settleExpiry t h) := rfl
theorem wakeSupplyTimeout (t : Tick) : Statement (.wakeSupplyTimeout t) := rfl
theorem jtagDebugRequest (t : Tick) : Statement (.jtagDebugRequest t) := rfl
theorem jtagDebugResume (t : Tick) : Statement (.jtagDebugResume t) := rfl
theorem serviceKeyWrite (t : Tick) (m : Master) (v : Word) : Statement (.serviceKeyWrite t m v) := rfl
theorem keyDataWrite (t : Tick) (m : Master) (k : Fin 4) (v : Word) : Statement (.keyDataWrite t m k v) := rfl
theorem keySlotProgram (t : Tick) (m : Master) (v : Word) : Statement (.keySlotProgram t m v) := rfl
theorem keyProgramDone (t : Tick) : Statement (.keyProgramDone t) := rfl
theorem trimBufferWrite (t : Tick) (m : Master) (k : Fin 64) (v : Word) : Statement (.trimBufferWrite t m k v) := rfl
theorem trimRewrite (t : Tick) (m : Master) (v : Word) : Statement (.trimRewrite t m v) := rfl
theorem trimRewriteDone (t : Tick) (readBackOk : Bool) : Statement (.trimRewriteDone t readBackOk) := rfl
theorem ctxOpen (t : Tick) (m : Master) : Statement (.ctxOpen t m) := rfl
theorem ctxCommit (t : Tick) (m : Master) (count : BitVec 8) (when : BitVec 2) : Statement (.ctxCommit t m count when) :=
  rfl
theorem ctxAbort (t : Tick) (m : Master) : Statement (.ctxAbort t m) := rfl
theorem ctxBufWrite (t : Tick) (m : Master) (k : Fin 128) (v : Word) : Statement (.ctxBufWrite t m k v) := rfl
theorem ctxChecksEnd (t : Tick) : Statement (.ctxChecksEnd t) := rfl
theorem ctxSwitch (t : Tick) : Statement (.ctxSwitch t) := rfl
theorem crankTimedEdge (t : Tick) (h : Half) (peak : Option (BitVec 16)) (holds : Bool) : Statement (.crankTimedEdge t h peak holds) :=
  rfl
theorem crankPulseEnd (t : Tick) (h : Half) : Statement (.crankPulseEnd t h) := rfl
theorem crankEdgeHandover (t : Tick) (h : Half) : Statement (.crankEdgeHandover t h) := rfl
theorem crkdEdge (t : Tick) (h : Half) (e : LineEdge) : Statement (.crkdEdge t h e) := rfl
theorem camTimedEdge (t : Tick) (h : Half) (c : Fin 4) (peak : Option (BitVec 16)) (e : LineEdge) : Statement (.camTimedEdge t h c peak e) :=
  rfl
theorem camEdgeHandover (t : Tick) (h : Half) (c : Fin 4) : Statement (.camEdgeHandover t h c) := rfl
theorem thresholdFloorTimeout (t : Tick) (h : Half) : Statement (.thresholdFloorTimeout t h) := rfl
theorem snsCountClear (t : Tick) (m : Master) (h : Half) (v : Word) : Statement (.snsCountClear t m h v) := rfl
theorem captureRead (t : Tick) (m : Master) (h : Half) (n : Fin 6) : Statement (.captureRead t m h n) := rfl
theorem camMissingEdge (t : Tick) (h : Half) (c : Fin 4) : Statement (.camMissingEdge t h c) := rfl
theorem stallTimeout (t : Tick) (h : Half) : Statement (.stallTimeout t h) := rfl
theorem rundownSpeedTimeout (t : Tick) (h : Half) : Statement (.rundownSpeedTimeout t h) := rfl
theorem resyncPermit (t : Tick) (m : Master) (h : Half) (v : Word) : Statement (.resyncPermit t m h v) := rfl
theorem resync (t : Tick) (h : Half) : Statement (.resync t h) := rfl
theorem whlCountClear (t : Tick) (m : Master) (h : Half) (v : Word) : Statement (.whlCountClear t m h v) := rfl
theorem toothPassEnd (t : Tick) (h : Half) : Statement (.toothPassEnd t h) := rfl
theorem prePassEnd (t : Tick) (h : Half) : Statement (.prePassEnd t h) := rfl
theorem channelEvaluationDone (t : Tick) (h : Half) (c : Fin 256) : Statement (.channelEvaluationDone t h c) := rfl
theorem clampReached (t : Tick) (h : Half) : Statement (.clampReached t h) := rfl
theorem catchupTimeout (t : Tick) (h : Half) : Statement (.catchupTimeout t h) := rfl
theorem catchupEnd (t : Tick) (h : Half) : Statement (.catchupEnd t h) := rfl
theorem learnedTableAdjust (t : Tick) (h : Half) : Statement (.learnedTableAdjust t h) := rfl
theorem rippleDerivation (t : Tick) (h : Half) : Statement (.rippleDerivation t h) := rfl
theorem weClear (t : Tick) (m : Master) (h : Half) (v : Word) : Statement (.weClear t m h v) := rfl
theorem ripClear (t : Tick) (m : Master) (h : Half) (v : Word) : Statement (.ripClear t m h v) := rfl
theorem learnedTableWrite (t : Tick) (m : Master) (h : Half) (j : Fin 768) (v : Word) : Statement (.learnedTableWrite t m h j v) :=
  rfl
theorem angleRead (t : Tick) (m : Master) (h : Half) : Statement (.angleRead t m h) := rfl
theorem ascFire (t : Tick) (h : Half) (n : Fin 8) : Statement (.ascFire t h n) := rfl
theorem ascDeferredFire (t : Tick) (h : Half) (n : Fin 8) : Statement (.ascDeferredFire t h n) := rfl
theorem ascEnable (t : Tick) (m : Master) (h : Half) (n : Fin 8) (v : Word) : Statement (.ascEnable t m h n v) := rfl
theorem crkoFall (t : Tick) (h : Half) (o : Fin 2) : Statement (.crkoFall t h o) := rfl
theorem crkoFillEdge (t : Tick) (h : Half) : Statement (.crkoFillEdge t h) := rfl
theorem crkoDelayedRise (t : Tick) (h : Half) (o : Fin 2) : Statement (.crkoDelayedRise t h o) := rfl
theorem slotTake (t : Tick) (h : Half) (c : Fin 256) : Statement (.slotTake t h c) := rfl
theorem startLaunch (t : Tick) (h : Half) (c : Fin 256) : Statement (.startLaunch t h c) := rfl
theorem endLaunch (t : Tick) (h : Half) (c : Fin 256) : Statement (.endLaunch t h c) := rfl
theorem internalActionIssue (t : Tick) (h : Half) (c : Fin 256) : Statement (.internalActionIssue t h c) := rfl
theorem anchorReached (t : Tick) (h : Half) (c : Fin 256) : Statement (.anchorReached t h c) := rfl
theorem heldTimeout (t : Tick) (h : Half) (c : Fin 256) : Statement (.heldTimeout t h c) := rfl
theorem channelArm (t : Tick) (m : Master) (h : Half) (g : Fin 16) (v : Word) : Statement (.channelArm t m h g v) :=
  rfl
theorem channelDisarm (t : Tick) (m : Master) (h : Half) (g : Fin 16) (v : Word) : Statement (.channelDisarm t m h g v) :=
  rfl
theorem evcStatusClear (t : Tick) (m : Master) (h : Half) (v : Word) : Statement (.evcStatusClear t m h v) := rfl
theorem outputEdgeAtVoter (t : Tick) (h : Half) (c : Fin 256) : Statement (.outputEdgeAtVoter t h c) := rfl
theorem permitOpen (t : Tick) (h : Half) (c : Fin 256) : Statement (.permitOpen t h c) := rfl
theorem permitClose (t : Tick) (h : Half) (c : Fin 256) : Statement (.permitClose t h c) := rfl
theorem durationLimit (t : Tick) (h : Half) (c : Fin 256) : Statement (.durationLimit t h c) := rfl
theorem permitLaneSilent (t : Tick) (h : Half) : Statement (.permitLaneSilent t h) := rfl
theorem dmdCommit (t : Tick) (m : Master) (h : Half) (groups xgroups : Byte) (when : BitVec 2) : Statement (.dmdCommit t m h groups xgroups when) :=
  rfl
theorem dmdAbort (t : Tick) (m : Master) (h : Half) : Statement (.dmdAbort t m h) := rfl
theorem stagedSlotWrite (t : Tick) (m : Master) (h : Half) (n : Fin 128) (w : Fin 8) (v : Word) : Statement (.stagedSlotWrite t m h n w v) :=
  rfl
theorem dmdChecksEnd (t : Tick) (h : Half) : Statement (.dmdChecksEnd t h) := rfl
theorem crossHalfTimeFix (t : Tick) (h : Half) : Statement (.crossHalfTimeFix t h) := rfl
theorem dmdSwitch (t : Tick) (h : Half) : Statement (.dmdSwitch t h) := rfl
theorem boostPhaseEnd (t : Tick) (h : Half) (b : Fin 6) (atLevel : Bool) : Statement (.boostPhaseEnd t h b atLevel) :=
  rfl
theorem fastDecayTimeEnd (t : Tick) (h : Half) (b : Fin 6) : Statement (.fastDecayTimeEnd t h b) := rfl
theorem transitionEnd (t : Tick) (h : Half) (b : Fin 6) : Statement (.transitionEnd t h b) := rfl
theorem peakTimeEnd (t : Tick) (h : Half) (b : Fin 6) : Statement (.peakTimeEnd t h b) := rfl
theorem holdTimeout (t : Tick) (h : Half) (b : Fin 6) : Statement (.holdTimeout t h b) := rfl
theorem chopThreshold (t : Tick) (h : Half) (b : Fin 6) (upper : Bool) : Statement (.chopThreshold t h b upper) := rfl
theorem openLoadCheck (t : Tick) (h : Half) (b : Fin 6) (code : BitVec 10) : Statement (.openLoadCheck t h b code) :=
  rfl
theorem monitorBlankEnd (t : Tick) (h : Half) (b : Fin 6) (f : Fet) : Statement (.monitorBlankEnd t h b f) := rfl
theorem bankProtectionTrip (t : Tick) (h : Half) (b : Fin 6) (cause : BankTrip) : Statement (.bankProtectionTrip t h b cause) :=
  rfl
theorem bootstrapRefresh (t : Tick) (h : Half) (b : Fin 6) (f : Fet) : Statement (.bootstrapRefresh t h b f) := rfl
theorem openingKnee (t : Tick) (h : Half) (x : KneeSearch) : Statement (.openingKnee t h x) := rfl
theorem closingArm (t : Tick) (h : Half) (b : Fin 6) : Statement (.closingArm t h b) := rfl
theorem closingKnee (t : Tick) (h : Half) (x : KneeSearch) : Statement (.closingKnee t h x) := rfl
theorem closingSearchTimeout (t : Tick) (h : Half) (b : Fin 6) : Statement (.closingSearchTimeout t h b) := rfl
theorem resultRecordWrite (t : Tick) (h : Half) (b : Fin 6) : Statement (.resultRecordWrite t h b) := rfl
theorem deferredLaunch (t : Tick) (h : Half) (c : Fin 256) : Statement (.deferredLaunch t h c) := rfl
theorem deferralTimeout (t : Tick) (h : Half) (c : Fin 256) : Statement (.deferralTimeout t h c) := rfl
theorem bankClear (t : Tick) (m : Master) (h : Half) (v : Word) : Statement (.bankClear t m h v) := rfl
theorem hydClear (t : Tick) (m : Master) (h : Half) (v : Word) : Statement (.hydClear t m h v) := rfl
theorem boostPeriodStart (t : Tick) (h : Half) (milliVolts : Nat) : Statement (.boostPeriodStart t h milliVolts) :=
  rfl
theorem boostGateOff (t : Tick) (h : Half) : Statement (.boostGateOff t h) := rfl
theorem vbstMeasure (t : Tick) (h : Half) (milliVolts : Nat) : Statement (.vbstMeasure t h milliVolts) := rfl
theorem vbstOvervoltage (t : Tick) (h : Half) : Statement (.vbstOvervoltage t h) := rfl
theorem vbstOvRelease (t : Tick) (h : Half) : Statement (.vbstOvRelease t h) := rfl
theorem vbstUndervoltage (t : Tick) (h : Half) : Statement (.vbstUndervoltage t h) := rfl
theorem dwellTimeout (t : Tick) (h : Half) (k : Fin 12) : Statement (.dwellTimeout t h k) := rfl
theorem restrikeStep (t : Tick) (h : Half) (k : Fin 12) : Statement (.restrikeStep t h k) := rfl
theorem softOffEnd (t : Tick) (h : Half) (k : Fin 12) : Statement (.softOffEnd t h k) := rfl
theorem timeBaseRead (t : Tick) (m : Master) : Statement (.timeBaseRead t m) := rfl
theorem timerArmWrite (t : Tick) (m : Master) (k : Fin 2) (v : Word) : Statement (.timerArmWrite t m k v) := rfl
theorem timerArmRequest (t : Tick) (n : Fin 64) (src : ArmSource) (tick : Tick) : Statement (.timerArmRequest t n src tick) :=
  rfl
theorem timerDisarm (t : Tick) (m : Master) (k : Fin 2) (v : Word) : Statement (.timerDisarm t m k v) := rfl
theorem timerFire (t : Tick) (n : Fin 64) : Statement (.timerFire t n) := rfl
theorem pwmReload (t : Tick) (c : Fin 32) : Statement (.pwmReload t c) := rfl
theorem pwmEdge (t : Tick) (c : Fin 32) (rise : Bool) : Statement (.pwmEdge t c rise) := rfl
theorem pwmPerWrite (t : Tick) (m : Master) (c : Fin 32) (v : Word) : Statement (.pwmPerWrite t m c v) := rfl
theorem pwmRiseWrite (t : Tick) (m : Master) (c : Fin 32) (v : Word) : Statement (.pwmRiseWrite t m c v) := rfl
theorem pwmFallWrite (t : Tick) (m : Master) (c : Fin 32) (v : Word) : Statement (.pwmFallWrite t m c v) := rfl
theorem pwmEnable (t : Tick) (m : Master) (c : Fin 32) (v : Word) : Statement (.pwmEnable t m c v) := rfl
theorem pwmSyncRestart (t : Tick) (m : Option Master) (v : Word) : Statement (.pwmSyncRestart t m v) := rfl
theorem tripQualified (t : Tick) (i : Fin 4) : Statement (.tripQualified t i) := rfl
theorem tripReleased (t : Tick) (i : Fin 4) : Statement (.tripReleased t i) := rfl
theorem tripClear (t : Tick) (m : Master) (v : Word) : Statement (.tripClear t m v) := rfl
theorem delayLineRecalibration (t : Tick) (taps : Int) : Statement (.delayLineRecalibration t taps) := rfl
theorem conversionEnd (t : Tick) (h : Half) (k : Fin 2) (code : BitVec 12) : Statement (.conversionEnd t h k code) :=
  rfl
theorem urgentRequest (t : Tick) (h : Half) (e : Fin 16) (tick : Tick) : Statement (.urgentRequest t h e tick) := rfl
theorem urgentSampleStart (t : Tick) (h : Half) (k : Fin 2) : Statement (.urgentSampleStart t h k) := rfl
theorem urgentConversionEnd (t : Tick) (h : Half) (k : Fin 2) (code : BitVec 12) : Statement (.urgentConversionEnd t h k code) :=
  rfl
theorem accSample (t : Tick) (h : Half) (a : Fin 64) : Statement (.accSample t h a) := rfl
theorem windowOpen (t : Tick) (h : Half) (a : Fin 64) (tick : Tick) : Statement (.windowOpen t h a tick) := rfl
theorem windowClose (t : Tick) (h : Half) (a : Fin 64) (tick : Tick) : Statement (.windowClose t h a tick) := rfl
theorem accRecordWrite (t : Tick) (h : Half) (a : Fin 64) : Statement (.accRecordWrite t h a) := rfl
theorem accRecordRead (t : Tick) (m : Master) (h : Half) (a : Fin 64) : Statement (.accRecordRead t m h a) := rfl
theorem accSumRead (t : Tick) (m : Master) (h : Half) (a : Fin 64) : Statement (.accSumRead t m h a) := rfl
theorem sentEdge (t : Tick) (e : SentFall) : Statement (.sentEdge t e) := rfl
theorem sentIntervalTimeout (t : Tick) (r : Fin 6) : Statement (.sentIntervalTimeout t r) := rfl
theorem sentDataRead (t : Tick) (m : Master) (r : Fin 6) : Statement (.sentDataRead t m r) := rfl
theorem sentSerialRead (t : Tick) (m : Master) (r : Fin 6) : Statement (.sentSerialRead t m r) := rfl
theorem coltStart (t : Tick) (m : Master) (e : Fin 8) : Statement (.coltStart t m e) := rfl
theorem coltStop (t : Tick) (m : Master) (e : Fin 8) : Statement (.coltStop t m e) := rfl
theorem coltFlush (t : Tick) (m : Master) (e : Fin 8) : Statement (.coltFlush t m e) := rfl
theorem coltEngineCycle (t : Tick) (e : Fin 8) (pins : BitVec 16) : Statement (.coltEngineCycle t e pins) := rfl
theorem coltPaceEdge (t : Tick) (e : Fin 8) (pins : BitVec 16) : Statement (.coltPaceEdge t e pins) := rfl
theorem coltTrigger (t : Tick) (e : Fin 8) : Statement (.coltTrigger t e) := rfl
theorem coltInject (t : Tick) (m : Master) (e : Fin 8) (v : Word) : Statement (.coltInject t m e v) := rfl
theorem coltTableCommit (t : Tick) (m : Master) (e : Fin 8) (i : Fin 64) (v : Word) : Statement (.coltTableCommit t m e i v) :=
  rfl
theorem coltTableStage (t : Tick) (m : Master) (e : Fin 8) (i : Fin 64) (v : Word) : Statement (.coltTableStage t m e i v) :=
  rfl
theorem coltTxPush (t : Tick) (m : Master) (e : Fin 8) (v : Word) : Statement (.coltTxPush t m e v) := rfl
theorem coltRxPop (t : Tick) (m : Master) (e : Fin 8) : Statement (.coltRxPop t m e) := rfl
theorem coltFlagSet (t : Tick) (m : Master) (v : Word) : Statement (.coltFlagSet t m v) := rfl
theorem coltFlagClear (t : Tick) (m : Master) (v : Word) : Statement (.coltFlagClear t m v) := rfl
theorem muleCommit (t : Tick) (m : Master) (c : Fin 16) : Statement (.muleCommit t m c) := rfl
theorem muleStop (t : Tick) (m : Master) (c : Fin 16) : Statement (.muleStop t m c) := rfl
theorem muleWithdraw (t : Tick) (m : Master) (c : Fin 16) : Statement (.muleWithdraw t m c) := rfl
theorem muleEnableWrite (t : Tick) (m : Master) (c : Fin 16) (v : Word) : Statement (.muleEnableWrite t m c v) := rfl
theorem muleShadowWrite (t : Tick) (m : Master) (c : Fin 16) (w : Fin 4) (v : Word) : Statement (.muleShadowWrite t m c w v) :=
  rfl
theorem muleRequest (t : Tick) (src : Fin 46) (line : Fin 16) : Statement (.muleRequest t src line) := rfl
theorem muleSoftwareRequest (t : Tick) (m : Master) (v : Word) : Statement (.muleSoftwareRequest t m v) := rfl
theorem muleBurst (t : Tick) (c : Fin 16) (accesses : Nat) : Statement (.muleBurst t c accesses) :=
  by simp [Statement, Instr.wf]
theorem muleReadbackEnd (t : Tick) (c : Fin 16) : Statement (.muleReadbackEnd t c) := rfl
theorem irqSourceRaise (t : Tick) (n : Byte) : Statement (.irqSourceRaise t n) := rfl
theorem irqPendSet (t : Tick) (m : Master) (k : Fin 8) (v : Word) : Statement (.irqPendSet t m k v) := rfl
theorem irqPendClear (t : Tick) (m : Master) (k : Fin 8) (v : Word) : Statement (.irqPendClear t m k v) := rfl
theorem irqEnableSet (t : Tick) (m : Master) (k : Fin 8) (v : Word) : Statement (.irqEnableSet t m k v) := rfl
theorem irqEnableClear (t : Tick) (m : Master) (k : Fin 8) (v : Word) : Statement (.irqEnableClear t m k v) := rfl
theorem irqClaim (t : Tick) (m : Master) (g : Fin 2) : Statement (.irqClaim t m g) := rfl
theorem irqComplete (t : Tick) (m : Master) (g : Fin 2) (v : Word) : Statement (.irqComplete t m g v) := rfl
theorem linkBitLock (t : Tick) : Statement (.linkBitLock t) := rfl
theorem linkCharacter (t : Tick) (c : LinkChar) : Statement (.linkCharacter t c) := by
  cases c with
  | control b => simp [Statement, Instr.wf, LinkChar.wf]
  | _ => rfl
theorem commaTimeout (t : Tick) : Statement (.commaTimeout t) := rfl
theorem downHoldEnd (t : Tick) : Statement (.downHoldEnd t) := rfl
theorem frameReceived (t : Tick) (f : Frame) : Statement (.frameReceived t f) :=
  by simp [Statement, Instr.wf, Frame.wf]
theorem frameLengthTimeout (t : Tick) : Statement (.frameLengthTimeout t) := rfl
theorem answerReceived (t : Tick) (nak : Bool) (seq code crc : Byte) : Statement (.answerReceived t nak seq code crc) :=
  rfl
theorem ackTimeout (t : Tick) : Statement (.ackTimeout t) := rfl
theorem nakFullResend (t : Tick) : Statement (.nakFullResend t) := rfl
theorem frameTransmit (t : Tick) : Statement (.frameTransmit t) := rfl
theorem regRd (t : Tick) : Statement (.regRd t) := rfl
theorem regWr (t : Tick) : Statement (.regWr t) := rfl
theorem dmdStage (t : Tick) : Statement (.dmdStage t) := rfl
theorem dmdCommitMessage (t : Tick) : Statement (.dmdCommitMessage t) := rfl
theorem ctxStage (t : Tick) : Statement (.ctxStage t) := rfl
theorem ctxCommitMessage (t : Tick) : Statement (.ctxCommitMessage t) := rfl
theorem heartbeat (t : Tick) : Statement (.heartbeat t) := rfl
theorem nvmPass (t : Tick) : Statement (.nvmPass t) := rfl
theorem statusPeriod (t : Tick) : Statement (.statusPeriod t) := rfl
theorem streamBytesAdded (t : Tick) (b : Fin 4) (n : Nat) : Statement (.streamBytesAdded t b n) :=
  by simp [Statement, Instr.wf]
theorem streamFlushTimeout (t : Tick) (b : Fin 4) : Statement (.streamFlushTimeout t b) := rfl
theorem heartbeatLate (t : Tick) : Statement (.heartbeatLate t) := rfl
theorem hostLossGraceEnd (t : Tick) (h : Half) : Statement (.hostLossGraceEnd t h) := rfl
theorem spiNop (t : Tick) : Statement (.spiNop t) := rfl
theorem spiRd (t : Tick) (w : BitVec 20) : Statement (.spiRd t w) := rfl
theorem spiWr (t : Tick) (w : BitVec 20) (v : Word) : Statement (.spiWr t w v) := rfl
theorem spiHb (t : Tick) (v : Word) : Statement (.spiHb t v) := rfl
theorem spiMsgrd (t : Tick) : Statement (.spiMsgrd t) := rfl
theorem spiFrameReject (t : Tick) (why : SpiReject) : Statement (.spiFrameReject t why) := by
  cases why with
  | command c => simp [Statement, Instr.wf, SpiReject.wf]
  | _ => rfl
theorem flashCommand (t : Tick) (m : Master) (v : Word) : Statement (.flashCommand t m v) := rfl
theorem flashCommandDone (t : Tick) (bytes : List Byte) : Statement (.flashCommandDone t bytes) :=
  by simp [Statement, Instr.wf]
theorem faultReaction (t : Tick) (cls : FaultClass) (sc : Scope) : Statement (.faultReaction t cls sc) := by
  cases sc <;> cases cls <;> simp [Statement, Instr.wf, FaultClass.scopeOk]
theorem eccReadError (t : Tick) (addr : Word) (double : Bool) : Statement (.eccReadError t addr double) := rfl
theorem scrubPass (t : Tick) (differs : Bool) : Statement (.scrubPass t differs) := rfl
theorem parityError (t : Tick) (sc : Scope) : Statement (.parityError t sc) := rfl
theorem clockMonitorWindow (t : Tick) (w : Clocks) (tree : Option Half) : Statement (.clockMonitorWindow t w tree) :=
  rfl
theorem pllMStop (t : Tick) : Statement (.pllMStop t) := rfl
theorem supplyWindowFault (t : Tick) (out : BitVec 6) : Statement (.supplyWindowFault t out) := rfl
theorem temperatureSample (t : Tick) (logic power : Int) : Statement (.temperatureSample t logic power) := rfl
theorem ganderEdge (t : Tick) (h : Half) (e : GanderEdge) : Statement (.ganderEdge t h e) := rfl
theorem ganderLagTimeout (t : Tick) (h : Half) : Statement (.ganderLagTimeout t h) := rfl
theorem sentinelTimeout (t : Tick) : Statement (.sentinelTimeout t) := rfl
theorem returnHeartbeatTimeout (t : Tick) : Statement (.returnHeartbeatTimeout t) := rfl
theorem laneWordError (t : Tick) : Statement (.laneWordError t) := rfl
theorem laneHandshakeTimeout (t : Tick) : Statement (.laneHandshakeTimeout t) := rfl
theorem safeReqQualified (t : Tick) : Statement (.safeReqQualified t) := rfl
theorem safeReqRelease (t : Tick) : Statement (.safeReqRelease t) := rfl
theorem safRecoverWrite (t : Tick) (m : Master) (v : Word) : Statement (.safRecoverWrite t m v) := rfl
theorem deviceSafeEnd (t : Tick) : Statement (.deviceSafeEnd t) := rfl
theorem safTest (t : Tick) (m : Master) (v : Word) : Statement (.safTest t m v) := rfl
theorem safTestDone (t : Tick) (pass : BitVec 5) : Statement (.safTestDone t pass) := rfl
theorem crossLinkLoss (t : Tick) (h : Half) : Statement (.crossLinkLoss t h) := rfl
theorem crossLinkReturn (t : Tick) (h : Half) : Statement (.crossLinkReturn t h) := rfl
theorem registerWrite (t : Tick) (m : Master) (addr v : Word) : Statement (.registerWrite t m addr v) := rfl
theorem fastDecayEnd (t : Tick) (h : Half) (b : Fin 6) : Statement (.fastDecayEnd t h b) := rfl

end Sys2Proof.Laws.Occurs
end

