-- ==== Sys2Proof/Laws/Quiet.lean ====
section
/-! SUPPORT. What the safe endings leave alone: the device mode, the time base, the bus, the grade, which halves
operate, and, but for the entry itself, the half modes. -/

namespace Sys2Proof.Machine

open Sys2Proof

/-- Between two devices nothing that only resets, power and SERVICE change has changed; with `k`, no half has
changed its mode either. -/
structure Quiet (k : Bool) (d e : Dev) : Prop where
  mode : e.mode = d.mode
  grade : e.grade = d.grade
  timeRun : e.timeRun = d.timeRun
  timeBase : e.timeBase = d.timeBase
  busRun : e.busRun = d.busRun
  stopped : e.stopped = d.stopped
  waitReset : e.waitReset = d.waitReset
  heldUp : e.heldUp = d.heldUp
  fromWake : e.fromWake = d.fromWake
  pmA : e.pmA = d.pmA
  pmB : e.pmB = d.pmB
  wakeOut : e.wakeOut = d.wakeOut
  wakeReq : e.wakeReq = d.wakeReq
  keySlot : e.keySlot = d.keySlot
  trimCells : e.trimCells = d.trimCells
  wear : e.wear = d.wear
  sections : e.sections = d.sections
  pins : e.pins = d.pins
  onA : e.a.enabled = d.a.enabled
  onB : e.b.enabled = d.b.enabled
  modes : k = true → e.a.mode = d.a.mode ∧ e.b.mode = d.b.mode

namespace Quiet

theorem refl (k : Bool) (d : Dev) : Quiet k d d :=
  ⟨rfl, rfl, rfl, rfl, rfl, rfl, rfl, rfl, rfl, rfl, rfl, rfl, rfl, rfl, rfl, rfl, rfl, rfl, rfl, rfl, fun _ => ⟨rfl, rfl⟩⟩

theorem trans {k : Bool} {d e f : Dev} (h : Quiet k d e) (g : Quiet k e f) : Quiet k d f :=
  ⟨g.1.trans h.1, g.2.trans h.2, g.3.trans h.3, g.4.trans h.4, g.5.trans h.5, g.6.trans h.6, g.7.trans h.7,
    g.8.trans h.8, g.9.trans h.9, g.10.trans h.10, g.11.trans h.11, g.12.trans h.12, g.13.trans h.13,
    g.14.trans h.14, g.15.trans h.15, g.16.trans h.16, g.17.trans h.17, g.18.trans h.18, g.19.trans h.19,
    g.20.trans h.20, fun hk => ⟨(g.21 hk).1.trans (h.21 hk).1, (g.21 hk).2.trans (h.21 hk).2⟩⟩

theorem weaken {k : Bool} {d e : Dev} (h : Quiet k d e) : Quiet false d e := { h with modes := fun hk => by cases hk }

/-- A record update of other fields. -/
theorem mk' {k : Bool} {z e : Dev} {regs : List (Nat × Word)} {freeCtr : Nat} {answer : Answer}
    {driven : List (Half × Nat × Bool)} {debugReq : Bool} {svcKey : Option (Master × Nat)}
    {keyUndef : Bool} {keyStage : List Byte} {keyBusy : Bool} {ctx : Option Ctx} {ctxOwner : Option Master}
    {tmbLatch angLatch : List (Nat × Word)} {fireT : List (Nat × TmrArm)} {firedT : List (Nat × TmrFire)} {pwm : List (Nat × Pwm)}
    {pwmForce pwmHalt dlBad : Bool} {convs : List (Nat × Conv)} {accs : List (Nat × Acc)}
    {sent : List (Nat × Sent)} {colt : List (Nat × Colt)} {gflagOld : Option FlagCycle}
    {mule : List (Nat × Mule)} {irq : Irq} {sends : List Send} {link : Link} {devSafe : Bool} {lastFault : Option Nat}
    {recover : Bool} {halfReact : Option (Nat × Nat)} {sentinel hbRun : Bool} {hbSince : Nat}
    {laneFault safeReq pllStop : Bool} {tests : BitVec 5} {xlkA xlkB : Bool} {snap : Option Snap} {a b : HalfSt}
    (ha : a.enabled = e.a.enabled) (hb : b.enabled = e.b.enabled)
    (hm : k = true → a.mode = e.a.mode ∧ b.mode = e.b.mode) (h : Quiet k z e) :
    Quiet k z (Dev.mk regs e.grade e.mode e.timeRun e.timeBase freeCtr a b answer e.stopped e.busRun e.waitReset
      e.heldUp driven e.fromWake debugReq svcKey e.pmA e.pmB e.wakeOut e.wakeReq e.keySlot keyUndef keyStage keyBusy
      e.trimCells e.wear e.sections e.pins ctx ctxOwner tmbLatch angLatch fireT firedT pwm pwmForce pwmHalt dlBad convs
      accs sent colt gflagOld mule irq sends link devSafe lastFault recover halfReact sentinel hbRun hbSince
      laneFault safeReq pllStop tests xlkA xlkB snap) :=
  h.trans ⟨rfl, rfl, rfl, rfl, rfl, rfl, rfl, rfl, rfl, rfl, rfl, rfl, rfl, rfl, rfl, rfl, rfl, rfl, ha, hb, hm⟩

theorem foldl {k : Bool} {z e : Dev} {α : Type} {g : Dev → α → Dev} {l : List α} (h : Quiet k z e)
    (hg : ∀ d x, Quiet k z d → Quiet k z (g d x)) : Quiet k z (l.foldl g e) := by
  induction l generalizing e with
  | nil => exact h
  | cons x l ih => exact ih (hg e x h)

theorem ite' {k : Bool} {z a b : Dev} {c : Prop} [Decidable c] (ha : Quiet k z a) (hb : Quiet k z b) :
    Quiet k z (if c then a else b) := by split <;> assumption

theorem foldlM {k : Bool} {z : Dev} {e : DevMem} {α : Type} {g : DevMem → α → DevMem} {l : List α} (h : Quiet k z e.1)
    (hg : ∀ y x, Quiet k z y.1 → Quiet k z (g y x).1) : Quiet k z (l.foldl g e).1 := by
  induction l generalizing e with
  | nil => exact h
  | cons x l ih => exact ih (hg e x h)

theorem iteM {k : Bool} {z : Dev} {a b : DevMem} {c : Prop} [Decidable c] (ha : Quiet k z a.1) (hb : Quiet k z b.1) :
    Quiet k z (if c then a else b).1 := by split <;> assumption

theorem dev {k : Bool} {z : Dev} {y : DevMem} {g : Dev → Dev} (h : Quiet k z (g y.1)) : Quiet k z (y.dev g).1 := h

theorem wr {k : Bool} {z d : Dev} (a : Nat) (v : Word) (h : Quiet k z d) : Quiet k z (d.wr a v) :=
  mk' rfl rfl (fun _ => ⟨rfl, rfl⟩) h

theorem setHalf {k : Bool} {z d : Dev} {h : Half} {s : HalfSt} (hz : Quiet k z d)
    (he : s.enabled = (d.half h).enabled) (hm : k = true → s.mode = (d.half h).mode) :
    Quiet k z (d.setHalf h s) := by
  cases h
  · exact mk' he rfl (fun hk => ⟨hm hk, rfl⟩) hz
  · exact mk' rfl he (fun hk => ⟨rfl, hm hk⟩) hz

theorem onHalf {k : Bool} {z d : Dev} {h : Half} {g : HalfSt → HalfSt} (hz : Quiet k z d)
    (hg : ∀ s, (g s).enabled = s.enabled ∧ (k = true → (g s).mode = s.mode)) :
    Quiet k z (d.onHalf h g) := setHalf hz (hg _).1 (hg _).2


/-! ### Registers, sources, messages -/

theorem setF {k : Bool} {z d : Dev} (a : Nat) (x : Fld) (n : Nat) (q : Quiet k z d) : Quiet k z (d.setF a x n) :=
  q.wr _ _

theorem setB {k : Bool} {z d : Dev} (a : Nat) (x : Fld) (b : Bool) (q : Quiet k z d) : Quiet k z (d.setB a x b) :=
  q.wr _ _

theorem incF {k : Bool} {z d : Dev} (a : Nat) (x : Fld) (q : Quiet k z d) : Quiet k z (d.incF a x) := q.wr _ _

theorem satF {k : Bool} {z d : Dev} (a : Nat) (x : Fld) (q : Quiet k z d) : Quiet k z (d.satF a x) := q.wr _ _

theorem again {k : Bool} {z d : Dev} (a : Nat) (x : Fld) (q : Quiet k z d) : Quiet k z (d.again a x) :=
  mk' rfl rfl (fun _ => ⟨rfl, rfl⟩) q

theorem mark {k : Bool} {z d : Dev} (a : Nat) (x : Fld) (q : Quiet k z d) : Quiet k z (d.mark a x) :=
  ite' (q.again _ _) (q.setB _ _ _)

theorem setBitN {k : Bool} {z d : Dev} (a i : Nat) (q : Quiet k z d) : Quiet k z (d.setBitN a i) := q.mark _ _

theorem raise {k : Bool} {z d : Dev} (n : Nat) (q : Quiet k z d) : Quiet k z (d.raise n) :=
  mk' rfl rfl (fun _ => ⟨rfl, rfl⟩) q

theorem raiseH {k : Bool} {z d : Dev} (h : Half) (n : Nat) (q : Quiet k z d) : Quiet k z (d.raiseH h n) := q.raise _

theorem flag {k : Bool} {z d : Dev} (a : Nat) (x : Fld) (n : Nat) (q : Quiet k z d) : Quiet k z (d.flag a x n) :=
  ite' (q.again _ _) ((q.setB _ _ _).raise _)

theorem flagH {k : Bool} {z d : Dev} (h : Half) (a : Nat) (x : Fld) (n : Nat) (q : Quiet k z d) :
    Quiet k z (d.flagH h a x n) := q.flag _ _ _

theorem send {k : Bool} {z d : Dev} (x : Send) (q : Quiet k z d) : Quiet k z (d.send x) :=
  mk' rfl rfl (fun _ => ⟨rfl, rfl⟩) q

theorem queueFrame {k : Bool} {z d : Dev} (p : Nat) (ty : Byte) (l : List Byte) (q : Quiet k z d) :
    Quiet k z (d.queueFrame p ty l) := ite' (mk' rfl rfl (fun _ => ⟨rfl, rfl⟩) q) q

theorem queueStatus {k : Bool} {z d : Dev} (r : Byte) (q : Quiet k z d) : Quiet k z (d.queueStatus r) :=
  ite' (mk' rfl rfl (fun _ => ⟨rfl, rfl⟩) q) (q.queueFrame _ _ _)

/-! ### Tables of a half and of the device -/

theorem setChan {k : Bool} {z d : Dev} (h : Half) (c : Nat) (x : Chan) (q : Quiet k z d) :
    Quiet k z (d.setChan h c x) := q.onHalf fun _ => ⟨rfl, fun _ => rfl⟩

theorem setBank {k : Bool} {z d : Dev} (h : Half) (b : Nat) (x : Bank) (q : Quiet k z d) :
    Quiet k z (d.setBank h b x) := q.onHalf fun _ => ⟨rfl, fun _ => rfl⟩

theorem setIgn {k : Bool} {z d : Dev} (h : Half) (n : Nat) (x : Ign) (q : Quiet k z d) :
    Quiet k z (d.setIgn h n x) := q.onHalf fun _ => ⟨rfl, fun _ => rfl⟩

theorem setBoost {k : Bool} {z d : Dev} (h : Half) (x : Boost) (q : Quiet k z d) : Quiet k z (d.setBoost h x) :=
  q.onHalf fun _ => ⟨rfl, fun _ => rfl⟩

theorem setTrack {k : Bool} {z d : Dev} (h : Half) (x : Track) (q : Quiet k z d) : Quiet k z (d.setTrack h x) :=
  q.onHalf fun _ => ⟨rfl, fun _ => rfl⟩

theorem setAcc {k : Bool} {z d : Dev} (h : Half) (a : Nat) (x : Acc) (q : Quiet k z d) : Quiet k z (d.setAcc h a x) :=
  mk' rfl rfl (fun _ => ⟨rfl, rfl⟩) q

theorem setConv {k : Bool} {z d : Dev} (h : Half) (n : Nat) (x : Conv) (q : Quiet k z d) :
    Quiet k z (d.setConv h n x) := mk' rfl rfl (fun _ => ⟨rfl, rfl⟩) q

theorem setColt {k : Bool} {z d : Dev} (e : Nat) (x : Colt) (q : Quiet k z d) : Quiet k z (d.setColt e x) :=
  mk' rfl rfl (fun _ => ⟨rfl, rfl⟩) q

/-! ### Outputs -/

theorem bankStat {k : Bool} {z d : Dev} (h : Half) (b : Nat) (q : Quiet k z d) : Quiet k z (d.bankStat h b) :=
  (q.setB _ _ _).setF _ _ _

theorem endShot {k : Bool} {z d : Dev} (h : Half) (b t : Nat) (g : Shot → Shot) (q : Quiet k z d) :
    Quiet k z (d.endShot h b t g) := by
  unfold Dev.endShot
  dsimp only
  split
  · exact q
  · exact ite' q ((q.setBank _ _ _).bankStat _ _)

theorem cutBank {k : Bool} {z d : Dev} (h : Half) (b : Nat) (q : Quiet k z d) : Quiet k z (d.cutBank h b) := by
  unfold Dev.cutBank
  dsimp only
  split
  · exact q
  · exact ite' (ite' (q.setBank _ _ _) q) (q.endShot _ _ _ _)

theorem ignStat {k : Bool} {z d : Dev} (h : Half) (n : Nat) (q : Quiet k z d) : Quiet k z (d.ignStat h n) :=
  ((q.setB _ _ _).setB _ _ _).setF _ _ _

theorem softOff {k : Bool} {z d : Dev} (h : Half) (n : Nat) (q : Quiet k z d) : Quiet k z (d.softOff h n) := by
  unfold Dev.softOff
  extract_lets x d1
  have q1 : Quiet k z d1 := by
    simp only [d1]
    split
    · exact q.setF _ _ _
    · exact q
  exact ite' q ((q1.setIgn _ _ _).ignStat _ _)

theorem gaoDrive {k : Bool} {z d : Dev} (h : Half) (n : Nat) (l : Bool) (q : Quiet k z d) :
    Quiet k z (d.gaoDrive h n l) := (q.setB _ _ _).setB _ _ _

theorem gaoSafe {k : Bool} {z d : Dev} (h : Half) (n : Nat) (q : Quiet k z d) : Quiet k z (d.gaoSafe h n) := by
  unfold Dev.gaoSafe
  refine ite' ?_ q
  split
  · exact q.gaoDrive _ _ _
  · exact q.gaoDrive _ _ _
  · exact (q.setB _ _ _).setB _ _ _

theorem pinSet {k : Bool} {z d : Dev} (n : Nat) (l : Option Bool) (q : Quiet k z d) : Quiet k z (d.pinSet n l) := by
  cases l with
  | none => exact q.setB _ _ _
  | some b => exact (q.setB _ _ _).setB _ _ _

theorem pinSafe {k : Bool} {z d : Dev} (n : Nat) (q : Quiet k z d) : Quiet k z (d.pinSafe n) := by
  unfold Dev.pinSafe
  split <;> exact q.pinSet _ _

theorem coltHalt {k : Bool} {z d : Dev} (e c : Nat) (q : Quiet k z d) : Quiet k z (d.coltHalt e c) :=
  foldl (((q.setColt _ _).setF _ _ _).setF _ _ _) fun _ n h => h.pinSafe n

theorem unsend {k : Bool} {z d : Dev} (x : Send) (q : Quiet k z d) : Quiet k z (d.unsend x) :=
  mk' rfl rfl (fun _ => ⟨rfl, rfl⟩) q

theorem unfire {k : Bool} {z d : Dev} (n : Nat) (q : Quiet k z d) : Quiet k z (d.unfire n) := by
  unfold Dev.unfire
  split
  · exact q
  · next x _ =>
    extract_lets d1 s d2
    have q1 : Quiet k z d1 := by
      simp only [d1]
      split
      · exact q.unsend _
      · exact q
    have q2 : Quiet k z d2 := mk' rfl rfl (fun _ => ⟨rfl, rfl⟩) (q1.wr _ _)
    exact ite' (mk' rfl rfl (fun _ => ⟨rfl, rfl⟩) q2) q2

theorem timerCancel {k : Bool} {z d : Dev} (n : Nat) (q : Quiet k z d) : Quiet k z (d.timerCancel n) :=
  ite' (mk' rfl rfl (fun _ => ⟨rfl, rfl⟩) (((q.unfire n).setB _ _ _).mark _ _)) (q.unfire n)

theorem timersCancel {k : Bool} {z d : Dev} (p : Nat → Bool) (q : Quiet k z d) : Quiet k z (d.timersCancel p) :=
  mk' rfl rfl (fun _ => ⟨rfl, rfl⟩) (foldl q fun _ n h => ite' (h.timerCancel n) h)

theorem tripPair {k : Bool} {z d : Dev} (p : Nat) (q : Quiet k z d) : Quiet k z (d.tripPair p) :=
  ite' q (ite' ((q.setB _ _ _).flag _ _ _) ((q.setB _ _ _).raise _))

theorem pwmSafe {k : Bool} {z d : Dev} (h : Half) (q : Quiet k z d) : Quiet k z (d.pwmSafe h) :=
  foldl q fun _ p h => h.tripPair p

theorem hbRestart {k : Bool} {z d : Dev} (q : Quiet k z d) : Quiet k z d.hbRestart :=
  ite' (mk' rfl rfl (fun _ => ⟨rfl, rfl⟩) q) q

theorem gateOff {k : Bool} {z d : Dev} (h : Half) (q : Quiet k z d) : Quiet k z (d.gateOff h) := q.setBoost _ _

/-! ### Accumulators and converters -/

theorem accWrite {k : Bool} {z d : Dev} (h : Half) (a : Nat) (q : Quiet k z d) : Quiet k z (d.accWrite h a) := by
  unfold Dev.accWrite
  extract_lets x
  split
  · exact q
  · with_reducible
      refine setAcc _ _ _ ?_
      repeat' first | exact q | apply ite' | apply send | apply raiseH | apply mark | apply setB | apply wr

theorem accClose {k : Bool} {z d : Dev} (h : Half) (a t : Nat) (i : Bool) (q : Quiet k z d) :
    Quiet k z (d.accClose h a t i) := ite' (((q.setAcc _ _ _).setF _ _ _).setB _ _ _) q

theorem accCut {k : Bool} {z d : Dev} (h : Half) (a : Nat) (q : Quiet k z d) : Quiet k z (d.accCut h a) :=
  q.setAcc _ _ _

theorem accSafe {k : Bool} {z d : Dev} (h : Half) (q : Quiet k z d) : Quiet k z (d.accSafe h) :=
  foldl q fun _ _ q => ite' (ite' (q.accClose _ _ _ _) (q.accCut _ _)) q

theorem urgentCancel {k : Bool} {z d : Dev} (h : Half) (s : Bool) (q : Quiet k z d) : Quiet k z (d.urgentCancel h s) :=
  mk' rfl rfl (fun _ => ⟨rfl, rfl⟩) (foldl (foldl q fun _ _ q => (foldl q fun _ _ q => q.setBitN _ _).setConv _ _ _)
    fun _ _ q => q.setBitN _ _)

/-! ### Commits and transactions -/

theorem setCommit {k : Bool} {z d : Dev} (h : Half) (c : Option Commit) (q : Quiet k z d) :
    Quiet k z (d.setCommit h c) :=
  (((((q.onHalf fun _ => ⟨rfl, fun _ => rfl⟩ : Quiet k z (d.onHalf h fun s => { s with commit := c })).setF _ _ _).setB
    _ _ _).setB _ _ _).setF _ _ _)

theorem onCommit {k : Bool} {z d : Dev} (h : Half) (g : Commit → Commit) (q : Quiet k z d) :
    Quiet k z (d.onCommit h g) := by
  unfold Dev.onCommit
  split
  · exact q.setCommit _ _
  · exact q

theorem resumeCommit {k : Bool} {z d : Dev} (h : Half) (q : Quiet k z d) : Quiet k z (d.resumeCommit h) := by
  unfold Dev.resumeCommit
  split
  · exact ite' (foldl q fun _ _ q => q.onCommit _ _) q
  · exact q

theorem resumeCtx {k : Bool} {z d : Dev} (q : Quiet k z d) : Quiet k z d.resumeCtx := by
  unfold Dev.resumeCtx
  split
  · exact ite' (mk' rfl rfl (fun _ => ⟨rfl, rfl⟩) q) q
  · exact q

theorem writeResult {k : Bool} {z d : Dev} (h : Half) (code : Nat) (c s : Option Nat) (b x : Bool)
    (q : Quiet k z d) : Quiet k z (d.writeResult h code c s b x) := by
  unfold Dev.writeResult
  extract_lets res d1 d2 d3 d4
  have q1 : Quiet k z d1 := (q.wr _ _).mark _ _
  have q2 : Quiet k z d2 := ite' (q1.mark _ _) (ite' (q1.mark _ _) q1)
  have q3 : Quiet k z d3 := ite' (((q2.wr _ _).wr _ _).wr _ _) q2
  have q4 : Quiet k z d4 := q3.raiseH _ _
  exact ite' (q4.queueFrame _ _ _) q4

theorem endCommit {k : Bool} {z d : Dev} (h : Half) (code : Nat) (c s : Option Nat) (g : Half) (q : Quiet k z d) :
    Quiet k z (d.endCommit h code c s g) :=
  (foldl q fun _ _ q => (q.setCommit _ _).writeResult _ _ _ _ _ _).resumeCtx

theorem endCtx {k : Bool} {z d : Dev} (code check : Nat) (e : Option Nat) (q : Quiet k z d) :
    Quiet k z (d.endCtx code check e) := by
  unfold Dev.endCtx
  extract_lets w src d1 d2
  have q1 : Quiet k z d1 := mk' rfl rfl (fun _ => ⟨rfl, rfl⟩) (q.wr _ _)
  have q2 : Quiet k z d2 := ite' (((q1.wr _ _).wr _ _).wr _ _) q1
  exact ((q2.raise _).resumeCommit _).resumeCommit _

theorem leaveAngle {k : Bool} {z d : Dev} (h : Half) (m : HMode) (q : Quiet k z d) : Quiet k z (d.leaveAngle h m) := by
  unfold Dev.leaveAngle
  refine ite' ?_ q
  extract_lets phi d1
  have q1 : Quiet k z d1 := by
    show Quiet k z (match (d.half h).commit with
      | some c => _
      | none => _)
    cases (d.half h).commit with
    | none => exact q
    | some c => exact ite' (ite' (q.onCommit _ _) (q.endCommit _ _ _ _ _)) q
  cases d1.ctx with
  | none => exact q1
  | some x => exact ite' (ite' (mk' rfl rfl (fun _ => ⟨rfl, rfl⟩) q1) (q1.endCtx _ _ _)) q1

/-! ### Channels -/

theorem choose {k : Bool} {z d : Dev} (h : Half) (c : Nat) (q : Quiet k z d) : Quiet k z (d.choose h c) :=
  (q.setChan _ _ _).setB _ _ _

theorem withhold {k : Bool} {z d : Dev} (h : Half) (c : Nat) (q : Quiet k z d) : Quiet k z (d.withhold h c) :=
  (((q.setChan _ _ _).wr _ _).setB _ _ _).setB _ _ _

theorem rechoose {k : Bool} {z d : Dev} (h : Half) (c : Nat) (q : Quiet k z d) : Quiet k z (d.rechoose h c) := by
  unfold Dev.rechoose
  split
  · exact q
  · exact q
  · exact q
  · exact ite' (q.choose _ _) (q.withhold _ _)

theorem countSlots {k : Bool} {z d : Dev} (h : Half) (q : Quiet k z d) : Quiet k z (d.countSlots h) :=
  (q.setF _ _ _).setF _ _ _

theorem freeSlot {k : Bool} {z d : Dev} (h : Half) (c : Nat) (q : Quiet k z d) : Quiet k z (d.freeSlot h c) := by
  unfold Dev.freeSlot
  split
  · exact q
  · refine countSlots _ (setChan _ _ _ (onHalf q ?_))
    exact fun _ => ⟨rfl, fun _ => rfl⟩

theorem releaseSlot {k : Bool} {z d : Dev} (h : Half) (c : Nat) (q : Quiet k z d) : Quiet k z (d.releaseSlot h c) := by
  unfold Dev.releaseSlot
  split
  · refine countSlots _ (onHalf (setChan _ _ _ (setChan _ _ _ q)) ?_)
    exact fun _ => ⟨rfl, fun _ => rfl⟩
  · exact q.freeSlot _ _

theorem endOfEarlier {k : Bool} {z d : Dev} (h : Half) (c : Nat) (q : Quiet k z d) : Quiet k z (d.endOfEarlier h c) :=
  foldl q fun _ _ q => ite' (q.setChan _ _ _) q

theorem closeOcc {k : Bool} {z d : Dev} (h : Half) (c : Nat) (q : Quiet k z d) : Quiet k z (d.closeOcc h c) := by
  unfold Dev.closeOcc
  extract_lets d0 d1 x src d2 st d3 d4
  have q0 : Quiet k z d0 := ite' (q.setB _ _ _) q
  have q1 : Quiet k z d1 := q0.releaseSlot _ _
  have q2 : Quiet k z d2 := (q1.setChan _ _ _).endOfEarlier _ _
  have q3 : Quiet k z d3 := (q2.setB _ _ _).setB _ _ _
  have q4 : Quiet k z d4 := ite' q3 (q3.setB _ _ _)
  exact q4.rechoose _ _

theorem markDrop {k : Bool} {z d : Dev} (h : Half) (c r : Nat) (cut : Bool) (q : Quiet k z d) :
    Quiet k z (d.markDrop h c r cut) := by
  unfold Dev.markDrop
  extract_lets st was d1 d2
  have q2 : Quiet k z d2 := (((q.setF _ _ _).mark _ _).satF _ _).satF _ _
  exact ite' q2 (q2.raiseH _ _)

theorem dropOcc {k : Bool} {z d : Dev} (h : Half) (c r : Nat) (cut : Bool) (q : Quiet k z d) :
    Quiet k z (d.dropOcc h c r cut) := (q.markDrop _ _ _ _).closeOcc _ _

theorem untake {k : Bool} {z d : Dev} (h : Half) (c : Nat) (q : Quiet k z d) : Quiet k z (d.untake h c) := by
  unfold Dev.untake
  extract_lets d1 x d2
  have q1 : Quiet k z d1 := (q.freeSlot _ _).setB _ _ _
  have q2 : Quiet k z d2 := ite' (q1.setB _ _ _) q1
  exact (q2.setChan _ _ _).rechoose _ _

theorem endOcc {k : Bool} {z d : Dev} (h : Half) (r c : Nat) (q : Quiet k z d) : Quiet k z (d.endOcc h r c) := by
  unfold Dev.endOcc
  dsimp only
  split
  · refine ite' q (dropOcc _ _ _ _ (ite' ?_ q))
    exact q.accClose _ _ _ _
  · exact ite' (q.untake _ _) (q.dropOcc _ _ _ _)
  · exact ite' (q.untake _ _) (q.dropOcc _ _ _ _)
  · exact ite' (q.dropOcc _ _ _ _) (q.rechoose _ _)
  · exact q.rechoose _ _

theorem endOccs {k : Bool} {z d : Dev} (h : Half) (r : Nat) (q : Quiet k z d) : Quiet k z (d.endOccs h r) :=
  foldl q fun _ _ q => q.endOcc _ _ _

theorem coltSafe {k : Bool} {z d : Dev} (h : Half) (q : Quiet k z d) : Quiet k z (d.coltSafe h) :=
  foldl q fun _ _ q => ite' (q.coltHalt _ _) q

theorem endOutputs {k : Bool} {z d : Dev} (h : Half) (halt : Bool) (q : Quiet k z d) :
    Quiet k z (d.endOutputs h halt) := by
  unfold Dev.endOutputs
  extract_lets d1 d2 d3
  have q1 : Quiet k z d1 := foldl q fun _ _ q => ite' q (q.cutBank _ _)
  have q2 : Quiet k z d2 := foldl q1 fun _ _ q => ite' q (q.softOff _ _)
  have q3 : Quiet k z d3 := foldl q2 fun _ _ q => ite' q (q.gaoSafe _ _)
  have q4 : Quiet k z (((d3.accSafe h).urgentCancel h halt).permitsClosed h) :=
    ((q3.accSafe h).urgentCancel h halt).onHalf fun _ => ⟨rfl, fun _ => rfl⟩
  exact q4.onHalf fun _ => ⟨rfl, fun _ => rfl⟩

theorem endLinked {k : Bool} {z d : Dev} (h : Half) (q : Quiet k z d) : Quiet k z (d.endLinked h) :=
  ((q.timersCancel _).pwmSafe h).coltSafe h

/-! ### Mode entries -/

theorem interp {k : Bool} {z d : Dev} (h : Half) (q : Quiet k z d) : Quiet k z (d.interp h) :=
  ite' (q.setTrack _ _) q

theorem setMode {z d : Dev} (h : Half) (m : HMode) (q : Quiet false z d) : Quiet false z (d.setMode h m) :=
  (queueStatus _ (q.onHalf (h := h) (g := fun s => { s with prev := s.mode, mode := m }) fun _ =>
    ⟨rfl, fun hk => by cases hk⟩)).setB _ _ _

theorem ganderMode {k : Bool} {z d : Dev} (h : Half) (m : HMode) (q : Quiet k z d) : Quiet k z (d.ganderMode h m) := by
  unfold Dev.ganderMode
  split
  · exact q
  all_goals
    refine onHalf q ?_
    exact fun _ => ⟨rfl, fun _ => rfl⟩

end Quiet

namespace Dev

/-- What a mode entry does after the mode itself is set. -/
theorem enterMode_after (d : Dev) (h : Half) (m : HMode) :
    Quiet true (((d.interp h).leaveAngle h m).setMode h m) (d.enterMode h m) := by
  unfold enterMode
  extract_lets first e0 st tr d1 d2 d3 w d4 d5 d6
  let d0 := ((d.interp h).leaveAngle h m).setMode h m
  have q0 : Quiet true d0 e0 := (Quiet.refl true d0).onHalf fun _ => ⟨rfl, fun _ => rfl⟩
  have q1 : Quiet true d0 d1 := q0.setB _ _ _
  have q2 : Quiet true d0 d2 :=
    Quiet.ite' q1 ((((Quiet.foldl q1 fun _ _ q => q.setB _ _ _).setB _ _ _).setB _ _ _).onHalf
      fun _ => ⟨rfl, fun _ => rfl⟩)
  have q3 : Quiet true d0 d3 := Quiet.ite' q2 (((q2.setB _ _ _).setB _ _ _).setB _ _ _)
  have q4 : Quiet true d0 d4 := (q3.setB _ _ _).setB _ _ _
  have q5 : Quiet true d0 d5 :=
    Quiet.ite' q4 (((q4.setF _ _ _).setB _ _ _).onHalf fun _ => ⟨rfl, fun _ => rfl⟩)
  have q6 : Quiet true d0 d6 := Quiet.ite' ((q5.wr _ _).wr _ _) q5
  exact q6.ganderMode _ _

/-- A half mode set: this half has it, the other keeps its own. -/
theorem hmode_setMode (d : Dev) (h g : Half) (m : HMode) :
    (d.setMode h m).hmode g = if g = h then m else d.hmode g := by
  have q := (Quiet.refl true (d.onHalf h fun s => { s with prev := s.mode, mode := m })).queueStatus 2
  have q1 : Quiet true (d.onHalf h fun s => { s with prev := s.mode, mode := m }) (d.setMode h m) := q.setB _ _ _
  have e := q1.modes rfl
  cases g <;> cases h
  · exact e.1
  · exact e.1
  · exact e.2
  · exact e.2

theorem hmode_of_quiet {d e : Dev} (q : Quiet true d e) (g : Half) : e.hmode g = d.hmode g := by
  cases g
  · exact (q.modes rfl).1
  · exact (q.modes rfl).2

/-- A mode entered: this half has it, the other keeps its own. -/
theorem hmode_enterMode (d : Dev) (h g : Half) (m : HMode) :
    (d.enterMode h m).hmode g = if g = h then m else d.hmode g := by
  rw [hmode_of_quiet (d.enterMode_after h m), hmode_setMode,
    hmode_of_quiet (((Quiet.refl true d).interp h).leaveAngle h m)]

theorem quiet_enterMode (d : Dev) (h : Half) (m : HMode) : Quiet false d (d.enterMode h m) :=
  (((((Quiet.refl true d).interp h).leaveAngle h m).weaken).setMode h m).trans (d.enterMode_after h m).weaken

/-- What a safe ending does after its mode entry. -/
theorem endHalf_after (d : Dev) (h : Half) (m : HMode) (r : Nat) :
    Quiet true (d.enterMode h m) (d.endHalf h m r) :=
  (((Quiet.refl true _).endOccs h r).endOutputs h false).endLinked h

theorem hmode_endHalf (d : Dev) (h g : Half) (m : HMode) (r : Nat) :
    (d.endHalf h m r).hmode g = if g = h then m else d.hmode g := by
  rw [hmode_of_quiet (d.endHalf_after h m r), hmode_enterMode]

theorem quiet_endHalf (d : Dev) (h : Half) (m : HMode) (r : Nat) : Quiet false d (d.endHalf h m r) :=
  (d.quiet_enterMode h m).trans (d.endHalf_after h m r).weaken

/-- SAFE entered: an operating half is in SAFE, one that does not operate stays so. -/
theorem hmode_enterSafe (d : Dev) (h g : Half) (r : Nat) (f : Bool) :
    (d.enterSafe h r f).hmode g = if g = h ∧ d.hmode h ≠ .off then .safe else d.hmode g := by
  unfold enterSafe
  split
  · next e => by_cases hg : g = h <;> simp [hg, e]
  · next e => by_cases hg : g = h <;> simp [hg, e]
  · next e1 e2 =>
    have q : Quiet true (d.endHalf h .safe r)
        ((d.endHalf h .safe r).onHalf h fun s => { s with wheel := { s.wheel with byFault := f } }) :=
      (Quiet.refl true _).onHalf fun _ => ⟨rfl, fun _ => rfl⟩
    rw [hmode_of_quiet q, hmode_endHalf]
    have e3 : d.hmode h ≠ .off := e2
    simp only [e3, ne_eq, not_false_eq_true, and_true]

theorem quiet_enterSafe (d : Dev) (h : Half) (r : Nat) (f : Bool) : Quiet false d (d.enterSafe h r f) := by
  unfold enterSafe
  split
  · exact Quiet.refl _ _
  · exact Quiet.refl _ _
  · refine Quiet.onHalf (d.quiet_endHalf h .safe r) ?_
    exact fun _ => ⟨rfl, fun _ => rfl⟩

theorem quiet_recordFault (d : Dev) (c : FaultClass) (sc : Scope) : Quiet true d (d.recordFault c sc) := by
  unfold recordFault
  extract_lets k d1 d2 d3
  have q1 : Quiet true d d1 := (((Quiet.refl true d).mark _ _).setF _ _ _).setF _ _ _
  have q2 : Quiet true d d2 := Quiet.ite' q1 ((((q1.setF _ _ _).setF _ _ _).setB _ _ _).wr _ _)
  have q3 : Quiet true d d3 := Quiet.mk' rfl rfl (fun _ => ⟨rfl, rfl⟩) q2
  cases sc with
  | half h => exact q3.raiseH _ _
  | device => exact q3.raise _

theorem quiet_haltHalf (d : Dev) (h : Half) : Quiet true d (d.haltHalf h) := by
  refine Quiet.ite' (Quiet.refl _ _) (Quiet.endOutputs _ _ (Quiet.foldl (Quiet.refl _ _) ?_))
  intro e c q
  unfold haltOcc
  split
  · exact q.endOcc _ _ _
  · exact q.endOcc _ _ _
  · exact q

/-- HALT entered: the device mode, and no half mode. -/
theorem enterHalt_modes (d : Dev) : d.enterHalt.mode = .halt ∧ ∀ g : Half, d.enterHalt.hmode g = d.hmode g := by
  have q : Quiet true { d with mode := .halt, debugReq := false } d.enterHalt := by
    unfold enterHalt
    extract_lets d1 d2
    have q2 : Quiet true d1 d2 :=
      (((d1.quiet_haltHalf .a).trans ((d1.haltHalf .a).quiet_haltHalf .b)).timersCancel _).queueStatus _
    have q3 : Quiet true d1 d2.coltFreeze := Quiet.foldl q2 fun _ _ q => Quiet.ite' q (q.setColt _ _)
    exact Quiet.mk' rfl rfl (fun _ => ⟨rfl, rfl⟩) q3
  exact ⟨q.mode, fun g => (hmode_of_quiet q g).trans (by cases g <;> rfl)⟩

end Dev

end Sys2Proof.Machine
end

