-- ==== Sys2Proof/Laws/Ram.lean ====
section
/-! SUPPORT. Every operation that may write RAM keeps its canonical form. -/

namespace Sys2Proof.Machine

open Sys2Proof

/-- A fold of operations that each keep the form keeps it. -/
theorem foldl_wf {β : Type} (f : List Host.Cell → β → List Host.Cell)
    (hf : ∀ m b, Memory.wf m = true → Memory.wf (f m b) = true) (l : List β) {m : List Host.Cell}
    (h : Memory.wf m = true) : Memory.wf (l.foldl f m) = true := by
  induction l generalizing m with
  | nil => exact h
  | cons b l ih => exact ih (hf m b h)

theorem setW_wf {m : List Host.Cell} (h : Half) (k : Nat) (v : Int) (hm : Memory.wf m = true) :
    Memory.wf (setW m h k v) = true := Memory.setBytes_wf _ _ hm

theorem setP_wf {m : List Host.Cell} (h : Half) (k : Nat) (v : Int) (hm : Memory.wf m = true) :
    Memory.wf (setP m h k v) = true := Memory.setWord_wf _ _ hm

namespace Dev

variable {y : DevMem}

/-! ### The tooth log -/

theorem logPut_wf (h : Half) (w : Word) (hy : Memory.wf y.2 = true) : Memory.wf (logPut y h w).2 = true :=
  Memory.setWord_wf _ _ hy

theorem logMark_wf (h : Half) (code data : Nat) (hy : Memory.wf y.2 = true) :
    Memory.wf (logMark y h code data).2 = true := logPut_wf h _ hy

theorem logPeriod_wf (h : Half) (kind p : Nat) (hy : Memory.wf y.2 = true) :
    Memory.wf (logPeriod y h kind p).2 = true := logPut_wf h _ hy

theorem enterSeek_wf (h : Half) (hy : Memory.wf y.2 = true) : Memory.wf (enterSeek y h).2 = true := by
  unfold enterSeek; exact logMark_wf h _ _ hy

theorem enterRundown_wf (h : Half) (hy : Memory.wf y.2 = true) : Memory.wf (enterRundown y h).2 = true := by
  unfold enterRundown; exact logMark_wf h _ _ hy

theorem loseSync_wf (h : Half) (r i c t : Nat) (hy : Memory.wf y.2 = true) :
    Memory.wf (loseSync y h r i c t).2 = true := by
  unfold loseSync; exact logMark_wf h _ _ hy

theorem lose_wf (h : Half) (r c t : Nat) (hy : Memory.wf y.2 = true) :
    Memory.wf (lose y h r c t).2 = true := by
  unfold lose; exact loseSync_wf h _ _ _ _ hy

theorem enterLimp_wf (h : Half) (b : Bool) (hy : Memory.wf y.2 = true) :
    Memory.wf (enterLimp y h b).2 = true := by
  unfold enterLimp; exact logMark_wf h _ _ hy

/-! ### Accepted and rejected edges -/

theorem rejectEdge_wf (h : Half) (t : Nat) (hy : Memory.wf y.2 = true) :
    Memory.wf (rejectEdge y h t).2 = true := by
  unfold rejectEdge
  extract_lets
  split
  · exact lose_wf h _ _ _ hy
  · exact hy

theorem learnW_wf (h : Half) (k : Nat) (e : Rat) (hy : Memory.wf y.2 = true) :
    Memory.wf (learnW y h k e).2 = true := setW_wf h _ _ hy

theorem learnP_wf (h : Half) (k : Nat) (e r : Rat) (hy : Memory.wf y.2 = true) :
    Memory.wf (learnP y h k e r).2 = true := setP_wf h _ _ hy

theorem learnEdge_wf (h : Half) (x : Track) (k t : Nat) (late : Bool) (hy : Memory.wf y.2 = true) :
    Memory.wf (learnEdge y h x k t late).2 = true := by
  unfold learnEdge
  extract_lets r e eps we rp y1 y2
  have h1 : Memory.wf y1.2 = true := by
    simp only [y1]; split
    · exact learnW_wf h _ _ hy
    · exact hy
  show Memory.wf y2.2 = true
  simp only [y2]; split
  · exact learnP_wf h _ _ _ h1
  · exact h1

theorem acceptCrank_wf (h : Half) (t : Nat) (p : Option Nat) (late early : Bool)
    (hy : Memory.wf y.2 = true) : Memory.wf (acceptCrank y h t p late early).2 = true := by
  unfold acceptCrank
  extract_lets d x k i ref phase mark d1 d2 d3 y1 y2 y3 y4
  have h1 : Memory.wf y1.2 = true := learnEdge_wf h _ _ _ _ hy
  have h2 : Memory.wf y2.2 = true := by
    simp only [y2]; split
    · exact logPeriod_wf h _ _ h1
    · exact h1
  split
  · exact enterRundown_wf h h2
  · exact h2

theorem classify_wf (h : Half) (t : Nat) (p : Option Nat) (hy : Memory.wf y.2 = true) :
    Memory.wf (classify y h t p).2 = true := by
  unfold classify
  extract_lets
  repeat' split
  all_goals first
    | with_reducible exact lose_wf h _ _ _ hy
    | exact acceptCrank_wf (y := y.dev _) h _ _ _ _ hy
    | exact rejectEdge_wf (y := y.dev _) h _ hy


/-! ### SEEK, RUNDOWN, LIMP -/

theorem crankSync_wf (h : Half) (k g p t : Nat) (b : Bool) (hy : Memory.wf y.2 = true) :
    Memory.wf (crankSync y h k g p t b).2 = true := by
  unfold crankSync
  extract_lets
  split
  · exact logMark_wf (y := (_, y.2)) h _ _ hy
  · exact hy

theorem seekEdge_wf (h : Half) (t p1 p : Nat) (hy : Memory.wf y.2 = true) :
    Memory.wf (seekEdge y h t p1 p).2 = true := by
  unfold seekEdge
  extract_lets d w n kept new all conf d1 pm
  clear_value all
  repeat' split
  all_goals first
    | with_reducible exact crankSync_wf h _ _ _ _ _ hy
    | exact hy

theorem rundownEdge_wf (h : Half) (t : Nat) (rev : Bool) (p : Option Nat) (hy : Memory.wf y.2 = true) :
    Memory.wf (rundownEdge y h t rev p).2 = true := by
  unfold rundownEdge
  extract_lets
  split
  · exact logPeriod_wf h _ _ hy
  · exact hy

theorem limpCrank_wf (h : Half) (p : Option Nat) (hy : Memory.wf y.2 = true) :
    Memory.wf (limpCrank y h p).2 = true := by
  unfold limpCrank
  split
  · exact hy
  · exact logPeriod_wf h _ _ hy

theorem crankInMode_wf (h : Half) (t : Nat) (rev chg : Bool) (p : Option Nat) (hy : Memory.wf y.2 = true) :
    Memory.wf (crankInMode y h t rev chg p).2 = true := by
  unfold crankInMode
  extract_lets d y0 keep
  have h0 : Memory.wf y0.2 = true := by
    simp only [y0]
    repeat' split
    all_goals first
      | exact hy
      | exact logMark_wf h _ _ hy
  have hk : ∀ p1 (z : DevMem), Memory.wf z.2 = true → Memory.wf (keep p1 z).2 = true := fun _ _ hz => hz
  split
  · exact hk _ _ h0
  · exact hk _ _ h0
  · exact hk _ _ (enterSeek_wf h h0)
  · rename_i y1 _ _
    have h1 : Memory.wf y1.2 = true := by
      simp only [y1]; split
      · exact h0
      · exact h0
    split
    · exact hk _ _ h1
    · extract_lets y2
      have h2 : Memory.wf y2.2 = true := logPeriod_wf h _ _ h1
      repeat' split
      all_goals first
        | exact hk _ _ h2
        | exact seekEdge_wf h _ _ _ h2
  · exact hk _ _ (rundownEdge_wf h _ _ _ h0)
  all_goals
    repeat' split
    all_goals first
      | exact hk _ _ (rundownEdge_wf h _ _ _ (enterRundown_wf h h0))
      | exact hk _ _ (limpCrank_wf h _ h0)
      | exact hk _ _ (classify_wf h _ _ h0)

theorem handCrank_wf (h : Half) (e : CrankEdge) (hy : Memory.wf y.2 = true) :
    Memory.wf (handCrank y h e).2 = true := by
  unfold handCrank
  extract_lets d s su
  split
  · exact hy
  · rename_i y0 minInt soon rev chg p lvl y1 k0 y2 _
    have h0 : Memory.wf y0.2 = true := by
      simp only [y0]; split
      · exact hy
      · exact hy
    split
    · exact h0
    · have h2 : Memory.wf y2.2 = true := crankInMode_wf (y := y1) h _ _ _ _ h0
      split
      · exact h2
      · exact h2

theorem handover_wf (h : Half) (hy : Memory.wf y.2 = true) : Memory.wf (handover y h).2 = true := by
  unfold handover
  split
  · exact hy
  · split
    · exact handCrank_wf (y := y.dev _) h _ hy
    · exact hy

theorem repeat_wf (g : DevMem → DevMem) (hg : ∀ z : DevMem, Memory.wf z.2 = true → Memory.wf (g z).2 = true) (n : Nat)
    (hy : Memory.wf y.2 = true) : Memory.wf (Nat.repeat g n y).2 = true := by
  induction n with
  | zero => exact hy
  | succ n ih => exact hg _ ih

theorem handovers_wf (h : Half) (hy : Memory.wf y.2 = true) : Memory.wf (handovers y h).2 = true :=
  repeat_wf _ (fun _ hz => handover_wf h hz) _ hy

/-! ### Cam edges -/

theorem camBadEdge_wf (h : Half) (c : Nat) (hy : Memory.wf y.2 = true) :
    Memory.wf (camBadEdge y h c).2 = true := by
  unfold camBadEdge
  extract_lets
  repeat' split
  all_goals first
    | with_reducible exact enterLimp_wf h _ hy
    | exact hy

theorem camVote_wf (h : Half) (c : Nat) (l : Bool) (hy : Memory.wf y.2 = true) :
    Memory.wf (camVote y h c l).2 = true := by
  unfold camVote
  extract_lets
  repeat' split
  all_goals first
    | exact logMark_wf (y := (_, y.2)) h _ _ hy
    | exact hy

theorem camCheck_wf (h : Half) (c t : Nat) (l : Bool) (hy : Memory.wf y.2 = true) :
    Memory.wf (camCheck y h c t l).2 = true := by
  unfold camCheck
  extract_lets
  repeat' split
  all_goals first
    | with_reducible exact lose_wf h _ _ _ hy
    | with_reducible exact enterLimp_wf h _ hy
    | with_reducible exact camBadEdge_wf h _ hy
    | exact hy

theorem limpEdge_wf (h : Half) (c t : Nat) (l : Bool) (hy : Memory.wf y.2 = true) :
    Memory.wf (limpEdge y h c t l).2 = true := by
  unfold limpEdge
  extract_lets
  repeat' split
  all_goals first
    | with_reducible exact lose_wf h _ _ _ hy
    | with_reducible exact rejectEdge_wf h _ hy
    | (extract_lets; split <;> first | with_reducible exact enterRundown_wf h hy | exact hy)
    | exact hy

theorem handCam_wf (h : Half) (c t : Nat) (l : Bool) (hy : Memory.wf y.2 = true) :
    Memory.wf (handCam y h c t l).2 = true := by
  unfold handCam
  extract_lets y1
  have h1 : Memory.wf y1.2 = true := hy
  repeat' split
  all_goals first
    | with_reducible exact h1
    | with_reducible exact camVote_wf h _ _ h1
    | with_reducible exact camCheck_wf h _ _ _ h1
    | exact limpEdge_wf (y := y1.dev _) h _ _ _ h1

theorem handCamOf_wf (h : Half) (c : Nat) (hy : Memory.wf y.2 = true) : Memory.wf (handCamOf y h c).2 = true := by
  unfold handCamOf
  split
  · exact hy
  · split
    · exact handCam_wf (y := y.dev _) h _ _ _ hy
    · exact hy

theorem foldlM_wf {α : Type} (g : DevMem → α → DevMem)
    (hg : ∀ (z : DevMem) (a : α), Memory.wf z.2 = true → Memory.wf (g z a).2 = true) (l : List α)
    (hy : Memory.wf y.2 = true) : Memory.wf (l.foldl g y).2 = true := by
  induction l generalizing y with
  | nil => exact hy
  | cons a l ih => exact ih (hg _ _ hy)

theorem handoverCam_wf (h : Half) (c : Nat) (hy : Memory.wf y.2 = true) :
    Memory.wf (handoverCam y h c).2 = true :=
  foldlM_wf _ (fun _ _ hz => handCamOf_wf h _ hz) _ (handovers_wf h hy)

theorem camMissing_wf (h : Half) (c : Nat) (hy : Memory.wf y.2 = true) :
    Memory.wf (camMissing y h c).2 = true := by
  unfold camMissing
  extract_lets
  split
  · split
    · exact camBadEdge_wf (y := (_, y.2)) h _ hy
    · exact hy
  · exact hy

theorem park_wf (h : Half) (hy : Memory.wf y.2 = true) : Memory.wf (park y h).2 = true := by
  unfold park
  extract_lets d w s d1
  have h1 : Memory.wf (logMark (d1, y.2) h 0x08 w.k).2 = true := logMark_wf h _ _ hy
  exact h1

theorem stall_wf (h : Half) (hy : Memory.wf y.2 = true) : Memory.wf (stall y h).2 = true := by
  unfold stall
  split
  · exact hy
  split
  all_goals first
    | with_reducible exact enterRundown_wf h hy
    | with_reducible exact park_wf h hy
    | exact hy

/-! ### Learned tables -/

theorem adjustTables_wf (h : Half) (hy : Memory.wf y.2 = true) : Memory.wf (adjustTables y h).2 = true := by
  unfold adjustTables
  extract_lets d l ks mw m1 sp mp m2
  have h1 : Memory.wf m1 = true := foldl_wf _ (fun m k hm => setW_wf h _ _ hm) ks hy
  have h2 : Memory.wf m2 = true := foldl_wf _ (fun m k hm => setP_wf h _ _ hm) ks h1
  show Memory.wf (if mw = 0 ∧ mp = 0 then y.2 else m2) = true
  split
  · exact hy
  · exact h2

theorem derive_wf (h : Half) (hy : Memory.wf y.2 = true) : Memory.wf (derive y h).2 = true := by
  unfold derive
  extract_lets
  split
  · exact hy
  · exact hy

theorem clearW_wf (h : Half) (hy : Memory.wf y.2 = true) : Memory.wf (clearW y h).2 = true :=
  Memory.clear_wf _ _ hy

theorem clearP_wf (h : Half) (hy : Memory.wf y.2 = true) : Memory.wf (clearP y h).2 = true :=
  Memory.clear_wf _ _ hy

theorem learnCtl_wf (h : Half) (v : Word) (hy : Memory.wf y.2 = true) :
    Memory.wf (learnCtl y h v).2 = true := by
  unfold learnCtl
  extract_lets a y0 y1
  have h1 : Memory.wf y1.2 = true := by
    simp only [y1]; split
    · exact clearW_wf (y := y0) h hy
    · exact hy
  split
  · exact clearP_wf h h1
  · exact h1

theorem learnWrite_wf (h : Half) (j : Nat) (v : Word) (hy : Memory.wf y.2 = true) :
    Memory.wf (learnWrite y h j v).2 = true := by
  unfold learnWrite
  split
  · exact Memory.setWord_wf _ _ hy
  · exact hy

theorem onWriteMem_wf (a : Nat) (g : DevMem → DevMem)
    (hg : ∀ z : DevMem, Memory.wf z.2 = true → Memory.wf (g z).2 = true) (hy : Memory.wf y.2 = true) :
    Memory.wf (onWriteMem y a g).2 = true := by
  unfold onWriteMem
  split
  · exact hg _ hy
  · exact hy

/-! ### Configuration transactions -/

theorem tablesChanged_wf (h : Half) (as : List Nat) (hy : Memory.wf y.2 = true) :
    Memory.wf (tablesChanged y h as).2 = true := by
  unfold tablesChanged
  extract_lets y1
  have h1 : Memory.wf y1.2 = true := by
    simp only [y1]; split
    · exact clearP_wf h (clearW_wf h hy)
    · exact hy
  split
  · exact h1
  · exact h1

theorem ctxApply_wf (es : List (Nat × Word)) (hy : Memory.wf y.2 = true) :
    Memory.wf (ctxApply y es).2 = true := by
  unfold ctxApply
  extract_lets d0 d1 ch d2 d3 d4 d5 d6
  exact tablesChanged_wf .b _ (tablesChanged_wf (y := (d6, y.2)) .a _ hy)

theorem ctxSwitchNow_wf (x : Ctx) (hy : Memory.wf y.2 = true) : Memory.wf (ctxSwitchNow y x).2 = true := by
  unfold ctxSwitchNow
  extract_lets
  split
  · exact hy
  · exact ctxApply_wf _ hy

theorem ctxChecked_wf (hy : Memory.wf y.2 = true) : Memory.wf (ctxChecked y).2 = true := by
  unfold ctxChecked
  extract_lets
  repeat' split
  all_goals first
    | (extract_lets; split <;> first | with_reducible exact ctxSwitchNow_wf (y := (_, y.2)) _ hy | exact hy)
    | exact hy

theorem ctxSwitched_wf (hy : Memory.wf y.2 = true) : Memory.wf (ctxSwitched y).2 = true := by
  unfold ctxSwitched
  repeat' split
  all_goals first
    | with_reducible exact ctxSwitchNow_wf _ hy
    | exact hy

end Dev

/-! ### The load and the power-up -/

theorem put_wf {y : DevMem} (x : Image.Wr) (hy : Memory.wf y.2 = true) : Memory.wf (Image.put y x).2 = true := by
  unfold Image.put
  split
  · exact Memory.setWord_wf _ _ hy
  all_goals exact hy

theorem putAll_wf (l : List Image.Wr) {y : DevMem} (hy : Memory.wf y.2 = true) :
    Memory.wf (l.foldl Image.put y).2 = true := by
  induction l generalizing y with
  | nil => exact hy
  | cons x l ih => exact ih (put_wf x hy)

theorem streamed_wf {y : DevMem} (flash : List Byte) (off n : Nat) (hy : Memory.wf y.2 = true) :
    Memory.wf (Image.streamed y flash off n).2 = true := Memory.load_wf _ _ hy

theorem loadCopy_wf {y : DevMem} (flash : List Byte) (off size : Nat) (hy : Memory.wf y.2 = true) :
    Memory.wf (Image.loadCopy y flash off size).1.2 = true := by
  unfold Image.loadCopy
  extract_lets
  split
  · exact streamed_wf _ _ _ hy
  · split
    · exact streamed_wf _ _ _ hy
    · split
      · exact streamed_wf _ _ _ hy
      · split
        · exact streamed_wf _ _ _ hy
        · split
          · exact streamed_wf _ _ _ hy
          · extract_lets
            exact streamed_wf _ _ _ (putAll_wf _ hy)

theorem load_wf {y : DevMem} (flash : List Byte) (size : Nat) (hy : Memory.wf y.2 = true) :
    Memory.wf (Image.load y flash size).1.2 = true := by
  have hc : ∀ (y : DevMem) (off : Nat) (z : DevMem) (r : Except Image.Fail Image.Info), Memory.wf y.2 = true →
      Image.loadCopy y flash off size = (z, r) → Memory.wf z.2 = true := fun y off z r hy e => by
    have := loadCopy_wf flash off size hy
    rw [e] at this
    exact this
  unfold Image.load
  split
  · exact hy
  · split
    · next z i h => exact (hc _ _ z _ hy h : Memory.wf z.2 = true)
    · next z f h =>
      split
      · exact (hc _ _ z _ hy h : Memory.wf z.2 = true)
      · extract_lets y2
        split
        · next z i h2 => exact (hc y2 _ z _ hy h2 : Memory.wf z.2 = true)
        · next z g h2 => exact (hc y2 _ z _ hy h2 : Memory.wf z.2 = true)

namespace Dev

variable {y : DevMem}

theorem startHalf_ram (h : Half) : (startHalf y h).2 = y.2 := by
  unfold startHalf
  extract_lets
  split <;> rfl

theorem enterOperate_wf (env : PowerUp) (hy : Memory.wf y.2 = true) :
    Memory.wf (enterOperate y env).2 = true := by
  unfold enterOperate
  extract_lets y1 y2
  show Memory.wf (startHalf (startHalf y2 .a) .b).2 = true
  rw [startHalf_ram, startHalf_ram]
  exact hy

theorem loadImage_wf (env : PowerUp) (n : Nat) (hy : Memory.wf y.2 = true) :
    Memory.wf (loadImage y env n).2 = true := by
  unfold loadImage
  extract_lets r
  have hr : Memory.wf r.1.2 = true := load_wf _ _ hy
  clear_value r
  split
  · exact hr
  · exact enterOperate_wf (y := r.1.dev _) env hr

theorem afterClocks_wf (env : PowerUp) (hy : Memory.wf y.2 = true) :
    Memory.wf (afterClocks y env).2 = true := by
  unfold afterClocks
  extract_lets d
  split
  · exact hy
  · split
    · rfl
    · exact loadImage_wf (y := (_, [])) env _ rfl

theorem sequence_wf (t : Nat) (env : PowerUp) (hy : Memory.wf y.2 = true) :
    Memory.wf (sequence y t env).2 = true := by
  unfold sequence
  extract_lets
  split
  · exact hy
  · exact hy
  · exact afterClocks_wf (y := (_, y.2)) env hy

theorem begin_wf (t : Nat) (env : PowerUp) (hy : Memory.wf y.2 = true) :
    Memory.wf (begin y t env).2 = true := by
  unfold begin
  split
  · exact hy
  · exact sequence_wf t env hy

theorem supply_wf (t : Nat) (env : PowerUp) (hy : Memory.wf y.2 = true) :
    Memory.wf (supply y t env).2 = true := by
  unfold supply
  repeat' split
  all_goals first
    | exact begin_wf (y := y.dev _) t env hy
    | with_reducible exact begin_wf t env hy
    | exact hy

theorem released_wf (hy : Memory.wf y.2 = true) : Memory.wf (released y).2 = true := by
  unfold released
  extract_lets y1
  repeat' split
  all_goals first
    | exact sequence_wf (y := y1) _ _ hy
    | exact hy

end Dev

/-! ### The bus -/

/-- What a command of the bus keeps: the queue, and the form of RAM. -/
def State.Keeps (s s' : State) : Prop :=
  s'.pending = s.pending ∧ (Memory.wf s.ram = true → Memory.wf s'.ram = true)

/-- An answer that goes on and keeps. -/
def Out.Goes (o : Out) (s : State) : Prop := ∃ s', o = .next s' ∧ s.Keeps s'

theorem State.Keeps.refl (s : State) : s.Keeps s := ⟨rfl, id⟩

theorem State.Keeps.trans {a b c : State} (h : a.Keeps b) (h' : b.Keeps c) : a.Keeps c :=
  ⟨h'.1.trans h.1, fun x => h'.2 (h.2 x)⟩

theorem State.Keeps.dev {s : State} (d : Dev) : s.Keeps { s with dev := d } := ⟨rfl, id⟩

theorem goes_onDev (s : State) (t : Tick) (g : Dev → Dev) : Out.Goes (s.onDev t g) s := ⟨_, rfl, rfl, id⟩

theorem goes_onBoth (s : State) (t : Tick) (g : Dev → List Host.Cell → Dev × List Host.Cell)
    (hg : ∀ d, Memory.wf s.ram = true → Memory.wf (g d s.ram).2 = true) : Out.Goes (s.onBoth t g) s :=
  ⟨_, rfl, rfl, fun h => hg _ h⟩

theorem keeps_after {o : Out} {s : State} (h : Out.Goes o s) : s.Keeps (after o s) := by
  obtain ⟨s', rfl, h⟩ := h
  exact h

/-- Every optional answer of a list of alternatives goes on. -/
def OptGoes (o : Option Out) (s : State) : Prop := ∀ x, o = some x → Out.Goes x s

theorem optGoes_none (s : State) : OptGoes none s := by intro x h; cases h

theorem optGoes_some {o : Out} {s : State} (h : Out.Goes o s) : OptGoes (some o) s := by
  intro x hx; cases hx; exact h

theorem optGoes_or {a b : Option Out} {s : State} (ha : OptGoes a s) (hb : OptGoes b s) : OptGoes (a.or b) s := by
  intro x hx
  cases a with
  | none => exact hb x (by simpa using hx)
  | some y => exact ha x (by simpa using hx)

theorem optGoes_map {α : Type} {a : Option α} {g : α → Out} {s : State} (h : ∀ n, Out.Goes (g n) s) :
    OptGoes (a.map g) s := by
  intro x hx
  cases a with
  | none => cases hx
  | some y => cases hx; exact h y

theorem goes_learnCtl (s : State) (t : Tick) (h : Half) (v : Word) :
    Out.Goes (s.onBoth t fun d m => Dev.onWriteMem (d, m) (Reg.ANG_LEARNCTL h) fun y => Dev.learnCtl y h v) s :=
  goes_onBoth s t _ fun d hm => Dev.onWriteMem_wf (y := (d, s.ram)) _ _ (fun _ hz => Dev.learnCtl_wf h v hz) hm

theorem goes_learnWrite (s : State) (t : Tick) (m : Master) (h : Half) (j : Fin 768) (v : Word) :
    Out.Goes (execLearnedTableWrite t m h j v s) s :=
  goes_onBoth s t _ fun d hm => Dev.onWriteMem_wf (y := (d, s.ram)) _ _ (fun _ hz => Dev.learnWrite_wf h _ v hz) hm

theorem halfCmd_goes (t : Tick) (m : Master) (h : Half) (o : Nat) (v : Word) (s : State) :
    OptGoes (halfCmd t m h o v s) s := by
  unfold halfCmd
  repeat' split
  all_goals first
    | exact optGoes_none s
    | exact optGoes_some (goes_learnCtl s t h v)
    | exact optGoes_some (goes_onDev s t _)
    | exact optGoes_or (optGoes_map fun _ => goes_onDev s t _) (optGoes_map fun _ => goes_onDev s t _)
    | (refine optGoes_some ?_; unfold dmdCmtWord; split <;> exact goes_onDev s t _)

theorem devCmd_goes (t : Tick) (m : Master) (a : Nat) (v : Word) (s : State) :
    OptGoes (sysCmd t m a v s) s ∧ OptGoes (irqCmd t m a v s) s ∧ OptGoes (muleCmd t m a v s) s ∧
      OptGoes (timeCmd t m a v s) s ∧ OptGoes (coltCmd t m a v s) s ∧ OptGoes (portCmd t m a v s) s := by
  refine ⟨?_, ?_, ?_, ?_, ?_, ?_⟩
  · unfold sysCmd
    repeat' split
    all_goals first
      | exact optGoes_some (goes_onDev s t _)
      | (refine optGoes_some ?_; unfold ctxCtlWord; split <;> exact goes_onDev s t _)
      | exact optGoes_or (optGoes_or (optGoes_map fun _ => goes_onDev s t _) (optGoes_map fun _ => goes_onDev s t _))
          (optGoes_map fun _ => goes_onDev s t _)
  · unfold irqCmd
    extract_lets
    repeat' split
    all_goals first
      | exact optGoes_some (goes_onDev s t _)
      | exact optGoes_or (optGoes_map fun _ => goes_onDev s t _) (optGoes_map fun _ => goes_onDev s t _)
  · unfold muleCmd
    extract_lets
    repeat' split
    all_goals first
      | exact optGoes_none s
      | exact optGoes_some (goes_onDev s t _)
      | (refine optGoes_some ?_; unfold muleCmdWord; split <;> exact goes_onDev s t _)
  · unfold timeCmd
    extract_lets
    repeat' split
    all_goals first
      | exact optGoes_none s
      | exact optGoes_some (goes_onDev s t _)
      | exact optGoes_or (optGoes_map fun _ => goes_onDev s t _) (optGoes_map fun _ => goes_onDev s t _)
  · unfold coltCmd
    extract_lets
    repeat' split
    all_goals first
      | exact optGoes_none s
      | exact optGoes_some (goes_onDev s t _)
      | (refine optGoes_some ?_; unfold coltCtrlWord; split <;> exact goes_onDev s t _)
  · unfold portCmd
    repeat' split
    all_goals first
      | exact optGoes_none s
      | exact optGoes_some (goes_onDev s t _)
      | exact optGoes_or (optGoes_map fun _ => goes_onDev s t _) (optGoes_map fun _ => goes_onDev s t _)

theorem goes_ramWrite (s : State) (t : Tick) (a : Nat) (v : Word) :
    Out.Goes (s.onBoth t fun d ram =>
      if d.reach a true then (d.okay 0, Memory.setWord ram a v) else (d.busErr, ram)) s := by
  refine goes_onBoth s t _ fun d hm => ?_
  cases d.reach a true
  · exact hm
  · exact Memory.setWord_wf _ _ hm

theorem optGoes_ite {c : Prop} [Decidable c] {x y : Option Out} {s : State} (hx : OptGoes x s) (hy : OptGoes y s) :
    OptGoes (if c then x else y) s := by
  split
  · exact hx
  · exact hy

theorem cmdAt_goes (t : Tick) (m : Master) (a : Nat) (v : Word) (s : State) : OptGoes (cmdAt t m a v s) s := by
  obtain ⟨h1, h2, h3, h4, h5, h6⟩ := devCmd_goes t m a v s
  unfold cmdAt
  refine optGoes_ite (optGoes_none s) ?_
  cases halfOffset a with
  | some x => exact halfCmd_goes _ _ _ _ _ _
  | none =>
    exact optGoes_ite h1 <| optGoes_ite h2 <| optGoes_ite h3 <| optGoes_ite h4 <| optGoes_ite h5 <|
      optGoes_ite h6 <| optGoes_ite (optGoes_some (goes_learnWrite ..)) <|
      optGoes_ite (optGoes_some (goes_learnWrite ..)) <| optGoes_ite (optGoes_some (goes_ramWrite ..))
      (optGoes_none s)

/-- A write of the bus keeps the queue and the form of RAM. -/
theorem busWrite_keeps (m : Master) (a : Nat) (v : Word) (s : State) : s.Keeps (busWrite m a v s) := by
  unfold busWrite
  extract_lets t
  split
  · next h => exact keeps_after (cmdAt_goes t m a v s _ h)
  · exact keeps_after (goes_onDev s t _)

theorem plainRead_ram (y : DevMem) (m : Master) (a : Nat) : (Dev.plainRead y m a).2 = y.2 := by
  unfold Dev.plainRead
  extract_lets
  repeat' split
  all_goals rfl

/-- What a read of the bus leaves alone: the queue and RAM. -/
theorem busRead_same (m : Master) (a : Nat) (s : State) :
    (busRead m a s).pending = s.pending ∧ (busRead m a s).ram = s.ram := by
  have hd : ∀ t g, (after (s.onDev t g) s).pending = s.pending ∧ (after (s.onDev t g) s).ram = s.ram :=
    fun _ _ => ⟨rfl, rfl⟩
  unfold busRead
  extract_lets t
  split
  · next o h =>
    unfold readCmd at h
    repeat' split at h
    all_goals first
      | (cases h; done)
      | (cases h; exact hd _ _)
      | (simp only [Option.map_eq_some_iff, Option.or_eq_some_iff] at h
         rcases h with ⟨_, _, rfl⟩ | ⟨_, _, _, rfl⟩ <;> exact hd _ _)
      | (simp only [Option.map_eq_some_iff] at h
         obtain ⟨_, _, rfl⟩ := h
         exact hd _ _)
  · exact ⟨rfl, plainRead_ram (_, s.ram) m a⟩

theorem busRead_keeps (m : Master) (a : Nat) (s : State) : s.Keeps (busRead m a s) :=
  ⟨(busRead_same m a s).1, fun h => by rw [(busRead_same m a s).2]; exact h⟩

/-! ### Ports and Mule: chains of bus accesses -/

theorem readWords_keeps (m : Master) (n : Nat) (a : Nat) (l : List Byte) (s : State) :
    s.Keeps (readWords m a n l s).1 := by
  induction n generalizing a l s with
  | zero => exact .refl s
  | succ n ih =>
    unfold readWords
    extract_lets s1
    split
    · exact busRead_keeps m a s
    · exact (busRead_keeps m a s).trans (ih _ _ _)

theorem writePairs_keeps (m : Master) (l : List (Nat × Word)) (n : Nat) (s : State) :
    s.Keeps (writePairs m l n s).1 := by
  induction l generalizing n s with
  | nil => exact .refl s
  | cons x l ih =>
    obtain ⟨a, v⟩ := x
    unfold writePairs
    extract_lets s1
    split
    · exact busWrite_keeps m a v s
    · exact (busWrite_keeps m a v s).trans (ih _ _)

theorem runFrame_keeps (type : Byte) (layout : List Byte → Bool) (allowed : Dev → Bool)
    (run : Bool × Frame → State → State) (hr : ∀ p (s : State), s.Keeps (run p s)) (s : State) :
    s.Keeps (runFrame type layout allowed run s) := by
  unfold runFrame
  split
  · exact .refl s
  · extract_lets s1
    split
    · exact .dev _
    · split
      · exact .dev _
      · exact (State.Keeps.dev (s := s) _).trans (hr _ s1)

theorem runRegRd_keeps (s : State) : s.Keeps (runRegRd s) :=
  runFrame_keeps _ _ _ _ (fun _ s => (readWords_keeps .link _ _ _ s).trans (.dev _)) s

theorem runRegWr_keeps (s : State) : s.Keeps (runRegWr s) :=
  runFrame_keeps _ _ _ _ (fun _ s => (writePairs_keeps .link _ _ s).trans (.dev _)) s

theorem runDmdStage_keeps (s : State) : s.Keeps (runDmdStage s) :=
  runFrame_keeps _ _ _ _ (fun _ s => (writePairs_keeps .link _ _ s).trans (.dev _)) s

theorem runDmdCommit_keeps (s : State) : s.Keeps (runDmdCommit s) :=
  runFrame_keeps _ _ _ _ (fun _ s => (writePairs_keeps .link _ _ s).trans (.dev _)) s

theorem runCtxStage_keeps (s : State) : s.Keeps (runCtxStage s) :=
  runFrame_keeps _ _ _ _ (fun _ s => (writePairs_keeps .link _ _ s).trans (.dev _)) s

theorem runCtxCommit_keeps (s : State) : s.Keeps (runCtxCommit s) :=
  runFrame_keeps _ _ _ _ (fun _ s => (writePairs_keeps .link _ _ s).trans (.dev _)) s

theorem runNvmPass_keeps (s : State) : s.Keeps (runNvmPass s) :=
  runFrame_keeps _ _ _ _ (fun _ s => by extract_lets; split <;> exact .dev _) s

theorem spiRun_keeps (s : State) (g : State → State) (hg : ∀ s : State, s.Keeps (g s)) : s.Keeps (spiRun s g) := by
  unfold spiRun
  split
  · exact (State.Keeps.dev (s := s) _).trans (hg _)
  · exact .refl s

theorem muleReadStep_keeps (c : Fin 16) (s : State) : s.Keeps (muleReadStep c s) := by
  unfold muleReadStep
  extract_lets
  split
  · split <;> exact (busRead_keeps (.mule c) _ s).trans (.dev _)
  · exact .dev _

theorem muleWriteStep_keeps (c : Fin 16) (s : State) : s.Keeps (muleWriteStep c s) := by
  unfold muleWriteStep
  extract_lets d x ctl a
  split
  · split <;> exact (busWrite_keeps (.mule c) _ _ s).trans (.dev _)
  · split
    · exact ⟨rfl, fun h => Memory.setBytes_wf _ _ h⟩
    · exact .dev _

theorem muleAccesses_keeps (c : Fin 16) (n : Nat) (s : State) : s.Keeps (muleAccesses c n s) := by
  induction n generalizing s with
  | zero => exact .refl s
  | succ n ih =>
    refine State.Keeps.trans ?_ (ih _)
    unfold muleAccess
    split
    · extract_lets s1 x
      split
      · exact (State.Keeps.dev (s := s) _).trans (muleReadStep_keeps c s1)
      · exact (State.Keeps.dev (s := s) _).trans (muleWriteStep_keeps c s1)
    · exact .refl s

theorem muleReadback_keeps (c : Fin 16) (s : State) : s.Keeps (muleReadback c s) := by
  unfold muleReadback
  extract_lets
  split
  · split
    · split <;> exact (busRead_keeps (.mule c) _ s).trans (.dev _)
    · exact .dev _
  · exact .refl s

end Sys2Proof.Machine
end

