-- ==== Sys2Proof/Tests/Slice0.lean ====
section
/-! SUPPORT. Tests: each statement's hypotheses are met together by a concrete state and operands (`witness_…`), the
checks of well-formedness refuse an ill-formed command each (`smoke_…`), and values that the spec itself gives
(`test_…`). A state is the state after reset with the fields that the case needs. -/

namespace Sys2Proof.Tests

open Sys2Proof Sys2Proof.Machine

set_option Elab.async false

/-- A device in OPERATE with both halves enabled in RUN, at tick 100,000. -/
def op : Dev :=
  { State.reset.dev with
    mode := .operate, busRun := true, timeRun := true, timeBase := 100000
    a := { Init.half with
      mode := .run, enabled := true, track := { Init.track with atT := 100000, clamp := 10 } }
    b := { Init.half with
      mode := .run, enabled := true, track := { Init.track with atT := 100000, clamp := 10 } } }

/-- The same with changes to Half A. -/
def opA (f : HalfSt → HalfSt) : Dev := { op with a := f op.a }

/-- Half A in a mode. -/
def inMode (m : HMode) : Dev := opA fun h => { h with mode := m }

/-- The state that holds a device. -/
def st (d : Dev) : State := { State.reset with dev := d }

/-- A device at its command's tick meets a condition. -/
abbrev At (d : Dev) (P : Dev → Prop) : Prop := P ((st d).devAt 100000)

/-! ### The block, power, transactions -/

theorem witness_front_command : (st op).pending = [] ∧
    ({ st op with pending := [.timerFire 0 3] } : State).pending = .timerFire 0 3 :: [] := by decide

theorem witness_ram_canonical : State.reset.ramOk ∧ step State.reset = .next State.reset :=
  ⟨rfl, rfl⟩

theorem witness_other_command : touchesRam (.timerFire 100000 3) = false ∧
    exec (.timerFire 100000 3) (st op) = .next (st op) := ⟨rfl, rfl⟩

theorem witness_unopened_access :
    busAccess (.softwareReset 100000 .jtag 0xC3A5) = some (100000, Reg.SYS_SWRST, true) ∧
      (State.reset.devAt 100000).reach Reg.SYS_SWRST true = false := by decide +kernel

theorem witness_reset_sources : At op fun d => d.powered = true ∧ d.reach Reg.SYS_SWRST true = true := by
  decide +kernel

theorem witness_supply_loss : At op fun d => d.powered = true := by decide +kernel

theorem witness_standby_wakes :
    (At { op with mode := .standby } fun d => d.mode = .standby ∧ d.wakeReq = false) ∧
      (At { op with mode := .standby, wakeReq := true } fun d => d.mode = .standby ∧ d.wakeReq = true) ∧
      (At { op with mode := .standby, pmA := { Init.phaseMem with src := 2 } } fun d => d.mode = .standby ∧
        (d.phaseMem .a).src = 2 ∧ (d.phaseMem .a).settled = false ∧ 10 * getF (d.phaseMem .a).dirCfg F.SNS_DIRCFG_QWIN < 1) ∧
      (At { op with mode := .standby, pmA := { Init.phaseMem with src := 1, dirCfg := 0x3C1E } } fun d =>
        d.mode = .standby ∧ (d.phaseMem .a).src = 1 ∧
        1000 * getF (d.phaseMem .a).dirCfg F.SNS_DIRCFG_FWD_MAX < 1000 * getF (d.phaseMem .a).dirCfg F.SNS_DIRCFG_REV_MIN) ∧
      (At { op with mode := .standby } fun d => (d.phaseMem .a).src = 0 ∧
        (d.phaseMem .a).entryT + 400000000 * d.f Reg.SYS_PMCFG (Dev.pmFields .a).1 ≤ 100000) ∧
      (At { op with mode := .standby, pmA := { Init.phaseMem with entryT := 100001 } } fun d =>
        100000 < (d.phaseMem .a).entryT + 400000000 * d.f Reg.SYS_PMCFG (Dev.pmFields .a).1) := by decide +kernel

/-- What power-up meets in the tests: a flash without SFDP, nothing that stops. -/
def env0 : PowerUp := ⟨true, true, none, 32, .noSfdp, [], 0, false, 0, 0⟩

/-- BOOT with the sequence to run, `RESET_N` low or not. -/
def boot (held : Bool) : Dev := { State.reset.dev with waitReset := held }

theorem witness_power_up :
    (At (boot false) fun d => d.mode = .boot ∧ d.stopped = false ∧ d.busRun = false ∧ d.waitReset = false ∧
      d.heldUp = none) ∧
      (At (boot true) fun d => d.mode = .boot ∧ d.stopped = false ∧ d.busRun = false ∧ d.waitReset = true) ∧
      (At { boot true with heldUp := some (7, env0) } fun d => d.mode = .boot ∧ d.stopped = false ∧
        d.busRun = false ∧ d.waitReset = true ∧ d.heldUp = some (7, env0)) ∧
      (State.reset.dev.grade = .tzn5120 ∧ env0.stop = none ∧ Dev.probed env0.probe = some (24, 0, false, false)) ∧
      ({ env0 with stop := some (.adc 3), probe := .silent } : PowerUp).stop = some (.adc 3) := by decide +kernel

theorem witness_halt_service :
    (At op fun d => d.mode = .operate ∧ d.svcKey = none ∧ d.reach Reg.SYS_SVCKEY true = true) ∧
      (At (boot false) fun d => d.mode = .boot) ∧ (At { op with mode := .service } fun d => d.mode = .service) ∧
      (At { op with mode := .halt } fun d => d.mode = .halt) ∧
      (At { op with mode := .load, svcKey := some (.jtag, 99800) } fun d => d.reach Reg.SYS_SVCKEY true = true ∧
        d.svcKey = some (.jtag, 99800) ∧ d.now ≤ 99800 + 200 ∧ d.serviceMay = true) ∧
      (At { op with svcKey := some (.jtag, 99800) } fun d => d.now ≤ 99800 + 200 ∧ d.serviceMay = false) ∧
      (At { op with svcKey := some (.jtag, 99799) } fun d => d.reach Reg.SYS_SVCKEY true = true ∧
        d.svcKey = some (.jtag, 99799) ∧ 99799 + 200 < d.now) ∧
      ({ boot false with debugReq := true } : Dev).debugReq = true := by decide +kernel

theorem witness_key_slot :
    (At { op with mode := .service } fun d => d.reach (Reg.IMG_KEY 3) false = true ∧
      d.reach Reg.IMG_KEYCTL false = true ∧ d.mode = .service ∧ d.slotClosed = false) ∧
      (At op fun d => d.reach Reg.IMG_KEYCTL false = true ∧ d.mode ≠ .service) ∧
      (At { op with keyBusy := true } fun d => d.keyBusy = true ∧ d.slotClosed = true) := by decide +kernel

theorem witness_trim_page :
    (At { op with mode := .service } fun d => d.reach (Reg.TRIM_BUF 63) true = true ∧ d.mode = .service ∧
      d.reach Reg.TRIM_CMD true = true ∧ d.bit Reg.TRIM_STAT F.TRIM_STAT_BUSY = false) ∧
      (At op fun d => d.reach (Reg.TRIM_BUF 63) true = true ∧ d.mode ≠ .service) ∧
      (At (op.setB Reg.TRIM_STAT F.TRIM_STAT_BUSY true) fun d => d.bit Reg.TRIM_STAT F.TRIM_STAT_BUSY = true) := by
  decide +kernel

/-- A transaction that has been committed. -/
def ctx0 : Ctx := ⟨1, 0, 0, 0, 0, 0, false, none, false, false⟩

/-- OPERATE with no half enabled, and a transaction of one entry that writes a register as it stands. -/
def txn (x : Ctx) (state : Nat) : Dev :=
  let d : Dev := { op with a := Init.half, b := Init.half, ctx := some x, ctxOwner := some .link }
  ((d.setF Reg.CTX_STAT F.CTX_STAT_STATE state).wr (Reg.CTX_BUF 0) (BitVec.ofNat 32 Reg.SAF_CFG)).wr (Reg.CTX_BUF 1)
    (d.rd Reg.SAF_CFG)

theorem witness_transaction_buffer :
    (At op fun d => d.reach Reg.CTX_CTL true = true ∧ d.ctxOwner = none ∧ d.ctxState = 0 ∧ d.ctxMine .spi = true) ∧
      (At (txn ctx0 1) fun d => d.ctxMine .link = true ∧ d.ctxState = 1 ∧ d.ctxMine .spi = false ∧
        d.reach (Reg.CTX_BUF 127) true = true) ∧
      (At (txn ctx0 2) fun d => d.ctxMine .link = true ∧ 2 ≤ d.ctxState) := by decide +kernel

theorem witness_transaction_commit :
    (At (txn ctx0 1) fun d => d.reach Reg.CTX_CTL true = true ∧ d.ctxMine .link = true ∧ d.ctxState = 1 ∧
      d.operating = true ∧ (d.half .a).enabled = false ∧ Dev.ctxAngleHalf 2 = some .a ∧ Dev.ctxAngleHalf 1 = none) ∧
      (At { txn ctx0 1 with mode := .service } fun d => d.reach Reg.CTX_CTL true = true ∧ d.operating = false) ∧
      (At { txn ctx0 1 with a := { op.a with mode := .seek } } fun d => (d.half .a).enabled = true ∧ d.issuing .a = false) ∧
      (At ({ txn ctx0 1 with a := op.a }.wr Reg.CTX_WHEN_LO 5898240) fun d => (d.half .a).enabled = true ∧
        d.issuing .a = true ∧ d.cycLen .a ≤ (d.rd Reg.CTX_WHEN_LO).toNat) ∧
      (At ({ txn ctx0 1 with a := op.a }.wr Reg.CTX_WHEN_LO 5898239) fun d => (d.half .a).enabled = true ∧
        d.issuing .a = true ∧ ¬d.cycLen .a ≤ (d.rd Reg.CTX_WHEN_LO).toNat) := by decide +kernel

theorem witness_transaction_switch :
    (At (txn { ctx0 with count := 2 } 2) fun d => d.ctx = some { ctx0 with count := 2 } ∧
      d.ctxFails { ctx0 with count := 2 } = some (0x11, 0, some 1)) ∧
      (At (txn ctx0 2) fun d => d.ctx = some ctx0 ∧ d.ctxFails ctx0 = none ∧ ctx0.waits = false ∧
        ctx0.checkEnd = none ∧ (d.track .a).passing = false ∧ (d.track .b).passing = false) ∧
      (At (txn { ctx0 with apply := 1, tick := 100000 } 2) fun d =>
        d.ctxFails { ctx0 with apply := 1, tick := 100000 } = none ∧ 100000 ≤ d.now) ∧
      (At (txn { ctx0 with apply := 1, tick := 100001 } 2) fun d =>
        d.ctxFails { ctx0 with apply := 1, tick := 100001 } = none ∧ d.now < 100001) ∧
      (At (txn { ctx0 with apply := 2 } 2) fun d => d.ctxFails { ctx0 with apply := 2 } = none) ∧
      (At (txn { ctx0 with checkEnd := some 100000 } 3) fun d =>
        d.ctxDue { ctx0 with checkEnd := some 100000 } = true) ∧
      (At { txn { ctx0 with checkEnd := some 100000 } 3 with a := { op.a with track := { Init.track with passing := true } } }
        fun d => d.ctxDue { ctx0 with checkEnd := some 100000 } = true ∧ (d.track .a).passing = true) := by decide +kernel

/-! ### Sensors, wheel, angle -/

/-- Half A with a direction source and a capture stage. -/
def sensed (dirsrc : Nat) (x : Sense) : Dev :=
  (opA fun h => { h with sense := x }).setF (Reg.SNS_CFG .a) F.SNS_CFG_DIRSRC dirsrc

/-- A half-wave of unknown peak arms. -/
theorem arms_unknown (hall floor : Bool) (pct prev : Nat) : Claims.Arms hall floor pct prev none :=
  .inr fun _ h => nomatch h

/-- A half-wave below 30 mV does not arm a VR input. -/
theorem arms_not (floor : Bool) (pct prev : Nat) : ¬Claims.Arms false floor pct prev (some 2) := fun h =>
  h.elim (fun h => nomatch h) fun h => absurd (h 2 rfl).1 (by decide)

theorem witness_crank_timed_edges :
    (At op fun d => d.bit (Reg.SNS_CFG .a) F.SNS_CFG_CRK_TYPE = false ∧
      4 * d.f (Reg.SNS_FILT .a) F.SNS_FILT_CRK_FILT = 0) ∧
      (At (op.setF (Reg.SNS_FILT .a) F.SNS_FILT_CRK_FILT 1) fun d => 4 * d.f (Reg.SNS_FILT .a) F.SNS_FILT_CRK_FILT ≠ 0) ∧
      (At (sensed 0 Init.sense) fun d => .a ∈ d.crankReach .a ∧ d.dirsrc .a = 0) ∧
      (At (sensed 2 Init.sense) fun d => .a ∈ d.crankReach .a ∧ d.dirsrc .a = 2) ∧
      (At (sensed 1 Init.sense) fun d => d.dirsrc .a = 1 ∧ (d.half .a).sense.pulse = none) ∧
      (At (sensed 1 { Init.sense with pulse := some 5 }) fun d => d.dirsrc .a = 1 ∧
        (d.half .a).sense.pulse.isSome = true) ∧
      (At (op.setB (Reg.SNS_SHARE .b) F.SNS_SHARE_SHARE true) fun d => .b ∈ d.crankReach .a) := by decide +kernel

theorem witness_crank_pulse :
    At ((sensed 1 { Init.sense with pulse := some 5 }).setF (Reg.SNS_DIRCFG .a) F.SNS_DIRCFG_REV_MIN 10) fun d =>
      .a ∈ d.crankReach .a ∧ d.dirsrc .a = 1 ∧ (d.half .a).sense.pulse = some 5 ∧
        d.f (Reg.SNS_DIRCFG .a) F.SNS_DIRCFG_REV_MIN = 10 := by decide +kernel

theorem witness_captures :
    (At (op.setF (Reg.SNS_CFG .a) F.SNS_CFG_CAM_EN 15) fun d => .a ∈ d.crankReach .a ∧ d.capturing .a = true ∧
      d.bit (Reg.SNS_CFG .a) ⟨11, 11⟩ = true ∧ d.camTimes .a 3 true = true ∧ d.sensing = true ∧
      d.bit (Reg.SNS_CFG .a) F.SNS_CFG_CRK_TYPE = false ∧ d.reach (Reg.SNS_CNTCLR .a) true = true ∧
      d.reach (Reg.SNS_CAP_TIME .a 5) false = true ∧ (d.half .a).sense.front.lastT = none ∧
      getB (d.againNow (Reg.SNS_CAP_STAT .a 5)) F.SNS_CAP_STAT_NEW = false ∧
      40 * d.f (Reg.SNS_FILT .a) F.SNS_FILT_CAM_FILT = 0) ∧
      (At op fun d => d.bit (Reg.SNS_CFG .a) ⟨11, 11⟩ = false) ∧
      (At { (op.setB (Reg.SNS_CAP_STAT .a 5) F.SNS_CAP_STAT_NEW true) with
        snap := some ⟨op.regs, op.regs, [(Reg.SNS_CAP_STAT .a 5, (100000, 0xFFFFFFFF))], op.a, op.b⟩ }
        fun d => getB (d.againNow (Reg.SNS_CAP_STAT .a 5)) F.SNS_CAP_STAT_NEW = true) := by decide +kernel

/-- Compare 7 of Half A enabled with a step of one degree. -/
def ascOn (f : HalfSt → HalfSt) : Dev :=
  ((opA f).setB (Reg.ASC_CTRL .a 7) F.ASC_CTRL_EN true).setF (Reg.ASC_STEP .a 7) F.ASC_STEP_STEP 16384

theorem witness_asc_fires :
    (At (ascOn fun h => { h with ascLast := [(7, 99960)] }) fun d => d.ascRuns .a 7 = true ∧
      ((d.ascTarget .a 7 : Int) : Rat) ≤ d.phi .a ∧ sparseFind (d.half .a).ascLast 7 = some 99960 ∧ 99960 + 40 ≤ d.now) ∧
      (At (ascOn fun h => { h with ascLast := [(7, 99961)] }) fun d => d.ascRuns .a 7 = true ∧
        ((d.ascTarget .a 7 : Int) : Rat) ≤ d.phi .a ∧
        sparseFind (d.half .a).ascLast 7 = some 99961 ∧ d.now < 99961 + 40 ∧ sparseFind (d.half .a).ascPend 7 = none) ∧
      (At (ascOn fun h => { h with ascLast := [(7, 99961)], ascPend := [(7, 100001)] }) fun d =>
        d.ascRuns .a 7 = true ∧ ((d.ascTarget .a 7 : Int) : Rat) ≤ d.phi .a ∧ d.now < 99961 + 40 ∧
        sparseFind (d.half .a).ascPend 7 = some 100001 ∧ d.now < 100001) ∧
      (At (ascOn fun h => { h with ascAt := [(7, 1)], ascPend := [(7, 100000)] }) fun d =>
        d.phi .a < ((d.ascTarget .a 7 : Int) : Rat) ∧ d.ascRuns .a 7 = true ∧
        sparseFind (d.half .a).ascPend 7 = some 100000 ∧ 100000 ≤ d.now) ∧
      (At op fun d => d.ascRuns .a 7 = false) := by decide +kernel

theorem witness_asc_enable :
    (At (op.setF (Reg.ASC_STEP .a 7) F.ASC_STEP_STEP 16384) fun d => d.reach (Reg.ASC_CTRL .a 7) true = true ∧
      d.f (Reg.ASC_STEP .a 7) F.ASC_STEP_STEP ≠ 0 ∧ d.bit (Reg.ASC_CTRL .a 7) F.ASC_CTRL_EN = false ∧
      getB 1 F.ASC_CTRL_EN = true ∧ getB 0 F.ASC_CTRL_EN = false) ∧
      (At op fun d => d.f (Reg.ASC_STEP .a 7) F.ASC_STEP_STEP = 0) ∧
      (At (ascOn id) fun d => d.f (Reg.ASC_STEP .a 7) F.ASC_STEP_STEP ≠ 0 ∧
        d.bit (Reg.ASC_CTRL .a 7) F.ASC_CTRL_EN = true) := by decide +kernel

/-- Output 1 of Half A. -/
def crko (x : Crko) : Dev := opA fun h => { h with crko := [(1, x)] }

/-- A wheel of two entries, whose gap of 240 degrees lacks the tooth at 120, with φ at an angle. -/
def gapped (ratio : Nat) (fill : Bool) (phi : Nat) : Dev :=
  let d := opA fun h => { h with track := { h.track with phi := phi * 2 ^ 24, clamp := phi * 2 ^ 24 } }
  let d := (d.setF (Reg.WHL_WCFG .a) F.WHL_WCFG_NENT 2).wr (Reg.WHL_WTAB .a 0) 0x2000000
  let d := (d.wr (Reg.WHL_WTAB .a 1) 3932160).setB (Reg.CRKO_CTRL .a 1) F.CRKO_CTRL_FILL fill
  (d.setB (Reg.CRKO_CTRL .a 1) F.CRKO_CTRL_EN true).setF (Reg.CRKO_CTRL .a 1) F.CRKO_CTRL_RATIO ratio

theorem witness_crank_repeat :
    (At (crko { Init.crko with high := true, fallT := 100000 }) fun d => (d.crkoOf .a 1).high = true ∧
      (d.crkoOf .a 1).fallT ≤ d.now ∧ d.bit (Reg.SNS_STAT .a) F.SNS_STAT_DIR = false) ∧
      (At (crko { Init.crko with lateT := some 100000, riseT := some 99000 }) fun d =>
        d.bit (Reg.SNS_STAT .a) F.SNS_STAT_DIR = false ∧ (d.crkoOf .a 1).lateT = some 100000 ∧ 100000 ≤ d.now) ∧
      (At (gapped 255 true 1966080) fun d => d.nextFill .a ((d.interp .a).track .a).fill = some 1966080 ∧
        (1966080 : Rat) ≤ (((d.interp .a).track .a).phi : Rat) / pow2Q 24 ∧ d.tracking .a = true ∧
        d.crkoLocks .a 1 = true ∧ getB (d.rd (Reg.CRKO_CTRL .a 1)) F.CRKO_CTRL_EN = true ∧
        getF (d.rd (Reg.CRKO_CTRL .a 1)) F.CRKO_CTRL_RATIO ≠ 0) ∧
      (At (gapped 255 false 1966080) fun d => d.crkoLocks .a 1 = false) ∧
      (At (gapped 255 true 1966079) fun d => d.nextFill .a ((d.interp .a).track .a).fill = some 1966080 ∧
        (((d.interp .a).track .a).phi : Rat) / pow2Q 24 < 1966080) := by decide +kernel

/-- A half in a mode with one crank edge to be handed over, 1,000 ticks after the last one. -/
def edge (m : HMode) (e : CrankEdge) (su : Bool) : Dev :=
  (opA fun h => { h with mode := m, sense := { Init.sense with edges := [e], lastT := some 99000 } }).setB
    (Reg.SNS_STAT .a) F.SNS_STAT_REGIME (!su)

/-- A plain edge. -/
def fwd : CrankEdge := ⟨100000, 100000, false, false, false⟩

theorem witness_crank_edge_validation :
    (At (edge .run { fwd with illegal := true } true) fun d => d.capturing .a = true ∧
      (d.half .a).sense.edges = [{ fwd with illegal := true }] ∧ d.bit (Reg.SNS_STAT .a) F.SNS_STAT_REGIME = false) ∧
      (At (edge .run { fwd with due := 100001 } true) fun d => d.now < 100001) ∧
      (At ((edge .seek fwd true).setF (Reg.SNS_MININT .a) F.SNS_MININT_MIN_INT 251) fun d =>
        (d.half .a).sense.edges = [fwd] ∧ (d.half .a).sense.lastT = some 99000 ∧
        d.bit (Reg.SNS_STAT .a) F.SNS_STAT_REGIME = false ∧
        fwd.t - 99000 < 4 * d.f (Reg.SNS_MININT .a) F.SNS_MININT_MIN_INT) ∧
      (At ((edge .safe fwd true).setF (Reg.SNS_MININT .a) F.SNS_MININT_MIN_INT 250) fun d =>
        (d.half .a).sense.edges = [fwd] ∧ d.hmode .a = .safe ∧
        ¬fwd.t - 99000 < 4 * d.f (Reg.SNS_MININT .a) F.SNS_MININT_MIN_INT) ∧
      (At (edge .idle fwd false) fun d => (d.half .a).sense.edges = [fwd] ∧ d.hmode .a = .idle ∧
        d.bit (Reg.SNS_STAT .a) F.SNS_STAT_REGIME = true) := by decide +kernel

/-- A half in RUN whose next edge is expected 1,000 ticks after the last one, with a window of a quarter, and an edge
after `dt` ticks. -/
def windowed (dt : Nat) (rv gap : Bool) : Dev :=
  let d := edge .run { fwd with t := 99000 + dt, reverse := rv } false
  let d := { d with a := { d.a with track := { Init.track with
    atT := 100000, tPrev := 99000, tExp := 100000 * 65536, lo := 3 / 4, hi := 5 / 4, clamp := 10, dk := 1 } } }
  (d.wr (Reg.WHL_WTAB .a 0) (if gap then 0x2000000 else 0)).setF (Reg.WHL_SYNCCFG .a) F.WHL_SYNCCFG_MAXREJ 1

/-- What every clause of the window's statement assumes, with where the edge falls. -/
abbrev WindowCase (d : Dev) (e : CrankEdge) (f : Dev.Fit) (gap : Bool) : Prop :=
  At d fun d => d.capturing .a = true ∧ (d.half .a).sense.edges = [e] ∧ e.due ≤ d.now ∧ (d.half .a).sense.lastT = some 99000 ∧
    (d.half .a).sense.lastRev = false ∧ d.bit (Reg.SNS_STAT .a) F.SNS_STAT_REGIME = true ∧ d.hmode .a = .run ∧
    Dev.fit ((d.interp .a).track .a) ((d.interp .a).track .a).lo ((d.interp .a).track .a).hi e.t = f ∧
    d.wGap .a (d.half .a).wheel.k = gap

theorem witness_crank_window_below : WindowCase (windowed 749 false false) { fwd with t := 99749 } .below false ∧
    WindowCase (windowed 749 false true) { fwd with t := 99749 } .below true := by decide +kernel

theorem witness_crank_window_noise :
    (At (windowed 749 false false) fun d =>
      d.f (Reg.WHL_CNT .a) F.WHL_CNT_REJREV + 1 ≤ d.f (Reg.WHL_SYNCCFG .a) F.WHL_SYNCCFG_MAXREJ) ∧
      (At ((windowed 749 false false).setF (Reg.WHL_CNT .a) F.WHL_CNT_REJREV 1) fun d =>
        d.f (Reg.WHL_SYNCCFG .a) F.WHL_SYNCCFG_MAXREJ < d.f (Reg.WHL_CNT .a) F.WHL_CNT_REJREV + 1) := by decide +kernel

theorem witness_crank_window_inside : WindowCase (windowed 750 false false) { fwd with t := 99750 } .inside false ∧
    WindowCase (windowed 1250 false true) { fwd with t := 100250 } .inside true ∧
    WindowCase (windowed 1250 true false) { fwd with t := 100250, reverse := true } .inside false := by decide +kernel

theorem witness_crank_window_above : WindowCase (windowed 1251 false false) { fwd with t := 100251 } .above false ∧
    WindowCase (windowed 1251 false true) { fwd with t := 100251 } .above true := by decide +kernel

/-- A cam edge of cam 0 that waits for its hand-over. -/
def camEdge : CamEdge := ⟨0, 99990, 99990, true⟩

/-- Half A in a mode on a 720-degree cycle with phase cam 0, whose one entry stands at an angle, and a cam edge. -/
def cam (m : HMode) (ndec ang : Nat) (w : Wheel) (lost : Bool) : Dev :=
  let x := { Init.track with atT := 100000, clamp := 5 }
  let d := opA fun h => { h with
    mode := m, wheel := w, track := if lost then { x with clamp := 0 } else x
    sense := { Init.sense with cams := [camEdge] } }
  let d := ((d.setB (Reg.WHL_WCFG .a) F.WHL_WCFG_CYC720 true).setF (Reg.WHL_WCFG .a) F.WHL_WCFG_NENT 2).setF
    (Reg.WHL_CAMN .a) F.WHL_CAMN_N0 1
  let d := (d.wr (Reg.WHL_CAMTAB .a 0 0) (BitVec.ofNat 32 (0x1000000 + ang))).setF (Reg.WHL_CAMCFG .a) F.WHL_CAMCFG_NDEC ndec
  (d.setF (Reg.WHL_CAMCFG .a) F.WHL_CAMCFG_PHCAM 1).setF (Reg.WHL_CAMCFG .a) F.WHL_CAMCFG_CAMLOSS 2

/-- A cam edge waits, and the half captures. -/
abbrev CamWaits (d : Dev) : Prop := Claims.CamFront d .a 0 camEdge

/-- An edge of cam 0 alone, whose time has come, is the front one. -/
theorem camWaits {d : Dev} (h : d.capturing .a = true ∧ (d.half .a).sense.cams = [camEdge] ∧
    (d.half .a).sense.edges = [] ∧ 99990 ≤ d.now) : CamWaits d := by
  obtain ⟨hc, hs, he, hd⟩ := h
  refine ⟨hc, by rw [hs]; rfl, hd, ?_, ?_⟩
  · rw [he]; intro x m; cases m
  · rw [hs]; intro x _ l; exact absurd l (Nat.not_lt_zero _)

theorem witness_cam_capture :
    At (cam .idle 1 0 Init.wheel false) fun d => CamWaits d ∧ d.hmode .a = .idle :=
  ⟨camWaits (by decide +kernel), by decide +kernel⟩

/-- The vote that the edge gives in PHASE. -/
abbrev Votes (d : Dev) (m0 m1 : Bool) : Prop :=
  d.capturing .a = true ∧ (d.half .a).sense.cams = [camEdge] ∧ (d.half .a).sense.edges = [] ∧ 99990 ≤ d.now ∧
    d.hmode .a = .phase ∧ d.phaseCam .a 0 = true ∧ 0 < d.f (Reg.WHL_CAMCFG .a) F.WHL_CAMCFG_NDEC ∧
    (d.camNear .a 0 (d.phi .a).floor true).isSome = m0 ∧
    (d.camNear .a 0 ((d.phi .a).floor + rev) true).isSome = m1

theorem witness_cam_vote :
    (At (cam .phase 1 0 Init.wheel false) fun d => Votes d true false ∧ (d.half .a).wheel.v1 = 0 ∧
      d.f (Reg.WHL_CAMCFG .a) F.WHL_CAMCFG_NDEC ≤ (d.half .a).wheel.v0 + 1) ∧
      (At (cam .phase 2 5898240 Init.wheel false) fun d => Votes d false true ∧
        (d.half .a).wheel.v1 + 1 < d.f (Reg.WHL_CAMCFG .a) F.WHL_CAMCFG_NDEC) ∧
      (At (cam .phase 2 5898240 { Init.wheel with v0 := 1 } false) fun d => Votes d false true ∧
        0 < (d.half .a).wheel.v0) ∧
      (At (cam .phase 2 2949120 Init.wheel false) fun d => Votes d false false) := by decide +kernel

/-- The check of the edge in RUN. -/
abbrev Checks (d : Dev) (m0 m1 gone : Bool) : Prop :=
  d.capturing .a = true ∧ (d.half .a).sense.cams = [camEdge] ∧ (d.half .a).sense.edges = [] ∧ 99990 ≤ d.now ∧
    d.hmode .a = .run ∧ d.phaseCam .a 0 = true ∧
    (d.camNear .a 0 (d.phi .a).floor true).isSome = m0 ∧
    (d.cyc720 .a && (d.camNear .a 0 ((d.phi .a).floor + rev) true).isSome) = m1 ∧
    (decide (((d.interp .a).track .a).clamp ≤ ((d.interp .a).track .a).phi) &&
      decide (d.f (Reg.WHL_SYNCCFG .a) F.WHL_SYNCCFG_CRKLOSS ≤ (d.half .a).wheel.camSince + 1)) = gone

theorem witness_cam_check :
    (At (cam .run 1 0 Init.wheel false) fun d => Checks d true false false ∧ d.camLost .a 0 = false) ∧
      (At (cam .run 1 5898240 Init.wheel false) fun d => Checks d false true false) ∧
      (At (cam .run 1 2949120 Init.wheel false) fun d => Checks d false false false ∧
        Dev.camCount (d.half .a).wheel.camBad 0 + 1 < d.f (Reg.WHL_CAMCFG .a) F.WHL_CAMCFG_CAMLOSS) ∧
      (At (cam .run 1 2949120 { Init.wheel with camBad := [(0, 1)] } false) fun d => Checks d false false false ∧
        d.f (Reg.WHL_CAMCFG .a) F.WHL_CAMCFG_CAMLOSS ≤ Dev.camCount (d.half .a).wheel.camBad 0 + 1 ∧
        d.camLost .a 0 = false ∧ d.phaseCam .a 1 = false ∧ d.phaseCam .a 2 = false ∧ d.phaseCam .a 3 = false) := by
  decide +kernel

theorem witness_cam_regained :
    At ((cam .run 1 0 { Init.wheel with camGood := [(0, 1)] } false).setB (Reg.WHL_STAT .a) ⟨24, 24⟩ true) fun d =>
      Checks d true false false ∧ d.camLost .a 0 = true ∧
        d.f (Reg.WHL_CAMCFG .a) F.WHL_CAMCFG_CAMLOSS ≤ Dev.camCount (d.half .a).wheel.camGood 0 + 1 := by decide +kernel

theorem witness_crank_lost :
    (At (cam .run 1 0 { Init.wheel with camSince := 6 } true) fun d => Checks d true false true ∧
      d.limpCamOk .a = false) ∧
      (At ((((cam .run 1 0 { Init.wheel with camSince := 6 } true).setB (Reg.WHL_SYNCCFG .a) F.WHL_SYNCCFG_LIMP_CRK
        true).setF (Reg.WHL_CAMN .a) F.WHL_CAMN_N0 2).wr (Reg.WHL_CAMTAB .a 0 1) 0x1100000) fun d =>
          Checks d true false true ∧ d.limpCamOk .a = true) := by decide +kernel

theorem witness_cam_missing :
    (At (cam .run 1 0 { Init.wheel with camAt := [(0, -5898240)] } false) fun d => d.hmode .a = .run ∧
      d.phaseCam .a 0 = true ∧ sparseFind (d.half .a).wheel.camAt 0 = some (-5898240) ∧
      (d.half .a).wheel.camSeen.contains (0, -5898240) = false ∧ (((-5898240) + d.tol .a : Int) : Rat) < d.phi .a) ∧
      (At (cam .run 1 0 { Init.wheel with camAt := [(0, 0)] } false) fun d =>
        sparseFind (d.half .a).wheel.camAt 0 = some 0 ∧ d.phi .a ≤ ((0 + d.tol .a : Int) : Rat)) ∧
      (At (cam .run 1 0 Init.wheel false) fun d => sparseFind (d.half .a).wheel.camAt 0 = none) := by decide +kernel

/-- Half A in a mode, its last edges at a tick, with a stall timeout of 4 ms. -/
def stalled (m : HMode) (t0 : Nat) : Dev :=
  let d := opA fun h => { h with
    mode := m, sense := { Init.sense with lastT := some t0 }, track := { h.track with tPrev := t0 } }
  (d.setF (Reg.ANG_STOPCFG .a) F.ANG_STOPCFG_STALL 0).setF (Reg.ANG_STOPCFG .a) F.ANG_STOPCFG_RDSPD 1

theorem witness_stall :
    (At (stalled .seek 99000) fun d => d.hmode .a = .seek ∧ d.tracking .a = false ∧ (d.half .a).sense.edges = [] ∧
      (d.half .a).sense.cams = [] ∧ (d.half .a).sense.handT ≠ some d.now ∧ (d.half .a).sense.lastT = some 99000 ∧
      99000 + 400000 * d.f (Reg.ANG_STOPCFG .a) F.ANG_STOPCFG_STALL ≤ d.now) ∧
      (At (stalled .run 99000) fun d => d.tracking .a = true ∧ (d.track .a).tPrev = 99000 ∧
        99000 + 400000 * d.f (Reg.ANG_STOPCFG .a) F.ANG_STOPCFG_STALL ≤ d.now) ∧
      (At (stalled .rundown 99000) fun d => d.hmode .a = .rundown ∧ d.tracking .a = false ∧
        99000 + 400000 * d.f (Reg.ANG_STOPCFG .a) F.ANG_STOPCFG_STALL ≤ d.now) ∧
      (At (inMode .safe) fun d => d.hmode .a = .safe) := by decide +kernel

theorem witness_rundown_speed :
    (At (cam .run 1 0 Init.wheel false) fun d => d.tracking .a = true) ∧
      (At ((gapped 255 true 0).setF (Reg.ANG_STOPCFG .a) F.ANG_STOPCFG_RDSPD 0) fun d => d.tracking .a = true ∧
        ¬ofN (d.dTab .a (d.half .a).wheel.k) < (ofN d.now - ofN (d.track .a).tPrev) *
          (ofN (d.f (Reg.ANG_STOPCFG .a) F.ANG_STOPCFG_RDSPD) * 24576 / 100000000)) ∧
      (At (((gapped 255 true 0).setF (Reg.ANG_STOPCFG .a) F.ANG_STOPCFG_RDSPD 1000).wr (Reg.WHL_WTAB .a 1) 1000) fun d =>
        ¬(d.hmode .a = .limp ∧ d.bit (Reg.ANG_STAT .a) F.ANG_STAT_LIMP_SRC = true) ∧
        ofN (d.dTab .a (d.half .a).wheel.k) < (ofN d.now - ofN (d.track .a).tPrev) *
          (ofN (d.f (Reg.ANG_STOPCFG .a) F.ANG_STOPCFG_RDSPD) * 24576 / 100000000)) := by decide +kernel

theorem witness_resync :
    (At (inMode .safe) fun d => d.reach (Reg.WHL_RESYNC .a) true = true ∧ d.hmode .a = .safe ∧
      d.reach (Reg.WHL_CNTCLR .a) true = true ∧ d.resyncOk .a = true) ∧
      (At op fun d => d.hmode .a ≠ .safe ∧ d.resyncOk .a = false) := by decide +kernel

theorem witness_learned_tables :
    (At (inMode .idle) fun d => d.reach (Reg.ANG_LEARNCTL .a) true = true ∧
      d.reach (learnBase .a + 4 * 767) true = true ∧ d.learnWritable .a 767 = true ∧ d.edges .a ≤ 512 ∧
      d.bit (Reg.ANG_STAT .a) F.ANG_STAT_LIMP_SRC = false) ∧
      (At op fun d => d.reach (learnBase .a) true = true ∧ d.learnWritable .a 0 = false) ∧
      (At (op.setB (Reg.ANG_STAT .a) F.ANG_STAT_LIMP_SRC true) fun d =>
        d.bit (Reg.ANG_STAT .a) F.ANG_STAT_LIMP_SRC = true) := by decide +kernel

/-- Half A with a track state as of now. -/
def tracked (x : Track) : Dev := opA fun h => { h with track := { x with atT := 100000 } }

theorem witness_clamp_catchup :
    (At op fun d => d.reach (Reg.ANG_ANGLE .b) false = true) ∧
      (At (tracked { Init.track with clamp := 7, phi := 7, catching := true, cuStart := 74400 }) fun d =>
        d.tracking .a = true ∧ ((d.interp .a).track .a).clamp ≤ ((d.interp .a).track .a).phi ∧
        ((d.interp .a).track .a).catching = true ∧ ((d.interp .a).track .a).cuStart + 25600 ≤ d.now) ∧
      (At (tracked { Init.track with clamp := 8, phi := 7, catching := true, cuStart := 74401 }) fun d =>
        ((d.interp .a).track .a).phi < ((d.interp .a).track .a).clamp ∧
        d.now < ((d.interp .a).track .a).cuStart + 25600) ∧
      (At (tracked { Init.track with clamp := 8, phi := 7 }) fun d => d.tracking .a = true ∧
        ((d.interp .a).track .a).catching = false) ∧
      (At (inMode .seek) fun d => d.tracking .a = false) := by decide +kernel

/-- Channel 255 of Half A armed at an angle, with a pending occurrence. -/
def chanA (x : Chan) : Dev := opA fun h => { h with chans := [(255, x)] }

/-- A pending occurrence whose anchor is passed at an angle. -/
def pendingAt (a : Int) : Chan := { Init.chan with occ := .pending, pass := some a }

theorem witness_tooth_pass :
    (At (opA fun h => { h with
      chans := [(255, { pendingAt 9 with coef := some (1, 2) })]
      track := { Init.track with atT := 100000, passing := true, prepass := true } }) fun d =>
        (d.track .a).passing = true ∧ sparseSorted (d.half .a).chans = true ∧ d.angleTarget .a 255 = some 9 ∧
        (d.chan .a 255).coef = some (1, 2) ∧ (d.track .a).prepass = true ∧ d.issuing .a = true ∧
        d.angleTarget .a 254 = none ∧ (d.half .a).commit = none ∧ (d.half .b).commit = none ∧ d.ctx = none) ∧
      (At (inMode .seek) fun d => (d.track .a).passing = false ∧ (d.track .a).prepass = false ∧ d.issuing .a = false) := by
  decide +kernel

/-! ### Event channels -/

/-- Half A with channels; channel 255 is enabled with an action on a target and an end by time. -/
def chan (action target endv : Nat) (xs : List (Nat × Chan)) (f : HalfSt → HalfSt) : Dev :=
  ((opA fun h => f { h with chans := xs }).wr (Reg.EVC_CTRL .a 255)
    (BitVec.ofNat 32 (0xFF0001 + 16 * action + 256 * target))).wr (Reg.EVC_END .a 255) (BitVec.ofNat 32 endv)

/-- The occurrence of channel 255 alone, with its start fixed at a tick. -/
def occ (action target endv : Nat) (o : Occ) (p : Nat) : Dev :=
  chan action target endv [(255, { Init.chan with occ := o, fixed := some (p * 65536) })] id

/-- A frozen set of values. -/
def vals0 (action target : Nat) : Vals := ⟨action, target, 0, 0, false, 9000, 0, 1, false⟩

/-- Every slot is held, by channels without an occurrence. -/
def full (h : HalfSt) : HalfSt := { h with slots := (List.range 48).map fun n => (n, n) }

/-- No channel below 255 has a pending occurrence: no slot take comes first. -/
def noTakes (d : Dev) : Bool := (List.range 255).all fun j => decide ((d.chan .a j).occ ≠ .pending)

theorem no_take_below {d : Dev} (h : noTakes d = true) : Claims.NoTakeBelow d .a 255 := fun j _ hj ho _ =>
  absurd ho (of_decide_eq_true (List.all_eq_true.mp h j (List.mem_range.mpr hj)))

/-- No launch of a listed channel comes before that of channel 255. -/
def firstEdge (d : Dev) : Bool :=
  ((d.half .a).chans.all fun e => match d.edgeDue .a 255, d.edgeDue .a e.1 with
    | some t, some u => decide (t < u ∨ (t = u ∧ 255 ≤ e.1))
    | _, _ => true) &&
  match (d.chan .a 255).booked.or (d.chan .a 255).after with
  | some j => (d.edgeDue .a j).isNone
  | none => true

theorem edge_listed {d : Dev} {j u : Nat} (h : d.edgeDue .a j = some u) : ∃ e ∈ (d.half .a).chans, e.1 = j := by
  by_cases hm : ∃ e ∈ (d.half .a).chans, e.1 = j
  · exact hm
  have hf : ∀ m : List (Nat × Chan), (¬∃ e ∈ m, e.1 = j) → sparseFind m j = none := by
    intro m
    induction m with
    | nil => intro _; rfl
    | cons e m ih =>
      intro n
      have hne : j ≠ e.1 := fun q => n ⟨e, List.mem_cons_self, q.symm⟩
      simp only [sparseFind, hne, ↓reduceIte]
      exact ih fun ⟨x, hx, q⟩ => n ⟨x, List.mem_cons_of_mem _ hx, q⟩
  have hc : d.chan .a j = Init.chan := by simp only [Dev.chan, sparseGet, hf _ hm, Option.getD_none]
  simp [Dev.edgeDue, hc, Init.chan] at h

/-- The test gives the statements' premise. -/
theorem first_edge {d : Dev} (h : firstEdge d = true) : Claims.FirstEdge d .a 255 := by
  simp only [firstEdge, Bool.and_eq_true, List.all_eq_true] at h
  refine ⟨fun j t u ht hu => ?_, fun j _ hb _ => ?_⟩
  · obtain ⟨e, hm, rfl⟩ := edge_listed hu
    simpa only [ht, hu, decide_eq_true_eq] using h.1 e hm
  · have := h.2
    rw [hb] at this
    exact Option.isNone_iff_eq_none.mp this

/-- What the slot take of channel 255 assumes of its occurrence. -/
abbrev Takes (d : Dev) (o : Output) (p : Nat) : Prop :=
  noTakes d = true ∧
  (d.chan .a 255).occ = .pending ∧ d.startTime .a 255 = some ((p * 65536 : Nat) : Int) ∧
    outputOf (d.vals .a 255).action (d.vals .a 255).target = some o ∧ d.operating = true ∧
    d.chIssues .a 255 = true

theorem witness_slot_take_injector :
    (At (occ 6 11 0 .pending 100160) fun d => Takes d (.ls 11) 100160 ∧
      ((100160 * 65536 : Nat) : Int) / 65536 ≤ ((d.now + 160 : Nat) : Int) ∧
      d.notIssued .a 255 (d.vals .a 255) ((100160 * 65536 : Nat) : Int) = true) ∧
      (At (occ 6 11 9000 .pending 100160) fun d => Takes d (.ls 11) 100160 ∧ d.mode ≠ .halt ∧ d.fuelCut .a = false ∧
        d.notIssued .a 255 (d.vals .a 255) ((100160 * 65536 : Nat) : Int) = false ∧ (d.holders .a 5).length < 2 ∧
        d.overlaps .a 5 100160 (d.holders .a 5) = false ∧ d.findSlot .a = some 0 ∧
        (d.bit (Reg.BST_STAT .a) F.BST_STAT_BELOW_START && getB (d.rd (Reg.DRV_PCFG .a 0)) F.DRV_PCFG_BOOST_EN) = false) ∧
      (At { occ 6 11 9000 .pending 100160 with mode := .halt } fun d => Takes d (.ls 11) 100160 ∧ d.mode = .halt) ∧
      (At ((occ 6 11 9000 .pending 100160).setB (Reg.DMD_STAT .a) F.DMD_STAT_FUELCUT true) fun d =>
        Takes d (.ls 11) 100160 ∧ d.fuelCut .a = true) := by decide +kernel

/-- A channel that holds a slot for a shot on low-side 11. -/
def holder (o : Occ) : Chan := { Init.chan with occ := o, vals := some (vals0 6 11), fixed := some (100100 * 65536) }

theorem witness_slot_take_drops :
    (At (chan 6 11 9000 [(1, holder .slot), (2, holder .slot),
      (255, { Init.chan with occ := .pending, fixed := some (100160 * 65536) })]
      fun h => { h with slots := [(0, 1), (1, 2)] }) fun d => Takes d (.ls 11) 100160 ∧ 2 ≤ (d.holders .a 5).length) ∧
      (At (chan 6 11 9000 [(1, holder .slot), (255, { Init.chan with occ := .pending, fixed := some (100160 * 65536) })]
        fun h => { h with slots := [(0, 1)] }) fun d => Takes d (.ls 11) 100160 ∧ (d.holders .a 5).length < 2 ∧
          d.overlaps .a 5 100160 (d.holders .a 5) = true ∧ d.findSlot .a = some 1) ∧
      (At (chan 6 11 9000 [(255, { Init.chan with occ := .pending, fixed := some (100160 * 65536) })] full) fun d =>
        Takes d (.ls 11) 100160 ∧ (d.holders .a 5).length < 2 ∧ d.findSlot .a = none) ∧
      (At (((occ 6 11 9000 .pending 100160).setB (Reg.BST_STAT .a) F.BST_STAT_BELOW_START true).setB (Reg.DRV_PCFG .a 0)
        F.DRV_PCFG_BOOST_EN true) fun d => Takes d (.ls 11) 100160 ∧
          (d.bit (Reg.BST_STAT .a) F.BST_STAT_BELOW_START &&
            getB (d.rd (Reg.DRV_PCFG .a 0)) F.DRV_PCFG_BOOST_EN) = true ∧
          getB (d.rd (Reg.DRV_PCFG .a 0)) F.DRV_PCFG_LOWB = false) ∧
      (At ((((occ 6 11 9000 .pending 100160).setB (Reg.BST_STAT .a) F.BST_STAT_BELOW_START true).setB (Reg.DRV_PCFG .a 0)
        F.DRV_PCFG_BOOST_EN true).setB (Reg.DRV_PCFG .a 0) F.DRV_PCFG_LOWB true) fun d => Takes d (.ls 11) 100160 ∧
          getB (d.rd (Reg.DRV_PCFG .a 0)) F.DRV_PCFG_LOWB = true) := by decide +kernel

/-- A channel that holds GAO output 15 for a pulse of 9,000 ticks from tick 100,100. -/
def gaoHolder : Chan := { Init.chan with occ := .slot, vals := some (vals0 4 15), fixed := some (100100 * 65536) }

theorem witness_slot_take_output :
    (At (occ 4 15 9000 .pending 100160) fun d => Takes d (.gao 15) 100160 ∧
      d.notIssued .a 255 (d.vals .a 255) ((100160 * 65536 : Nat) : Int) = false ∧ d.mode ≠ .halt ∧
      d.holders .a (Output.gao 15).unit = [] ∧ d.findSlot .a = some 0) ∧
      (At (chan 4 15 9000 [(255, { Init.chan with occ := .pending, fixed := some (100160 * 65536) })] full) fun d =>
        Takes d (.gao 15) 100160 ∧ d.holders .a (Output.gao 15).unit = [] ∧ d.findSlot .a = none) ∧
      (At (chan 1 15 0 [(1, gaoHolder), (255, { Init.chan with occ := .pending, fixed := some (109100 * 65536) })]
        fun h => { h with slots := [(0, 1)] }) fun d => Takes d (.gao 15) 109100 ∧
          d.holders .a (Output.gao 15).unit = [1] ∧ d.bookedInto .a 1 = none ∧
          d.holderEnd .a 1 = some (109100 * 65536)) ∧
      (At (chan 1 15 0 [(1, gaoHolder), (255, { Init.chan with occ := .pending, fixed := some (100160 * 65536) })]
        fun h => { h with slots := [(0, 1)] }) fun d => Takes d (.gao 15) 100160 ∧
          d.holders .a (Output.gao 15).unit = [1] ∧ d.holderEnd .a 1 = some (109100 * 65536) ∧
          100160 * 65536 < 109100 * 65536) ∧
      (At (occ 4 15 9000 .pending 100161) fun d => Takes d (.gao 15) 100161 ∧
        ((d.now + 160 : Nat) : Int) < ((100161 * 65536 : Nat) : Int) / 65536) := by decide +kernel

/-- A start that holds a slot and is due. -/
abbrev Due (d : Dev) (p : Nat) : Prop :=
  firstEdge d = true ∧
  (d.chan .a 255).occ = .slot ∧ d.startTime .a 255 = some ((p * 65536 : Nat) : Int) ∧ d.operating = true ∧
    d.issuing .a = true ∧ ((p * 65536 : Nat) : Int) / 65536 ≤ ((d.now + 6 : Nat) : Int) ∧ (d.chan .a 255).lateAt = none

theorem witness_start_launch :
    (At (occ 6 11 9000 .slot 100006) fun d => Due d 100006 ∧ d.mode ≠ .halt ∧ d.held .a = false ∧
      (d.chan .a 255).waitT = none ∧ (d.chan .a 255).booked = none ∧ (d.half .a).lanes = []) ∧
      (At (occ 6 11 9000 .slot 100005) fun d => Due d 100005 ∧
        ((100005 * 65536 : Nat) : Int) / 65536 < ((d.now + 6 : Nat) : Int)) ∧
      (At { occ 6 11 9000 .slot 100006 with mode := .halt } fun d => Due d 100006 ∧ d.mode = .halt) ∧
      (At (chan 6 11 9000 [(255, { Init.chan with occ := .slot, fixed := some (100006 * 65536) })]
        fun h => { h with track := { h.track with phi := 10 } }) fun d => Due d 100006 ∧ d.held .a = true) ∧
      (At (chan 6 11 9000 [(255, { Init.chan with occ := .slot, fixed := some (100006 * 65536), booked := some 1 })] id)
        fun d => Due d 100006 ∧ (d.chan .a 255).booked.isSome = true ∧ (d.chan .a 255).slot = none) ∧
      (At (occ 6 11 9000 .slot 100007) fun d =>
        ¬((100007 * 65536 : Nat) : Int) / 65536 ≤ ((d.now + 6 : Nat) : Int)) := by decide +kernel

/-- A launched shot on low-side 11 whose end is due at a tick. -/
def launched (e : Nat) (rest : List (Nat × Chan)) : Dev :=
  chan 6 11 9000 (rest ++ [(255, { Init.chan with
    occ := .launched, vals := some (vals0 6 11), slot := some 0, endT := some (e * 65536) })])
    fun h => { h with slots := [(0, 255)] }

/-- What the launch of an end assumes. -/
abbrev EndDue (d : Dev) (e : Nat) : Prop :=
  firstEdge d = true ∧
  (d.chan .a 255).occ = .launched ∧ (d.chan .a 255).endT = some (e * 65536) ∧
    isActuation (d.valsNow .a 255).action = true ∧ (d.chan .a 255).ending = false ∧
    sparseSorted (d.half .a).chans = true ∧ (d.half .a).lanes = []

theorem witness_end_launch :
    (At (launched 100006 []) fun d => EndDue d 100006 ∧ d.bookedInto .a 255 = none) ∧
      (At (launched 100005 []) fun d => EndDue d 100005 ∧ 100005 * 65536 / 65536 < d.now + 6) ∧
      (At (launched 100007 []) fun d => EndDue d 100007 ∧ d.now + 6 < 100007 * 65536 / 65536) ∧
      (At (launched 100006 [(1, { Init.chan with occ := .slot, booked := some 255 })]) fun d => EndDue d 100006 ∧
        d.bookedInto .a 255 = some 1 ∧ (d.chan .a 255).slot = some 0) := by decide +kernel

/-- A deferred shot with its own P at a tick, behind a shot of its bank that ended at tick 92,000. -/
def deferred (p gap : Nat) (ms : Nat) : Dev :=
  ((chan 6 11 9000 [(255, { Init.chan with
      occ := .deferred, vals := some (vals0 6 11), deferT := some p, e1 := some 92000 })]
    fun h => { h with slots := [(0, 255)], banks := [(5, { Init.bank with lastEnd := some 92000 })] }).setF
    (Reg.DRV_BANKLIM .a 5) F.DRV_BANKLIM_DEFER_MAX ms).setF (Reg.DRV_BANKLIM .a 5) F.DRV_BANKLIM_GAP gap

theorem witness_deferred_launch :
    (At (deferred 90000 1 9) fun d => firstEdge d = true ∧ (d.chan .a 255).occ = .deferred ∧
      (d.chan .a 255).deferT = some 90000 ∧ (d.chan .a 255).e1 = some 92000 ∧ (d.valsNow .a 255).target / 2 < 6 ∧
      d.operating = true ∧ d.issuing .a = true ∧ 92000 + d.bankGap .a 5 ≤ d.now + 6 ∧ d.held .a = false ∧
      (d.chan .a 255).waitT = none ∧ d.mode ≠ .halt ∧ d.deferExpired .a 255 90000 = false) ∧
      (At { deferred 90000 1 9 with mode := .halt } fun d => d.operating = true ∧ d.mode = .halt) ∧
      (At (deferred 90000 250 9) fun d => d.now + 6 < 92000 + d.bankGap .a 5) ∧
      (At (deferred 90000 1 1) fun d => firstEdge d = true ∧ (d.chan .a 255).deferT = some 90000 ∧
        d.deferExpired .a 255 90000 = true) := by
  decide +kernel

/-- An internal action's occurrence at a tick. -/
abbrev Internal (d : Dev) (p : Nat) (o : Occ) : Prop :=
  (d.chan .a 255).occ = o ∧ isActuation (d.vals .a 255).action = false ∧ d.operating = true ∧ d.issuing .a = true ∧
    (d.half .a).lastInternal ≠ some d.now ∧ d.chIssues .a 255 = true ∧ p ≤ d.now ∧ (d.chan .a 255).lateAt = none

theorem witness_internal_actions :
    (At (occ 7 3 0 .pending 100000) fun d => Internal d 100000 .pending ∧ d.firstInternal .a = some 255 ∧
      d.startTime .a 255 = some ((100000 * 65536 : Nat) : Int) ∧ (d.vals .a 255).action ≠ 0xA ∧ d.held .a = false ∧
      d.notIssued .a 255 (d.vals .a 255) ((100000 * 65536 : Nat) : Int) = false) ∧
      (At { occ 7 3 0 .pending 100000 with mode := .halt } fun d => Internal d 100000 .pending ∧ d.mode = .halt) ∧
      (At (occ 0xA 63 0 .pending 100000) fun d => Internal d 100000 .pending ∧
        d.notIssued .a 255 (d.vals .a 255) ((100000 * 65536 : Nat) : Int) = true) ∧
      (At (occ 0xA 63 9000 .pending 100000) fun d => Internal d 100000 .pending ∧ (d.vals .a 255).action = 0xA ∧
        d.firstInternal .a = some 255 ∧ d.notIssued .a 255 (d.vals .a 255) ((100000 * 65536 : Nat) : Int) = false) ∧
      (At (chan 7 3 0 [(254, { Init.chan with occ := .pending, fixed := some (99999 * 65536) }),
        (255, { Init.chan with occ := .pending, fixed := some (100000 * 65536) })] id |>.wr (Reg.EVC_CTRL .a 254)
        0xFF0071) fun d => Internal d 100000 .pending ∧ d.firstInternal .a ≠ some 255) := by
  decide +kernel

theorem witness_internal_waits :
    (At (chan 7 3 0 [(255, { Init.chan with occ := .pending, fixed := some (100000 * 65536), waitT := some 9 })] id)
        fun d => Internal d 100000 .pending ∧ (d.chan .a 255).waitT.isSome = true) ∧
      (At (chan 0xA 63 9000 [(255, { Init.chan with occ := .launched, endT := some (100000 * 65536) })] id) fun d =>
        Internal d 100000 .launched ∧ d.firstInternal .a = some 255 ∧ (d.chan .a 255).endT = some (100000 * 65536)) ∧
      (At (opA fun h => { h with lastInternal := some 100000 }) fun d => ¬(d.half .a).lastInternal ≠ some d.now) := by
  decide +kernel

theorem witness_anchor :
    (At ((chanA (pendingAt 0)).wr (Reg.EVC_OFFSET .a 255) 5) fun d => (d.chan .a 255).occ = .pending ∧
      (d.chan .a 255).pass = some 0 ∧ (d.chan .a 255).fixed = none ∧ 0 < (d.valsNow .a 255).offset ∧
      ((0 : Int) : Rat) ≤ d.phi .a ∧ (d.track .a).passing = false) ∧
      (At ((chanA (pendingAt 1)).wr (Reg.EVC_OFFSET .a 255) 5) fun d => ¬((1 : Int) : Rat) ≤ d.phi .a) ∧
      (At ((chanA { pendingAt 0 with waitT := some 60000 }).setF (Reg.EVC_LIMIT .a 255) F.EVC_LIMIT_MAXDEF 100) fun d =>
        (d.chan .a 255).waitT = some 60000 ∧ d.f (Reg.EVC_LIMIT .a 255) F.EVC_LIMIT_MAXDEF ≠ 0 ∧
        60000 + usTk (d.f (Reg.EVC_LIMIT .a 255) F.EVC_LIMIT_MAXDEF) ≤ d.now) ∧
      (At ((chanA { pendingAt 0 with waitT := some 60001 }).setF (Reg.EVC_LIMIT .a 255) F.EVC_LIMIT_MAXDEF 100) fun d =>
        (d.chan .a 255).waitT = some 60001 ∧
        d.now < 60001 + usTk (d.f (Reg.EVC_LIMIT .a 255) F.EVC_LIMIT_MAXDEF)) := by decide +kernel

theorem witness_arm :
    At (occ 7 3 0 .none 100160) fun d => d.reach (Reg.EVC_ARM .a 15) true = true ∧
      d.reach (Reg.EVC_DISARM .a 15) true = true ∧ d.reach (Reg.EVC_STCLR .a) true = true ∧ d.chEn .a 255 = true ∧
      d.armed .a 255 = false ∧ noTakes d = true := by decide +kernel

/-! ### Voter, Gander, commits -/

/-- A launched occurrence of channel 255 at the voter, whose start is a tick, with open permits. -/
def atVoter (action target start : Nat) (x : Chan → Chan) (ps : List Permit) (rules : List (Nat × Passed)) : Dev :=
  chan action target 9000 [(255, x { Init.chan with occ := .launched, vals := some (vals0 action target), start := start })]
    fun h => { h with gander := { Init.gander with permits := ps, sync := true, phk := true }, passed := rules }

/-- An open permit of channel 255. -/
def permit : Permit := ⟨255, true, 0, 1, 1, 1000⟩

/-- The rule of a passed actuation of channel 255 that started 36,000 ticks ago. -/
def rule9 : Passed := ⟨255, 64000, 9000, none, 9000, 9000, false⟩

theorem witness_voter_edges :
    (At (atVoter 6 11 100000 id [] []) fun d => (d.chan .a 255).occ = .launched ∧
      outputOf (d.valsNow .a 255).action (d.valsNow .a 255).target = some (.ls 11) ∧ (d.chan .a 255).passed = false ∧
      (d.chan .a 255).start ≤ d.now ∧ (d.opensNow .a (.ls 11)).permitFor .a (.ls 11) = none) ∧
      (At (atVoter 6 11 100000 id [permit] []) fun d => (d.opensNow .a (.ls 11)).permitFor .a (.ls 11) = some permit) ∧
      (At (atVoter 6 11 100001 id [permit] []) fun d => d.now < (d.chan .a 255).start) ∧
      (At (atVoter 6 11 9 (fun x => { x with passed := true, ending := true, endT := some (100000 * 65536) }) []
        [(11, rule9)]) fun d => (d.chan .a 255).passed = true ∧ (d.chan .a 255).endT = some (100000 * 65536) ∧
          (d.chan .a 255).ending = true ∧ 100000 * 65536 / 65536 ≤ d.now ∧
          sparseFind (d.half .a).passed (Output.ls 11).key = some rule9 ∧ rule9.chan = 255 ∧
          rule9.ended = false ∧ d.endFits .a rule9 = true) ∧
      (At (atVoter 6 11 9 (fun x => { x with passed := true, ending := true, endT := some (100000 * 65536) }) [] [])
        fun d => sparseFind (d.half .a).passed (Output.ls 11).key = none) := by decide +kernel

theorem witness_gao :
    (At ((atVoter 3 15 100000 id [permit] []).setB (Reg.GAO_LVL .a) ⟨31, 31⟩ true) fun d =>
      (d.chan .a 255).occ = .launched ∧ (d.valsNow .a 255).action = 3 ∧ d.bit (Reg.GAO_LVL .a) ⟨31, 31⟩ = true ∧
      outputOf (d.valsNow .a 255).action (d.valsNow .a 255).target = some (.gao 15) ∧ (d.chan .a 255).passed = false ∧
      (d.chan .a 255).start ≤ d.now ∧ (d.opensNow .a (.gao 15)).permitFor .a (.gao 15) = some permit ∧ d.bit (Reg.GAO_LVL .a) ⟨15, 15⟩ = false) ∧
      (At (atVoter 4 15 9 (fun x => { x with passed := true, ending := true, endT := some (100000 * 65536) }) []
        [(0x20F, rule9)]) fun d => (d.valsNow .a 255).action = 4 ∧ (d.chan .a 255).passed = true ∧
          (d.chan .a 255).ending = true ∧ sparseFind (d.half .a).passed (Output.gao 15).key = some rule9 ∧
          d.endFits .a rule9 = true) := by decide +kernel

/-- Channel 255 waits with a passed anchor, the Gander in sync at a distance of its window, which is 10 AU wide. -/
def opening (x : Chan → Chan) (g : Gander → Gander) (a : Int) : Dev :=
  ((chan 6 11 9000 [(255, x { Init.chan with occ := .slot, pass := some a })]
    fun h => { h with gander := g { Init.gander with sync := true, phk := true } }).wr (Reg.GDR_CFG .a) 0).setF
    (Reg.EVC_LIMIT .a 255) F.EVC_LIMIT_CULIM 1

theorem witness_permits :
    (At (opening id id 0) fun d => d.chanOutput .a 255 = some (.ls 11) ∧ (d.gdr .a).sync = true ∧
      (d.gdr .a).phk = true ∧ (d.chan .a 255).occ = .slot ∧ (d.chan .a 255).pass = some 0 ∧ d.chEn .a 255 = true ∧
      (d.gdr .a).permits = [] ∧ d.operating = true ∧ d.ganderSpeed .a = 0 ∧ (d.valsNow .a 255).offset = 0 ∧
      Dev.nearest (d.cycLen .a) (d.ganderAngle .a) (d.phi .a) = 0 ∧ d.rd (Reg.GDR_CFG .a) = 0 ∧
      d.f (Reg.EVC_LIMIT .a 255) F.EVC_LIMIT_CULIM = 1) ∧
      (At (opening id (fun g => { g with sync := false }) 0) fun d => (d.gdr .a).sync = false) ∧
      (At (opening (fun x => { x with pass := none }) id 0) fun d => (d.chan .a 255).pass = none) ∧
      (At (opening id (fun g => { g with permits := [{ permit with centre := -2000 }] }) 0) fun d =>
        (-2000 : Rat) - 1 + 1000 < Dev.nearest (d.cycLen .a) (d.ganderAngle .a) (d.phi .a)) ∧
      (At (opening id (fun g => { g with permits := [permit] }) 0) fun d =>
        Dev.nearest (d.cycLen .a) (d.ganderAngle .a) (d.phi .a) ≤ (0 : Rat) - 1 + 1000) ∧
      (At { op with mode := .service } fun d => d.operating = false) := by decide +kernel

theorem witness_duration_limit :
    (At (atVoter 6 11 9 id [] [(11, rule9)]) fun d =>
      (d.half .a).passed.find? (fun e => decide (e.2.chan = 255)) = some (11, rule9) ∧
      rule9.m ≤ d.now / 4 - rule9.start / 4 ∧ rule9.ended = false ∧ d.endsNow .a 255 = false) ∧
      (At (atVoter 6 11 9 id [] [(11, { rule9 with ended := true })]) fun d =>
        (d.half .a).passed.find? (fun e => decide (e.2.chan = 255)) = some (11, { rule9 with ended := true })) ∧
      (At (atVoter 6 11 9 id [] [(11, { rule9 with m := 9001 })]) fun d =>
        d.now / 4 - rule9.start / 4 < 9001) := by decide +kernel

/-- The Gander of Half A, with its last edge 1,000 ticks before an edge `dt` ticks after it, in a window of a quarter:
LO code 4 and HI code 1 of class 0. -/
def gander (dt : Nat) (gap : Bool) (g : Gander → Gander) : Dev :=
  let x := { Init.gander with
    sync := true, tPrev := 100000 - dt, period := 1000, d := 1, dNext := 1, lastT := some (100000 - dt) }
  let d := (opA fun h => { h with gander := g x }).setF (Reg.WHL_WCFG .a) F.WHL_WCFG_NENT 60
  let d := (d.wr (Reg.WHL_WTAB .a 0) (if gap then 0x2000000 else 0)).setB (Reg.SNS_STAT .a) F.SNS_STAT_REGIME true
  ((d.setF (Reg.WHL_WWIN .a) F.WHL_WWIN_LO0 4).setF (Reg.WHL_WWIN .a) F.WHL_WWIN_HI0 1).setF (Reg.WHL_SYNCCFG .a)
    F.WHL_SYNCCFG_MAXREJ 1

/-- The edge is not too soon, the Gander holds sync. -/
abbrev GEdge (d : Dev) (f : Dev.Fit) (gap : Bool) : Prop :=
  d.capturing .a = true ∧ d.startUp .a = false ∧ (d.gdr .a).sync = true ∧ (d.gdr .a).camLimp = false ∧
    d.dirsrc .a = 0 ∧ d.f (Reg.SNS_FILT .a) F.SNS_FILT_CRK_FILT = 0 ∧ d.ganderFit .a d.now (d.wClass .a ((d.gdr .a).idx + 1)) = f ∧ d.wGap .a (d.gdr .a).idx = gap

theorem witness_gander_edges :
    (At (gander 750 false id) fun d => GEdge d .inside false) ∧
      (At (gander 749 false id) fun d => GEdge d .below false ∧
        (d.gdr .a).rejRev + 1 ≤ d.f (Reg.WHL_SYNCCFG .a) F.WHL_SYNCCFG_MAXREJ) ∧
      (At (gander 749 false fun g => { g with rejRev := 1 }) fun d => GEdge d .below false ∧
        d.f (Reg.WHL_SYNCCFG .a) F.WHL_SYNCCFG_MAXREJ < (d.gdr .a).rejRev + 1) ∧
      (At (gander 749 true id) fun d => GEdge d .below true) ∧
      (At (gander 1251 false id) fun d => GEdge d .above false) := by decide +kernel

theorem witness_gander_start_up :
    (At { op with mode := .load } fun d => d.capturing .a = false) ∧
      (At (((gander 9 false id).setB (Reg.SNS_STAT .a) F.SNS_STAT_REGIME false).setF (Reg.SNS_MININT .a)
        F.SNS_MININT_MIN_INT 3) fun d => (d.gdr .a).lastT = some 99991 ∧ d.startUp .a = true ∧
          d.now - 99991 < 4 * d.f (Reg.SNS_MININT .a) F.SNS_MININT_MIN_INT) ∧
      (At (((gander 9 false id).setF (Reg.WHL_CAMCFG .a) F.WHL_CAMCFG_PHCAM 8).setF (Reg.WHL_CAMCFG .a)
        F.WHL_CAMCFG_NDEC 2) fun d => (d.gdr .a).phk = false ∧ d.phaseCam .a 3 = true ∧
          d.f (Reg.SNS_FILT .a) F.SNS_FILT_CAM_FILT = 0 ∧ 1 < d.f (Reg.WHL_CAMCFG .a) F.WHL_CAMCFG_NDEC ∧ (d.gdr .a).v0 = 0 ∧ (d.gdr .a).v1 = 0) := by decide +kernel

theorem witness_index_compare :
    (At (gander 9 false fun g => { g with waiting := some (true, 99200) }) fun d =>
      (d.gdr .a).waiting = some (true, 99200) ∧ 99200 + usTk 2 ≤ d.now ∧
      ((d.tracking .a && (d.gdr .a).sync) || (d.gdr .a).lost) = true) ∧
      (At (gander 9 false fun g => { g with sync := false, waiting := some (true, 99200) }) fun d =>
        ((d.tracking .a && (d.gdr .a).sync) || (d.gdr .a).lost) = false) ∧
      (At (gander 9 false fun g => { g with waiting := some (true, 99201) }) fun d => d.now < 99201 + usTk 2) ∧
      (At (gander 9 false fun g => { g with waiting := some (true, 99200) }) fun d =>
        d.now ≤ 99200 + usTk 2 ∧ d.tracking .a = true ∧ (d.half .a).wheel.k = (d.gdr .a).idx) ∧
      (At (gander 9 false fun g => { g with idx := 1, waiting := some (true, 99200) }) fun d =>
        (d.half .a).wheel.k ≠ (d.gdr .a).idx) := by decide +kernel

/-- A commit of group 0. -/
def commit0 : Commit := ⟨1, 0, false, true, 0, 0, 0, 0, false, none, none, false, false, false, none, false⟩

/-- A device with a commit in Half A, and one in Half B. -/
def commits (x y : Option Commit) : Dev := { op with a := { op.a with commit := x }, b := { op.b with commit := y } }

theorem witness_commit_arrival :
    (At op fun d => d.reach (Reg.DMD_CMT .a) true = true ∧ (d.half .a).commit = none ∧ (d.half .b).commit = none ∧
      d.operating = true ∧ d.absent .a = false ∧ d.absent .b = false ∧ d.issuing .a = true ∧ d.xlkA = true ∧ d.xlkB = true ∧
      (d.rd (Reg.DMD_WHEN_LO .a)).toNat < d.cycLen .a) ∧
      (At (op.wr (Reg.DMD_WHEN_LO .a) 5898240) fun d => d.cycLen .a ≤ (d.rd (Reg.DMD_WHEN_LO .a)).toNat) ∧
      (At (commits none (some commit0)) fun d => (d.half .b).commit.isSome = true) ∧
      (At { op with mode := .service } fun d => d.reach (Reg.DMD_CMT .a) true = true ∧ d.operating = false) ∧
      (At { op with b := Init.half } fun d => d.absent .b = true) ∧
      (At (inMode .seek) fun d => d.issuing .a = false) ∧
      (At { op with xlkB := false } fun d => d.xlkB = false) := by decide +kernel

theorem witness_abort_and_stage :
    (At (commits (some commit0) none) fun d => d.reach (Reg.DMD_CMT .a) true = true ∧
      (d.half .a).commit = some commit0 ∧ commit0.lead = true ∧ d.dmdDue .a = false) ∧
      (At (commits (some { commit0 with checked := true, fixedT := some 100000 }) none) fun d =>
        d.dmdDue .a = true ∧ d.dmdPass .a = false) ∧
      (At op fun d => d.leadOf .a ≠ some .a) ∧
      (At (commits (some commit0) none) fun d => d.reach (Reg.DMD_ANGLE .a 15 + 20) true = true ∧
        commit0.lockT ≤ d.now ∧ commit0.groups.getLsbD (15 / 16) = true ∧ commit0.groups.getLsbD (16 / 16) = false) ∧
      (At (commits (some { commit0 with lockT := 100001 }) none) fun d => d.now < 100001) := by
  decide +kernel

theorem witness_commit_checks :
    (At (commits (some commit0) none) fun d => (d.half .a).commit = some commit0 ∧ commit0.lead = true ∧
      commit0.waits = false ∧ commit0.checkEnd = none ∧ commit0.cross = false ∧
      (d.dmdView .a commit0).checks (Dev.groupSlots commit0.groups) = none) ∧
      (At ((commits (some commit0) none).wr (Reg.DMD_ANGLE .a 0) 5898240) fun d =>
        (d.dmdView .a commit0).checks (Dev.groupSlots commit0.groups) ≠ none) ∧
      (At (commits (some { commit0 with waits := true }) none) fun d =>
        (d.half .a).commit = some { commit0 with waits := true }) ∧
      (At (commits (some { commit0 with apply := 2, target := 1 }) none) fun d => d.phi .a < ((1 : Int) : Rat)) ∧
      (At (commits (some { commit0 with cross := true }) (some { commit0 with lead := false })) fun d =>
        (d.half .b).commit = some { commit0 with lead := false }) := by decide +kernel

/-- A cross-half commit at an angle, PENDING in both halves. -/
def crossed : Commit := { commit0 with cross := true, apply := 2, checked := true, checkEnd := some 9 }

/-- With no channel in use nothing is due before a switch. -/
theorem no_take_idle {d : Dev} {k : Half} (h : (d.half k).chans = []) (n : Nat) : Claims.NoTakeBelow d k n := by
  intro j q _ ho
  simp [Dev.chan, sparseGet, h, sparseFind, Init.chan] at ho

theorem witness_commit_switch :
    (At (commits (some crossed) none) fun d => (d.half .a).chans = [] ∧ (d.half .b).chans = [] ∧
      d.firstInternal .a = none ∧ d.firstInternal .b = none) ∧
      (At (commits (some crossed) (some crossed)) fun d => (d.half .a).commit = some crossed ∧ crossed.checked = true ∧
      crossed.fixedT = none ∧ (d.half .b).commit = some crossed) ∧
      (At (commits (some { commit0 with checked := true, fixedT := some 100000 }) none) fun d =>
        (d.half .a).commit = some { commit0 with checked := true, fixedT := some 100000 } ∧ 100000 ≤ d.now ∧
        (d.track .a).passing = false) ∧
      (At (commits (some { commit0 with checked := true, fixedT := some 100001 }) none) fun d => d.now < 100001) ∧
      (At { commits (some { commit0 with checked := true, fixedT := some 100000 }) none with
        a := { op.a with
          commit := some { commit0 with checked := true, fixedT := some 100000 }
          track := { Init.track with passing := true } } } fun d => (d.track .a).passing = true) := by decide +kernel

/-! ### Injectors, ignition, timers, PWM -/

/-- A shot on low-side 11 that began 20,000 ticks ago. -/
def shot0 : Shot :=
  { chan := 255, ls := 11, prof := 0, pboost := 0, ppeak := 0, phold := 0, pcfg := 0, pdiag := 0, pneedle := 0, phyd := 0
    diag := 0, minChop := 8000, pos := 7, corr := 0, durDem := 9000, start := 80000, endT := 0, degraded := false, lateboost := false
    deferred := false, bankOff := false, cut := false, refresh := false, holdTmo := false, openLoad := false
    ttpLong := false, ttpShort := false, oc := false, vdsLs := false, vdsHsv := false, vdsHsb := false, boosted := false
    ttp := some 9, phaseT := 80000, peakT := 80000, nextHold := false, knee := none, closeKnee := none, armT := none
    record := false, searchDone := false }

/-- A word with one field. -/
def word (f : Fld) (n : Nat) : Word := BitVec.ofNat 32 (n * 2 ^ f.lo)

/-- Bank 5 of Half A in a phase with a shot. -/
def bank5 (ph : ShotPhase) (x : Shot) (f : Bank → Bank) : Dev :=
  opA fun h => { h with banks := [(5, f { Init.bank with phase := ph, shot := some x })] }

/-- The shot of bank 5, in a phase. -/
abbrev Runs (d : Dev) (ph : ShotPhase) (x : Shot) : Prop := (d.bank .a 5).shot = some x ∧ (d.bank .a 5).phase = ph

theorem witness_shot_phases :
    (At (bank5 .boost { shot0 with pboost := word F.DRV_PBOOST_TMAX 500 } id) fun d =>
      Runs d .boost { shot0 with pboost := word F.DRV_PBOOST_TMAX 500 } ∧
      80000 + 40 * getF (word F.DRV_PBOOST_TMAX 500) F.DRV_PBOOST_TMAX ≤ d.now) ∧
      (At (bank5 .boost { shot0 with pboost := word F.DRV_PBOOST_TMAX 501 } id) fun d =>
        ¬80000 + 40 * getF (word F.DRV_PBOOST_TMAX 501) F.DRV_PBOOST_TMAX ≤ d.now) ∧
      (At (bank5 .transFast { shot0 with pcfg := word F.DRV_PCFG_TFAST 100, phaseT := 96000 } id) fun d =>
        Runs d .transFast { shot0 with pcfg := word F.DRV_PCFG_TFAST 100, phaseT := 96000 } ∧
        96000 + 40 * getF (word F.DRV_PCFG_TFAST 100) F.DRV_PCFG_TFAST ≤ d.now) ∧
      (At (bank5 .transSlow shot0 id) fun d => Runs d .transSlow shot0) ∧
      (At (bank5 .peak { shot0 with ppeak := word F.DRV_PPEAK_TIME 500 } id) fun d =>
        Runs d .peak { shot0 with ppeak := word F.DRV_PPEAK_TIME 500 } ∧
        80000 + 40 * getF (word F.DRV_PPEAK_TIME 500) F.DRV_PPEAK_TIME ≤ d.now) ∧
      (At (bank5 .hold { shot0 with phold := word F.DRV_PHOLD_TIME 50, nextHold := true } id) fun d =>
        Runs d .hold { shot0 with phold := word F.DRV_PHOLD_TIME 50, nextHold := true } ∧
        getF (word F.DRV_PHOLD_TIME 50) F.DRV_PHOLD_TIME ≠ 0 ∧
        80000 + usTk (getF (word F.DRV_PHOLD_TIME 50) F.DRV_PHOLD_TIME) ≤ d.now) := by decide +kernel

theorem witness_shot_justended :
    (At (bank5 .decay { shot0 with endT := 100000, record := true, openLoad := true, boosted := true, ttp := none } id)
      fun d => Runs d .decay { shot0 with endT := 100000, record := true, openLoad := true, boosted := true, ttp := none } ∧
        100000 / 4 = d.now / 4) ∧
      (At (bank5 .decay { shot0 with
        endT := 100000, record := true, phold := word F.DRV_PHOLD_TIME 50, nextHold := true } id) fun d =>
        (d.bank .a 5).phase = .decay ∧ getF (word F.DRV_PHOLD_TIME 50) F.DRV_PHOLD_TIME ≠ 0 ∧
        80000 + usTk (getF (word F.DRV_PHOLD_TIME 50) F.DRV_PHOLD_TIME) ≤ d.now) ∧
      (At (bank5 .decay { shot0 with endT := 99999, record := true } id) fun d => 99999 / 4 ≠ d.now / 4) := by
  decide +kernel

/-- A gate on since a tick, or off. -/
def gateUp (t : Nat) : Gate := ⟨true, false, t, t, t, 0⟩

theorem witness_shot_protection :
    (At (bank5 .peak shot0 fun x => { x with hsv := gateUp 92000 }) fun d => Runs d .peak shot0 ∧
      (d.bank .a 5).hsv.on = true ∧ (d.bank .a 5).hsv.since ≤ d.now ∧
      shot0.bankOff = false ∧ shot0.ttp.isSome = true) ∧
      (At (bank5 .peak shot0 fun x => { x with hsv := gateUp 100001 }) fun d => (d.bank .a 5).hsv.on = true ∧
        d.now < (d.bank .a 5).hsv.since ∧ (d.bank .a 5).hsv.since ≤ d.now + shot0.minChop) ∧
      (At (bank5 .hold { shot0 with diag := word F.DRV_BANKDIAG_OL 9 } id) fun d =>
        Runs d .hold { shot0 with diag := word F.DRV_BANKDIAG_OL 9 } ∧ 80000 + usTk 20 ≤ d.now ∧
        (8#10).toNat < getF (word F.DRV_BANKDIAG_OL 9) F.DRV_BANKDIAG_OL) ∧
      (At (bank5 .hold { shot0 with start := 99999 } id) fun d => ¬99999 + usTk 20 ≤ d.now) ∧
      (At (bank5 .hold shot0 fun x => { x with
        hsb := gateUp 99800, hsv := gateUp 99800, inj := gateUp 99800, monHsb := true }) fun d =>
          Runs d .hold shot0 ∧ (d.bank .a 5).monHsb = true ∧ Dev.gateOn (d.bank .a 5).hsb d.now = true ∧
          Dev.gateOn (d.bank .a 5).hsv d.now = true ∧ Dev.gateOn (d.bank .a 5).inj d.now = true ∧
          99800 + 200 * (getF shot0.diag F.DRV_BANKDIAG_BLANK + 1) ≤ d.now) ∧
      (At (bank5 .hold shot0 id) fun d => Dev.tripLive (d.bank .a 5) d.now .oc = false ∧
        Dev.gateOn (d.bank .a 5).hsb d.now = false) ∧
      (let e : Dev := { bank5 .hold shot0 fun x => { x with hsb := gateUp 5, hsv := gateUp 5 } with timeBase := 2000005 }
       let d := (st e).devAt 2000005
       (d.bank .a 5).hsb.on = true ∧ Dev.gateOn (d.bank .a 5).hsb d.now = true ∧
       (d.bank .a 5).hsb.fullT + usTk 5000 ≤ d.now ∧ (d.bank .a 5).hsv.fullT + usTk 5000 ≤ d.now) ∧
      (At (bank5 .decay shot0 id) fun d => Runs d .decay shot0) := by decide +kernel

/-- A sampled signal: 20 samples that rise, then a level. -/
def ramp : List Nat := (List.range 45).map fun i => min (10 * i) 190

/-- A shot whose needle is searched with a fall to a half of the slope. -/
def needle : Shot := { shot0 with
  pcfg := word F.DRV_PCFG_NEEDLE_EN 1, pneedle := word F.DRV_PNEEDLE_OWE 25 ||| word F.DRV_PNEEDLE_KO 8 }

/-- A shot whose closing is searched likewise, armed with its end. -/
def closes : Shot := { shot0 with
  endT := 80000, phyd := word F.DRV_PHYD_CWIN 25 ||| word F.DRV_PHYD_KC 8, record := true, armT := some 80000 }

theorem witness_knee : Claims.KneeAt 8 16 (ramp.map fun (v : Nat) => (v : Int)) 28 ∧
    Claims.KneeAt 8 16 ((ramp.map fun v => 190 - v).map fun (v : Nat) => -(v : Int)) 28 := by
  unfold Claims.KneeAt; decide +kernel

theorem witness_needle :
    (At (bank5 .hold needle id) fun d => Runs d .hold needle ∧ getB needle.pcfg F.DRV_PCFG_NEEDLE_EN = true ∧
      needle.bankOff = false ∧ needle.knee = none ∧ 2 ^ (getF needle.pneedle F.DRV_PNEEDLE_SW + 4) = 16 ∧
      getF needle.pneedle F.DRV_PNEEDLE_KO = 8 ∧
      80000 + usTk (2 * getF needle.pneedle F.DRV_PNEEDLE_OWS) + 4 * (ramp.length - 1) ≤ d.now ∧
      80000 + usTk (2 * getF needle.pneedle F.DRV_PNEEDLE_OWS) + 4 * 28 ≤
        80000 + usTk (2 * getF needle.pneedle F.DRV_PNEEDLE_OWE)) ∧
      (At (bank5 .idle closes id) fun d => Runs d .idle closes ∧ closes.searchDone = false ∧
        2 ^ (getF closes.pneedle F.DRV_PNEEDLE_SW + 4) = 16 ∧ getF closes.phyd F.DRV_PHYD_KC = 8 ∧
        80000 + 4 * (ramp.length - 1) ≤ d.now ∧
        80000 + 4 * 28 ≤ 80000 + usTk (2 * getF closes.phyd F.DRV_PHYD_CWIN) ∧
        80000 + usTk (2 * getF closes.phyd F.DRV_PHYD_CWIN) ≤ d.now) ∧
      (At (bank5 .idle { closes with endT := 90000, armT := none } id) fun d =>
        d.now < 90000 + usTk (2 * getF closes.phyd F.DRV_PHYD_CWIN)) ∧
      (At (bank5 .idle { shot0 with record := true, searchDone := true } id) fun d =>
        Runs d .idle { shot0 with record := true, searchDone := true } ∧ shot0.ls < 12 ∧ shot0.pos < 8) := by
  decide +kernel

theorem witness_shot_start :
    (At (atVoter 6 11 100000 id [permit] []) fun d => (d.chan .a 255).occ = .launched ∧
      (d.valsNow .a 255).action = 6 ∧ (d.valsNow .a 255).target = 11 ∧ (d.valsNow .a 255).profile < 16 ∧
      (d.chan .a 255).passed = false ∧ (d.chan .a 255).start ≤ d.now ∧
      (d.opensNow .a (.ls 11)).permitFor .a (.ls 11) = some permit ∧
      (d.bank .a 5).shot = none) ∧
      (At (bank5 .decay shot0 id) fun d => (d.bank .a 5).phase = .decay ∧ d.laneFault = false ∧
        d.reach (Reg.DRV_BANKCLR .a) true = true ∧ d.reach (Reg.DRV_HYDCLR .a) true = true) := by decide +kernel

theorem witness_boost :
    (At (op.setB (Reg.BST_CTRL .a) F.BST_CTRL_EN true) fun d => d.operating = true ∧ (d.half .a).enabled = true ∧
      d.bit (Reg.BST_CTRL .a) F.BST_CTRL_EN = true ∧ d.sentinel = false ∧
      d.bit (Reg.BST_STAT .a) F.BST_STAT_OV_ACT = false) ∧
      (At (op.setB (Reg.BST_STAT .a) F.BST_STAT_OV_ACT true) fun d =>
        d.bit (Reg.BST_STAT .a) F.BST_STAT_OV_ACT = true) ∧
      (At (((opA fun h => { h with boost := ⟨false, none, some 0⟩ }).setB (Reg.BST_CTRL .a) F.BST_CTRL_EN true).setF
        (Reg.BST_PROT .a) F.BST_PROT_UVTIME 0) fun d => (d.half .a).boost.uvT = some 0 ∧
          0 + 400000 * d.f (Reg.BST_PROT .a) F.BST_PROT_UVTIME ≤ d.now) ∧
      (At { op with mode := .service } fun d => d.operating = false ∧ d.bit (Reg.BST_CTRL .a) F.BST_CTRL_EN = false) := by
  decide +kernel

/-- IGN output 11 of Half A. -/
def ign11 (x : Ign) : Dev := opA fun h => { h with ign := [(11, x)] }

theorem witness_ignition :
    (At (ign11 { Init.ign with high := true, dwellT := some 60000, cfg := word F.IGN_CFG_TMAX 1 }) fun d =>
      (d.ign .a 11).dwellT = some 60000 ∧ (d.ign .a 11).softoff = false ∧ d.endEdgeNow .a 11 = false ∧
      60000 + 40000 * getF (d.ign .a 11).cfg F.IGN_CFG_TMAX ≤ d.now) ∧
      (At (ign11 { Init.ign with high := true, dwellT := some 60001, cfg := word F.IGN_CFG_TMAX 1 }) fun d =>
        (d.ign .a 11).dwellT = some 60001 ∧ d.now < 60001 + 40000 * getF (d.ign .a 11).cfg F.IGN_CFG_TMAX ∧
        (d.ign .a 11).ignoreEnd = false) ∧
      (At (ign11 { Init.ign with left := 1, nextT := some 100000 }) fun d => (d.ign .a 11).nextT = some 100000 ∧
        100000 ≤ d.now ∧ (d.ign .a 11).recharging = false ∧ (d.ign .a 11).dwellT = none) ∧
      (At (ign11 { Init.ign with left := 1, nextT := some 100000, recharging := true }) fun d =>
        (d.ign .a 11).recharging = true) ∧
      (At (ign11 { Init.ign with nextT := some 100001 }) fun d => (d.ign .a 11).nextT = some 100001 ∧ d.now < 100001) ∧
      (At (ign11 { Init.ign with softoff := true, rampT := 60000, rampTk := 40000 }) fun d =>
        (d.ign .a 11).softoff = true ∧ 60000 + 40000 ≤ d.now ∧ d.laneFault = false) ∧
      (At (ign11 { Init.ign with softoff := true, rampT := 60001, rampTk := 40000 }) fun d => d.now < 60001 + 40000) ∧
      (At (op.setB (Reg.IGN_CFG .a 11) F.IGN_CFG_EN true) fun d => d.bit (Reg.IGN_CFG .a 11) F.IGN_CFG_EN = true ∧
        (d.ign .a 11).softoff = false ∧ (d.ign .a 11).nextT = none) := by decide +kernel

/-- Timer 63 with its compare low word, armed or not, having fired in this cycle or not. -/
def timer (lo : Nat) (f : Option TmrArm) (g : Option TmrFire) : Dev :=
  ({ op with
    fireT := match f with | some x => [(63, x)] | none => []
    firedT := match g with | some x => [(63, x)] | none => [] } : Dev).wr (Reg.TMR_CMP_LO 63) (BitVec.ofNat 32 lo)

/-- An arm for a tick, by a source, in a cycle. -/
def armFor (due src armed : Nat) : TmrArm := ⟨due, false, due, src, armed⟩

theorem witness_timers :
    (At (timer 0 (some (armFor 100000 0 5)) none) fun d => sparseFind d.fireT 63 = some (armFor 100000 0 5) ∧
      (armFor 100000 0 5).due ≤ d.now ∧ d.armedNow 63 = none) ∧
      (At (timer 0 (some (armFor 100001 0 5)) none) fun d => sparseFind d.fireT 63 = some (armFor 100001 0 5) ∧
        d.now < (armFor 100001 0 5).due) ∧
      (At (timer 100001 none none) fun d => sparseFind d.fireT 63 = none ∧ d.reach (Reg.TMR_ARM 1) true = true ∧
        d.reach (Reg.TMR_DISARM 1) true = true ∧ d.reach Reg.TMB_LO false = true ∧ d.armedNow 63 = none ∧
        (d.firedNow 63).isSome = false ∧ d.bit (Reg.TMR_CTRL 63) F.TMR_CTRL_MODE = false ∧
        d.now < (d.rd (Reg.TMR_CMP_LO 63)).toNat + (d.rd (Reg.TMR_CMP_HI 63)).toNat * 2 ^ 32 ∧
        63 / 32 = 1 ∧ (0x80000000#32).getLsbD (63 % 32) = true) ∧
      (At (timer 100000 none none) fun d => d.firedT = [] ∧
        (d.rd (Reg.TMR_CMP_LO 63)).toNat + (d.rd (Reg.TMR_CMP_HI 63)).toNat * 2 ^ 32 ≤ d.now) := by decide +kernel

theorem witness_timers_same_cycle :
    (At (timer 100000 none (some ⟨100000, armFor 100000 0 5, 0⟩)) fun d => (d.firedNow 63).isSome = true ∧
      d.armedNow 63 = none ∧ sparseFind d.fireT 63 = none) ∧
      (At (timer 200000 (some (armFor 300000 1 100000)) none) fun d => d.armedNow 63 = some (armFor 300000 1 100000) ∧
        0 < (armFor 300000 1 100000).src ∧ Dev.armCode .event < 2 ∧ (armFor 300000 1 100000).src ≤ Dev.armCode .event) ∧
      (At (timer 200000 none (some ⟨100000, armFor 100000 1 100000, 0⟩)) fun d =>
        d.armedNow 63 = some (armFor 100000 1 100000) ∧
        d.firedNow 63 = some ⟨100000, armFor 100000 1 100000, 0⟩) := by decide +kernel

/-- No timer has fired in this cycle where none has a fire kept. -/
theorem fired_none {d : Dev} (h : d.firedT = []) (j : Nat) : d.firedNow j = none := by
  simp [Dev.firedNow, h, sparseFind]

/-- PWM channel 31 in a state, enabled. -/
def pwm31 (x : Pwm) : Dev :=
  ({ op with pwm := [(31, x)] } : Dev).setB (Reg.PWM_CFG 31) F.PWM_CFG_EN true

theorem witness_pwm_periods :
    (At (pwm31 { Init.pwm with endT := 100000 }) fun d => d.counts 31 = true ∧ (d.pwmC 31).endT ≤ d.now ∧
      d.pwmEn 31 = true ∧ d.reach (Reg.PWM_CFG 31) true = true ∧ d.reach Reg.PWM_SYNC true = true ∧
      (0x80000000#32).getLsbD 31 = true ∧ (d.pwmC 31).reloadT ≠ d.now ∧ (0x80000000#32).getLsbD (31 - 1) = false) ∧
      (At (pwm31 { Init.pwm with endT := 100001 }) fun d => d.now < (d.pwmC 31).endT) ∧
      (At op fun d => d.pwmEn 31 = false ∧ (d.pwmC 30).comp = false ∧ getB 1 F.PWM_CFG_EN = true) ∧
      (At { op with pwm := [(30, { Init.pwm with comp := true })] } fun d => (d.pwmC 30).comp = true) := by decide +kernel

theorem witness_pwm_writes :
    (At (pwm31 { Init.pwm with endT := 200000 }) fun d => d.reach (Reg.PWM_PER 31) true = true ∧
      d.reach (Reg.PWM_RISE 31) true = true ∧ d.reach (Reg.PWM_FALL 31) true = true ∧ getF 1 F.PWM_PER_PER < 2 ∧
      2 ≤ getF 2 F.PWM_PER_PER ∧ (d.pwmC 31).endT ≠ d.now ∧ (d.pwmC 31).imm = false) ∧
      (At (pwm31 { Init.pwm with endT := 200000, imm := true, reloadT := 99991 }) fun d => (d.pwmC 31).imm = true ∧
        d.counts 31 = true ∧ (d.pwmC 31).endT ≠ d.now ∧ (d.pwmC 31).endT ≠ d.now + 1 ∧
        (d.now + 1 - (d.pwmC 31).reloadT) / ((d.pwmC 31).psc + 1) + 1 < getF 12 F.PWM_PER_PER ∧
        getF 11 F.PWM_PER_PER ≤ (d.now + 1 - (d.pwmC 31).reloadT) / ((d.pwmC 31).psc + 1) + 1) ∧
      (At (pwm31 { Init.pwm with endT := 100001, imm := true }) fun d => d.counts 31 = true ∧
        (d.pwmC 31).endT = d.now + 1) ∧
      (At (pwm31 { Init.pwm with endT := 100000 }) fun d => d.counts 31 = true ∧ (d.pwmC 31).endT = d.now ∧
        d.bit (Reg.PWM_CFG 31) F.PWM_CFG_IMM = false) := by decide +kernel

/-- A wave of 9 PWM clocks from tick 100,000 − `ago`, high from COUNT 1 to COUNT 5. -/
def wave (ago : Nat) : Pwm :=
  { Init.pwm with per := 9, rise := word F.PWM_EDGE_COUNT 1, fall := word F.PWM_EDGE_COUNT 5, reloadT := 100000 - ago }

/-- A pair of channels 30 and 31. -/
def pair15 (x y : Pwm) : Dev :=
  (({ op with pwm := [(30, x), (31, y)] } : Dev).setB (Reg.PWM_CFG 30) F.PWM_CFG_EN true).setB (Reg.PWM_CFG 31)
    F.PWM_CFG_EN true

/-- The edges of a wave are told apart, and fall into its period. -/
abbrev TwoEdges (x : Pwm) : Prop :=
  x.rise ≠ 0xFFFFFFFF ∧ x.fall ≠ 0xFFFFFFFF ∧ x.rise ≠ x.fall ∧ getF x.rise F.PWM_EDGE_COUNT < x.per ∧
    getF x.fall F.PWM_EDGE_COUNT < x.per ∧ x.riseDue = none ∧ x.fallDue = none

/-- The place of a compare word in taps. -/
def place (x : Pwm) (w : Word) : Nat := 32 * (x.psc + 1) * getF w F.PWM_EDGE_COUNT + getF w F.PWM_EDGE_FINE

theorem witness_pwm_edges :
    (At (pair15 (wave 1) (wave 1)) fun d => d.pwmEn 31 = true ∧ d.pwmEn (d.pwmRef 31) = true ∧
      (d.pwmC 30).comp = false ∧ (d.pwmC 30).minp = 0 ∧ d.pwmC 31 = wave 1 ∧ TwoEdges (wave 1) ∧
      32 * (wave 1).setT ≤ 32 * (wave 1).reloadT + place (wave 1) (wave 1).rise ∧
      (32 * (wave 1).reloadT + place (wave 1) (wave 1).rise + 0) / 32 = d.now ∧
      (32 * (wave 1).reloadT + place (wave 1) (wave 1).fall + 0) / 32 ≠ d.now) ∧
      (At (pair15 { wave 5 with fall := (wave 5).rise } { wave 5 with rise := (wave 5).fall }) fun d =>
        (d.pwmC 31).rise = (d.pwmC 31).fall ∧ (d.pwmC 31).fall ≠ 0xFFFFFFFF ∧
        getF (d.pwmC 31).fall F.PWM_EDGE_COUNT < (d.pwmC 31).per) ∧
      (At (pair15 (wave 1) { wave 1 with rise := 0xFFFFFFFF }) fun d => (d.pwmC 31).rise = 0xFFFFFFFF) ∧
      (At op fun d => d.pwmEn 31 = false) := by decide +kernel

theorem witness_pwm_minimum :
    (At (pair15 { wave 1 with minp := 150 } (wave 1)) fun d => (d.pwmC 30).comp = false ∧ (d.pwmC 30).minp = 150 ∧
      (place (wave 1) (wave 1).fall + 2 * (32 * 9) - place (wave 1) (wave 1).rise) % (32 * 9) < 150 ∧
      150 ≤ (place (wave 1) (wave 1).rise + 2 * (32 * 9) - place (wave 1) (wave 1).fall) % (32 * 9) ∧
      (d.pwmC 30).stretch = false ∧ 32 * (d.pwmC 31).setT ≤ (d.pwmC 31).riseAt ∧
      32 * (d.pwmC 31).setT ≤ (d.pwmC 31).fallAt ∧
      (32 * (wave 1).reloadT + place (wave 1) (wave 1).rise) / 32 = d.now) ∧
      (At (pair15 { wave 5 with minp := 150, stretch := true } (wave 5)) fun d => (d.pwmC 30).stretch = true ∧
        (32 * (wave 5).reloadT + place (wave 5) (wave 5).rise + 150) / 32 = d.now) ∧
      (At (pair15 { wave 1 with minp := 200 } (wave 1)) fun d => (d.pwmC 30).minp = 200 ∧
        (place (wave 1) (wave 1).rise + 2 * (32 * 9) - place (wave 1) (wave 1).fall) % (32 * 9) < 200) := by
  decide +kernel

theorem witness_pwm_pair :
    (At (pair15 { wave 2 with comp := true, dtr := 32 } Init.pwm) fun d => (d.pwmC 30).comp = true ∧ d.pwmRef 31 = 30 ∧
      TwoEdges (d.pwmC 30) ∧ (d.pwmC 31).riseDue = none ∧ (d.pwmC 31).fallDue = none ∧ (d.pwmC 30).minp = 0 ∧
      (32 * (wave 2).reloadT + place (wave 2) (wave 2).rise + 32) / 32 = d.now) ∧
      (At (pair15 { wave 2 with comp := true, dtr := 128 } Init.pwm) fun d =>
        (place (wave 2) (wave 2).fall + 2 * (32 * 9) - place (wave 2) (wave 2).rise) % (32 * 9) ≤ (d.pwmC 30).dtr) ∧
      (At (pair15 { wave 6 with comp := true, dtf := 32 } Init.pwm) fun d =>
        (d.pwmC 30).dtf < (place (wave 6) (wave 6).rise + 2 * (32 * 9) - place (wave 6) (wave 6).fall) % (32 * 9) ∧
        (32 * (wave 6).reloadT + place (wave 6) (wave 6).fall + 32) / 32 = d.now) := by decide +kernel

theorem witness_trips :
    (At (op.setB Reg.PWM_TRIPSTAT ⟨15, 15⟩ true) fun d => d.reach Reg.PWM_TRIPCLR true = true ∧
      d.bit Reg.PWM_TRIPSTAT ⟨15, 15⟩ = true ∧ d.tripHeld 15 = false ∧ d.pairLinked 15 .a = false ∧
      d.pairLinked 15 .b = false) ∧
      (At ((op.setB Reg.PWM_TRIPSTAT ⟨15, 15⟩ true).setB Reg.PWM_TRIPSTAT ⟨19, 19⟩ true |>.setB (Reg.PWM_PAIRCFG 15) ⟨7, 7⟩
        true) fun d => d.tripHeld 15 = true ∧ d.bit (Reg.PWM_PAIRCFG 15) ⟨7, 7⟩ = true) ∧
      (At (op.setF Reg.PWM_DLSTAT F.PWM_DLSTAT_CODE 62) fun d => d.timeRun = true ∧ d.dlBad = false ∧
        d.f Reg.PWM_DLSTAT F.PWM_DLSTAT_CODE = 62) ∧
      (At { op with dlBad := true } fun d => d.dlBad = true) ∧ (At { op with timeRun := false } fun d => d.timeRun = false) := by
  decide +kernel

/-! ### Converters, accumulators, SENT, Colt, Mule, interrupts -/

/-- Converter 1 of Half A in a state, and accumulator 63 bound to entry 2 of converter 1. -/
def conv1 (x : Conv) : Dev := { op with convs := [(1, x)] }

/-- An urgent request of entry 15 whose sample phase is due. -/
def urg0 : Urg := ⟨15, 99905, 99905, none⟩

theorem witness_conversions :
    (At (conv1 { Init.conv with en := true, start := 99920 }) fun d => d.convWorks .a = true ∧ (d.conv .a 1).en = true ∧
      (d.conv .a 1).urgent = none ∧ (d.conv .a 1).waiting = [] ∧ d.plausible .a 1 = false ∧
      99920 + 5 * (16 + getF ((d.conv .a 1).seq.getD (d.conv .a 1).entry 0) F.ADC_SEQ_SXT) ≤ d.now) ∧
      (At ((conv1 { Init.conv with en := true, start := 99920 }).setF (Reg.ADC_PLCFG .a) F.ADC_PLCFG_PL_N 1) fun d =>
        d.plausible .a 1 = true ∧ (d.conv .a 0).pl = none) ∧
      (At (({ conv1 { Init.conv with en := true, start := 99920 } with
        convs := [(0, { Init.conv with pl := some 4095 }), (1, { Init.conv with en := true, start := 99920 })] } : Dev).setF
        (Reg.ADC_PLCFG .a) F.ADC_PLCFG_PL_N 1) fun d => d.plausible .a 1 = true ∧ (d.conv .a 0).pl = some 4095) ∧
      (At (conv1 { Init.conv with en := true, start := 99921 }) fun d =>
        ¬99921 + 5 * (16 + getF ((d.conv .a 1).seq.getD (d.conv .a 1).entry 0) F.ADC_SEQ_SXT) ≤ d.now) := by
  decide +kernel

theorem witness_urgent :
    (At op fun d => d.convWorks .a = true ∧ d.waitCount .a 0 [⟨15, 100000, 100000, none⟩] ≤ 4) ∧
      (At (conv1 { Init.conv with waiting := [urg0, urg0, urg0, urg0, urg0] }) fun d =>
        4 < d.waitCount .a 200000 [urg0, urg0, urg0, urg0, urg0, ⟨15, 100000, 100000, none⟩]) ∧
      (At { op with mode := .load } fun d => d.convWorks .a = false) ∧
      (At (conv1 { Init.conv with waiting := [urg0] }) fun d => (d.conv .a 1).urgent = none ∧
        (d.conv .a 1).waiting = [urg0] ∧ urg0.base + 95 ≤ d.now ∧ urg0.entry < 16) ∧
      (At (conv1 { Init.conv with waiting := [{ urg0 with base := 99906 }] }) fun d =>
        ((d.conv .a 1).waiting.find? fun u => decide (u.base + 95 ≤ d.now)) = none) ∧
      (At (conv1 { Init.conv with urgent := some urg0, urgStart := 99920, waiting := [urg0] }) fun d =>
        ((d.conv .a 1).waiting.find? fun u => decide (u.base + 95 ≤ d.now)) = some urg0) ∧
      (At (conv1 { Init.conv with urgent := some urg0, urgStart := 99920 }) fun d => (d.conv .a 1).urgent = some urg0 ∧
        99920 + d.urgTk .a urg0.entry ≤ d.now) ∧
      (At (conv1 { Init.conv with urgent := some urg0, urgStart := 99921 }) fun d =>
        d.now < 99921 + d.urgTk .a urg0.entry) := by decide +kernel

/-- Accumulator 63 of Half A in a state, enabled, with a window mode and a number of samples. -/
def acc63 (mode n : Nat) (x : Acc) : Dev :=
  ((({ op with accs := [(63, x)] } : Dev).setB (Reg.ACC_CFG .a 63) F.ACC_CFG_EN true).setF (Reg.ACC_CFG .a 63)
    F.ACC_CFG_WMODE mode).setF (Reg.ACC_PARAM .a 63) F.ACC_PARAM_NSAMP n

/-- The record of a window from tick 9 to tick 90,000, and a sample held at a tick. -/
def rec0 : AccRec := ⟨9, 1, 9, 9, 9, 90000, false, false, false⟩

theorem witness_accumulator :
    (At (acc63 1 3 { Init.acc with isOpen := true, openT := 99900, cnt := 1, sample := some (7, 99917, false) }) fun d =>
      (d.acc .a 63).sample = some (7, 99917, false) ∧ 99917 + 83 ≤ d.now ∧ (d.acc .a 63).isOpen = true ∧
      (d.acc .a 63).openT ≤ 99917 ∧
      min ((d.acc .a 63).cnt + 1) (2 ^ 24 - 1) < d.f (Reg.ACC_PARAM .a 63) F.ACC_PARAM_NSAMP) ∧
      (At (acc63 2 2 { Init.acc with isOpen := true, openT := 99900, cnt := 1, sample := some (7, 99917, false) }) fun d =>
        getF (d.rd (Reg.ACC_CFG .a 63)) F.ACC_CFG_WMODE = 2 ∧ getB (d.rd (Reg.ACC_CFG .a 63)) F.ACC_CFG_EN = true ∧
        d.f (Reg.ACC_PARAM .a 63) F.ACC_PARAM_NSAMP ≤ min ((d.acc .a 63).cnt + 1) (2 ^ 24 - 1)) ∧
      (At (acc63 0 2 { Init.acc with sample := some (7, 99917, false) }) fun d => (d.acc .a 63).isOpen = false ∧
        getB (d.rd (Reg.ACC_CFG .a 63)) F.ACC_CFG_EN = true ∧ getF (d.rd (Reg.ACC_CFG .a 63)) F.ACC_CFG_WMODE ≠ 2) ∧
      (At (acc63 0 2 { Init.acc with sample := some (7, 99918, false) }) fun d => d.now < 99918 + 83) ∧
      (At (acc63 0 2 { Init.acc with isOpen := true, openT := 99900, closing := [rec0] }) fun d =>
        (d.acc .a 63).openT ≠ 100000 ∧ ∃ c ∈ (d.acc .a 63).closing, c.closeT = 90000) ∧
      (At op fun d => (d.acc .a 63).sample = none ∧ (d.acc .a 63).closing = [] ∧
        getB (d.rd (Reg.ACC_CFG .a 63)) F.ACC_CFG_EN = false ∧ d.reach (Reg.ACC_RSUMLO .a 63) false = true ∧
        d.reach (Reg.ACC_SUMLO .a 63) false = true ∧ (d.acc .a 63).recT ≠ some d.now) := by decide +kernel

theorem witness_accumulator_record :
    (At (acc63 0 2 { Init.acc with closing := [rec0], recT := some 100000 }) fun d =>
      (d.acc .a 63).closing = rec0 :: [] ∧ rec0.closeT + 83 ≤ d.now + 1 ∧ (d.acc .a 63).sample = none ∧
      (d.acc .a 63).recT = some d.now) ∧
      (At (acc63 0 2 { Init.acc with closing := [{ rec0 with closeT := 99919 }] }) fun d =>
        d.now + 1 < 99919 + 83) ∧
      (At (acc63 0 2 { Init.acc with closing := [rec0], sample := some (7, 89999, false) }) fun d =>
        rec0.openT ≤ 89999 ∧ 89999 < rec0.closeT ∧ (d.acc .a 63).isOpen = false) := by decide +kernel

/-- SENT receiver 5 in a state, enabled, with a nominal tick of 3 µs. -/
def sent5 (x : Sent) : Dev :=
  (({ op with sent := [(5, x)] } : Dev).setB (Reg.SNT_CFG 5) F.SNT_CFG_EN true).setF (Reg.SNT_CFG 5) F.SNT_CFG_NOMTICK 30

/-- A receiver that has taken its calibration pulse and a number of intervals, its last edge `len` SYS cycles ago. -/
def inFrame (n len : Nat) (ns : List Nat) : Dev :=
  sent5 { Init.sent with lastEdge := some (100000 - 2 * len), pos := some n, cal := 33600, nibbles := ns }

theorem witness_sent_intervals :
    (At op fun d => d.sntRuns 5 = false) ∧ (At (sent5 Init.sent) fun d => d.f (Reg.SNT_CFG 5) F.SNT_CFG_FILT = 0) ∧
      (At ((sent5 Init.sent).setF (Reg.SNT_CFG 5) F.SNT_CFG_FILT 1) fun d => d.sntRuns 5 = true ∧
        d.f (Reg.SNT_CFG 5) F.SNT_CFG_FILT ≠ 0) ∧ (At (sent5 Init.sent) fun d => d.sntRuns 5 = true ∧ (d.snt 5).lastEdge = none) ∧
      (At (sent5 { Init.sent with lastEdge := some (100000 - 2 * 25199) }) fun d => (d.snt 5).pos = none ∧
        100000 / 2 - (100000 - 2 * 25199) / 2 < 42 * (20 * d.f (Reg.SNT_CFG 5) F.SNT_CFG_NOMTICK)) ∧
      (At (sent5 { Init.sent with lastEdge := some (100000 - 2 * 25200) }) fun d => (d.snt 5).pos = none ∧
        42 * (20 * d.f (Reg.SNT_CFG 5) F.SNT_CFG_NOMTICK) ≤ 100000 / 2 - (100000 - 2 * 25200) / 2) ∧
      (At (inFrame 7 7200 [5, 1, 2, 3, 4, 5, 6]) fun d => (d.snt 5).pos = some 7 ∧
        sentNibble (d.snt 5).cal 7200 = some 0) ∧
      (At (inFrame 3 6899 []) fun d => (d.snt 5).pos = some 3 ∧ sentTicks (d.snt 5).cal 6899 < 23 / 2) ∧
      (At (inFrame 8 7200 []) fun d => (d.snt 5).pos = some 8 ∧ 12 ≤ sentTicks (d.snt 5).cal 7200 ∧
        sentTicks (d.snt 5).cal 7200 ≤ 768) := by decide +kernel

theorem witness_sent_timeouts :
    (At ((sent5 { Init.sent with lastEdge := some 9 }).setB (Reg.SNT_STAT 5) F.SNT_STAT_SYNC true) fun d =>
      (d.snt 5).pos = none ∧ d.bit (Reg.SNT_STAT 5) F.SNT_STAT_SYNC = true ∧
      70 * (20 * d.f (Reg.SNT_CFG 5) F.SNT_CFG_NOMTICK) < d.now / 2 - 9 / 2) ∧
      (At (inFrame 3 16500 []) fun d => 55 / 2 ≤ sentTicks (d.snt 5).cal 16500) ∧
      (At op fun d => d.reach (Reg.SNT_DATA 5) false = true ∧ d.reach (Reg.SNT_SER 5) false = true ∧
        (d.snt 5).dataT.map (· / 2) ≠ some (d.now / 2)) ∧
      (At (sent5 { Init.sent with dataT := some 100001, serT := some 100000 }) fun d =>
        (d.snt 5).dataT.map (· / 2) = some (d.now / 2) ∧ (d.snt 5).serT.map (· / 2) = some (d.now / 2)) := by decide +kernel

/-- Colt engine 7 in a state; STATE says whether it runs, its table's entry 63 holds a state. -/
def colt7 (state : Nat) (x : Colt) (lo hi : Word) : Dev :=
  ((({ op with colt := [(7, x)] } : Dev).setF (Reg.COLT_STAT 7) F.COLT_STAT_STATE state).wr (Reg.COLT_TAB_LO 7 63) lo).wr
    (Reg.COLT_TAB_HI 7 63) hi

theorem witness_colt_same_cycle :
    (At (colt7 1 { Init.colt with stop := some ⟨50000, 1, true, 0, false, false, 0, false, false⟩ } 0 0) fun d =>
      (d.coltE 7).stop = some ⟨50000, 1, true, 0, false, false, 0, false, false⟩ ∧ 50000 = d.now / 2) ∧
      (At (colt7 2 { Init.colt with trigFail := some 50000 } 0 0) fun d => (d.coltE 7).trigFail = some (d.now / 2) ∧
        d.coltStopped 7 = false ∧ (d.coltE 7).startC ≠ some (d.now / 2) ∧ (d.coltE 7).trigT ≠ some (d.now / 2) ∧
        (d.coltE 7).stop = none) ∧
      (At { op with gflagOld := some ⟨50000, 3, [(1, 4, 0, 0)]⟩ } fun d =>
        d.gflagOld = some ⟨50000, 3, [(1, 4, 0, 0)]⟩ ∧ 50000 = d.now / 2 ∧ ∀ o ∈ [((1 : Nat), (4 : Word), (0 : Word), (0 : Word))], o.1 ≠ 0) ∧
      (At op fun d => d.gflagOld = none) ∧
      (At (colt7 1 { Init.colt with nextC := 50001 } 0 0) fun d => d.now / 2 < (d.coltE 7).nextC) ∧
      (At ((colt7 1 Init.colt 0 0).setF (Reg.COLT_MODE 7) F.COLT_MODE_PACE 1) fun d =>
        getB (d.rd (Reg.COLT_MODE 7)) F.COLT_MODE_PSRC = false ∧ d.paceEdge 7 1 = true ∧ d.paceEdge 7 0 = false) := by
  decide +kernel

theorem witness_colt_commands :
    (At op fun d => d.reach (Reg.COLT_CTRL 7) true = true ∧ d.coltStopped 7 = true ∧ (d.coltE 7).trigp = false ∧
      d.reach (Reg.COLT_INJHI 7) true = true ∧ d.reach (Reg.COLT_TAB_LO 7 63) true = true ∧
      d.reach (Reg.COLT_TAB_HI 7 63) true = true ∧ d.reach (Reg.COLT_TXFIFO 7) true = true ∧
      d.reach (Reg.COLT_RXFIFO 7) false = true ∧ d.reach Reg.COLT_GFLAG_SET true = true ∧
      d.reach Reg.COLT_GFLAG_CLR true = true ∧ (d.coltE 7).tx.length < 4 ∧ (d.coltE 7).rx = []) ∧
      (At (colt7 1 { Init.colt with trigp := true, trigT := some 49999, tx := [1, 2, 3, 4], rx := [5] } 0 0) fun d =>
        d.coltStopped 7 = false ∧ (d.coltE 7).trigp = true ∧ (d.coltE 7).trigT ≠ some (d.now / 2) ∧
        4 ≤ (d.coltE 7).tx.length ∧ (d.coltE 7).rx = 5 :: [] ∧ (d.coltE 7).inj = none ∧ badWord (stateWord 0 0) = false) ∧
      (At (colt7 1 { Init.colt with trigp := true, trigT := some 50000, inj := some (0, 9) } 0 0) fun d =>
        (d.coltE 7).trigT = some (d.now / 2) ∧ (d.coltE 7).inj ≠ none) := by decide +kernel

/-- The state word of WAIT, TMO, DACT and DN, every other field 0 (R287). -/
def stateOf (wait tmo dact dn : Nat) : BitVec 64 :=
  BitVec.ofNat 64 (tmo * 2 ^ 36 + wait * 2 ^ 32 + dact * 2 ^ 22 + dn * 2 ^ 17)

theorem witness_colt_entry :
    (At op fun d => d.coltRuns 7 = false ∧ d.paced 7 = false) ∧
      (At (colt7 1 { Init.colt with pc := 63 } 0 0) fun d => d.coltRuns 7 = true ∧ (d.coltE 7).nextC ≤ d.now / 2 ∧
        (d.coltE 7).stop = none ∧ (d.coltE 7).atEntry = true ∧
        badWord ((d.usable (d.coltE 7)).getD (d.tabWord 7 (d.coltE 7).pc)) = false ∧
        wDact (d.tabWord 7 63) = 0 ∧ wWait (d.tabWord 7 63) = 0) ∧
      (At (colt7 1 { Init.colt with pc := 63 } 0xFFFFFFFF 0xFFFFFFFF) fun d =>
        badWord ((d.usable (d.coltE 7)).getD (d.tabWord 7 (d.coltE 7).pc)) = true) := by decide +kernel

theorem witness_colt_waits :
    (At (colt7 2 { Init.colt with atEntry := false, ex := stateOf 1 0 0 0 } 0 0) fun d => d.coltRuns 7 = true ∧ (d.coltE 7).nextC ≤ d.now / 2 ∧
        (d.coltE 7).stop = none ∧
      (d.coltE 7).atEntry = false ∧ (d.coltE 7).blocked = false ∧ (d.coltE 7).shifting = 0 ∧
      d.usable (d.coltE 7) = none ∧ wWait (d.coltE 7).ex = 1 ∧ wTmo (d.coltE 7).ex = 0 ∧
      (0#16).getLsbD (wArg (d.coltE 7).ex % 16) = wPol (d.coltE 7).ex ∧
      (1#16).getLsbD (wArg (d.coltE 7).ex % 16) ≠ wPol (d.coltE 7).ex) ∧
      (At (colt7 2 { Init.colt with atEntry := false, ex := stateOf 7 1 0 0 } 0 0) fun d => wWait (d.coltE 7).ex = 7 ∧
        wTmo (d.coltE 7).ex ≠ 0 ∧ (d.coltE 7).tests + 1 = wTmo (d.coltE 7).ex) ∧
      (At (colt7 2 { Init.colt with atEntry := false, ex := stateOf 5 0 0 0, trigp := true } 0 0) fun d =>
        wWait (d.coltE 7).ex = 5 ∧ (d.coltE 7).trigp = true) ∧
      (At (colt7 2 { Init.colt with atEntry := false, inj := some (0, 49999) } 0 0) fun d =>
        d.usable (d.coltE 7) ≠ none) := by decide +kernel

theorem witness_colt_data :
    (At (colt7 1 { Init.colt with pc := 63 } 0x7E0000 0) fun d =>
      (d.coltE 7).atEntry = true ∧ badWord (d.tabWord 7 63) = false ∧ wDact (d.tabWord 7 63) = 1 ∧
      wDn (d.tabWord 7 63) ≠ 0 ∧ d.paced 7 = false) ∧
      (At (colt7 3 { Init.colt with atEntry := false, blocked := true, ex := stateOf 0 0 4 0, tx := [] } 0 0) fun d =>
        d.coltRuns 7 = true ∧ (d.coltE 7).blocked = true ∧ wDact (d.coltE 7).ex = 4 ∧ d.txHas 7 = false) ∧
      (At (colt7 3 { Init.colt with atEntry := false, blocked := true, ex := stateOf 0 0 4 0, tx := [8] } 0 0) fun d =>
        d.txHas 7 = true ∧ (d.coltE 7).tx = 8 :: []) ∧
      (At ((colt7 1 { Init.colt with atEntry := false, shifting := 1, ex := stateOf 0 0 1 31 } 0 0).setF (Reg.COLT_MODE 7)
        F.COLT_MODE_PACE 1) fun d => d.paced 7 = true ∧ (d.coltE 7).shifting ≠ 0 ∧ (d.coltE 7).blocked = false ∧
          wDact (d.coltE 7).ex = 1) ∧
      (At ((colt7 1 { Init.colt with pace := true } 0 0).setF (Reg.COLT_MODE 7) F.COLT_MODE_PACE 1) fun d =>
        d.paced 7 = true ∧ (d.coltE 7).atEntry = true ∧ (d.coltE 7).pace = true) := by decide +kernel

/-- Mule channel 15 in a state, enabled, with its active set in stream RAM. -/
def mule15 (x : Mule) (dst len : Nat) : Dev :=
  ((({ op with mule := [(15, x)] } : Dev).setB (Reg.MULE_CFG 15) F.MULE_CFG_EN true).wr (Reg.MULE_ASADDR 15) 0x340000).wr
    (Reg.MULE_ADADDR 15) (BitVec.ofNat 32 dst) |>.wr (Reg.MULE_ALEN 15) (BitVec.ofNat 32 len)

theorem witness_mule_channels :
    (At (mule15 Init.mule 0 0) fun d => d.reach (Reg.MULE_CMD 15) true = true ∧
      d.bit (Reg.MULE_CFG 15) F.MULE_CFG_EN = true ∧ (d.muleC 15).active = false ∧ d.reach (Reg.MULE_CFG 15) true = true ∧
      getB 0 F.MULE_CFG_EN = false ∧ d.reach (Reg.MULE_SSADDR 15 + 12) true = true ∧
      d.bit (Reg.MULE_STAT 15) F.MULE_STAT_VALID = false ∧ d.reach Reg.MULE_SWREQ true = true) ∧
      (At (mule15 { Init.mule with active := true } 0 0) fun d => (d.muleC 15).active = true) ∧
      (At (op.setB (Reg.MULE_STAT 15) F.MULE_STAT_VALID true) fun d => d.bit (Reg.MULE_CFG 15) F.MULE_CFG_EN = false ∧
        d.bit (Reg.MULE_STAT 15) F.MULE_STAT_VALID = true ∧ (d.muleC 15).active = false ∧ getB 1 F.MULE_CFG_EN = true) ∧
      (At (op.setF (Reg.MULE_CFG 15) F.MULE_CFG_SRC 45) fun d => d.f (Reg.MULE_CFG 15) F.MULE_CFG_SRC = 45) := by
  decide +kernel

theorem witness_mule_bound :
    (At (mule15 { Init.mule with active := true, bound := some (50000, false) } 0 0) fun d => (d.muleC 15).active = true ∧
      (d.muleC 15).bound = some (d.now / 2, false)) ∧
      (At (mule15 { Init.mule with active := true, bound := some (50000, true) } 0 0) fun d =>
        (d.muleC 15).bound = some (d.now / 2, true)) := by decide +kernel

theorem witness_mule_bursts :
    (At op fun d => d.muleTurn 15 = false ∧ (d.muleC 15).readback = false) ∧
      (At (mule15 { Init.mule with active := true, reqs := [9] } 0x35FFF8 8) fun d => d.muleTurn 15 = true ∧
        (d.muleC 15).inBurst = false ∧ 0 < (d.rd (Reg.MULE_ALEN 15)).toNat ∧ d.isReg 0x340000 = false) ∧
      (At (mule15 { Init.mule with active := true, inBurst := true, size := 2, buf := [1, 2] } 0x35FFFE 8) fun d =>
        d.muleTurn 15 = true ∧ (d.muleC 15).inBurst = true ∧ (d.muleC 15).size ≤ (d.muleC 15).buf.length ∧
        (d.muleC 15).done < (d.muleC 15).size ∧ d.isReg 0x35FFFE = false ∧ d.beatMay 0x35FFFE = true) ∧
      (At (mule15 { Init.mule with active := true, inBurst := true, size := 2, buf := [1, 2] } 0x300000 8) fun d =>
        d.isReg 0x300000 = false ∧ d.beatMay 0x300000 = false ∧ d.bit (Reg.MULE_STAT 15) F.MULE_STAT_STOP_PEND = false) ∧
      (At (mule15 { Init.mule with active := true, readback := true } 0x340008 0) fun d =>
        (d.muleC 15).readback = true ∧ d.mode = .operate ∧
        d.isReg (Dev.lastAddr (Dev.dstSide (d.rd (Reg.MULE_ACTL 15))) 0x340008) = false) := by decide +kernel

theorem witness_mule_swap :
    (At (mule15 { Init.mule with active := true, reqs := [9] } 0x340010 8) fun d => d.muleTurn 15 = true ∧
      (d.muleC 15).inBurst = false ∧
      min (8 * (getF (d.rd (Reg.MULE_ACTL 15)) F.MULE_SCTL_BEATS + 1)) (d.rd (Reg.MULE_ALEN 15)).toNat ≤
        8 - (d.rd (Reg.MULE_ASADDR 15)).toNat % 8) ∧
      ([1, 2, 3, 4] : List Byte).length % 4 = 0 := by decide +kernel

/-- Source 255 pending, enabled, for pin target 1. -/
def irq255 : Dev :=
  { op with irq := { Init.irq with pend := 1#256 <<< 255, en := 1#256 <<< 255 } }.setF (Reg.IRQ_SRCCFG 255)
    F.IRQ_SRCCFG_TGT 1

theorem witness_interrupts :
    (At irq255 fun d => d.busRun = true ∧ d.reach (Reg.IRQ_PEND_SET 7) true = true ∧
      d.reach (Reg.IRQ_PEND_CLR 7) true = true ∧ d.reach (Reg.IRQ_EN_SET 7) true = true ∧
      d.reach (Reg.IRQ_EN_CLR 7) true = true ∧ d.reach (Reg.IRQ_CLAIM 1) false = true ∧
      d.reach (Reg.IRQ_COMPLETE 1) true = true ∧ d.tgtMask 1 = false ∧ d.winner 1 = some 255) ∧
      (At op fun d => d.winner 1 = none ∧ (d.irq.active.find? fun a => decide (a.1 = 1 ∧ a.2.2 + 1 = d.running 1)) = none) ∧
      (At { op with irq := { Init.irq with active := [(1, 255, 3)] } } fun d =>
        (d.irq.active.find? fun a => decide (a.1 = 1 ∧ a.2.2 + 1 = d.running 1)) = some (1, 255, 3)) ∧
      (At State.reset.dev fun d => d.busRun = false) := by decide +kernel

/-! ### The link, the host ports -/

/-- A device with a link state. -/
def linked (x : Link) : Dev := { op with link := x }

/-- UP. -/
def up : Link := { Init.link with up := true }

theorem witness_link_states :
    (At op fun d => d.busRun = true ∧ d.link.up = false ∧ d.link.hold = false ∧ d.link.align = false) ∧
      (At (linked { Init.link with hold := true, time := { Init.linkTime with downT := 96800 } }) fun d =>
        d.link.hold = true ∧ d.link.time.downT + 3200 ≤ d.now) ∧
      (At (linked { Init.link with hold := true, time := { Init.linkTime with downT := 96801 } }) fun d =>
        d.now < d.link.time.downT + 3200) ∧
      (At (linked { up with time := { Init.linkTime with commaT := 98400 } }) fun d => d.link.up = true ∧
        d.link.time.commaT + 1600 ≤ d.now) ∧
      (At (linked { up with time := { Init.linkTime with commaT := 98401 } }) fun d =>
        d.now < d.link.time.commaT + 1600) ∧
      (At (linked { up with chars := 255, errs := [2, 3] }) fun d => d.link.up = true ∧ Dev.badChar .error = true ∧
        ((d.link.errs ++ [d.link.chars + 1]).filter fun k => decide (d.link.chars + 1 < k + 256)).length < 4) ∧
      (At (linked { up with chars := 256, errs := [2, 3, 4] }) fun d =>
        4 ≤ ((d.link.errs ++ [d.link.chars + 1]).filter fun k => decide (d.link.chars + 1 < k + 256)).length) ∧
      (At (linked { Init.link with align := true, commas := 6 }) fun d => d.link.align = true ∧ d.link.commas < 7) ∧
      (At (linked { Init.link with align := true, commas := 7 }) fun d => 7 ≤ d.link.commas) ∧
      Dev.badChar (.control 0xBC) = false ∧ LinkChar.data 0 ≠ .control 0xBC := by decide +kernel

/-- A frame with its right CRC. -/
def frame (type seq flags : Byte) (payload : List Byte) : Frame :=
  let n : Byte := BitVec.ofNat 8 payload.length
  ⟨type, seq, n, flags, payload, crc32 ([type, seq, n, flags] ++ payload), false⟩

/-- A frame as it should come. -/
abbrev Good (f : Frame) : Prop :=
  f.codeError = false ∧ f.payload.length ≤ 64 ∧ crc32 ([f.type, f.seq, f.lenField, f.flags] ++ f.payload) = f.crc ∧
    f.lenField.toNat ≤ 64 ∧ f.lenField.toNat = f.payload.length ∧ f.flags &&& 0xFC = 0

theorem witness_link_frames :
    (At (linked { up with time := { Init.linkTime with frameC := some 73 } }) fun d => d.link.up = true ∧
      d.link.time.frameC = some 73) ∧
      (At (linked { up with time := { Init.linkTime with frameC := some 72 } }) fun d =>
        d.link.time.frameC = some 72 ∧ 72 < 73) ∧
      (At (linked up) fun d => d.link.up = true ∧ d.link.rxExp = 0 ∧ d.link.rx.length < 8) ∧
      (At (linked { up with rx := List.replicate 8 (true, frame 1 0 0 []) }) fun d => 8 ≤ d.link.rx.length) ∧
      Good (frame 0x30 0 0 [1, 2, 3, 4]) ∧ Good (frame 0x30 7 2 []) ∧ (frame 0x30 7 2 []).flags.getLsbD 1 = true ∧
      ((0 : Byte) - 0xF8).toNat = 8 ∧ 8 < ((0 : Byte) - 0xF7).toNat ∧
      ¬({ frame 0x30 0 0 [] with lenField := 1 } : Frame).lenField.toNat = 0 ∧
      ({ frame 0x30 0 0 [] with crc := 0 } : Frame).crc ≠ crc32 [0x30, 0, 0, 0] ∧
      64 < (frame 0x30 0 0 (List.replicate 65 0)).payload.length := by decide +kernel

/-- A frame sent that waits for its ACK. -/
def sent0 (seq : Byte) (tries : Nat) : OutFrame := ⟨1, 0x03, [], some seq, tries, 99200⟩

theorem witness_link_answers :
    (At (linked { up with unacked := [sent0 4 0, sent0 5 1] }) fun d => d.link.up = true ∧
      d.unackedAt 5 = some 1 ∧ d.unackedAt 6 = none ∧
      ((d.link.unacked.take (d.link.unacked.length - d.link.resend)).findIdx? fun x => decide (x.endT + 800 ≤ d.now)) =
        some 0) ∧
      (At (linked { up with unacked := [{ sent0 4 0 with endT := 99201 }] }) fun d =>
        ((d.link.unacked.take (d.link.unacked.length - d.link.resend)).findIdx? fun x => decide (x.endT + 800 ≤ d.now)) =
          none) ∧
      (At (linked { up with unacked := [sent0 4 2] }) fun d => d.link.unacked[0]? = some (sent0 4 2) ∧ 2 ≤ (sent0 4 2).tries) ∧
      Dev.crc8 [5, 0] = 0x41 ∧
      (At op fun d => d.link.up = false ∧ d.link.nakFull = none) ∧
      (At (linked { up with nakFull := some 4, unacked := [sent0 4 0] }) fun d => d.link.nakFull = some 4 ∧
        d.link.time.nakT + 800 ≤ d.now ∧ d.unackedAt 4 = some 0) ∧
      (At (linked { up with nakFull := some 4, time := { Init.linkTime with nakT := 99201 } }) fun d =>
        d.now < d.link.time.nakT + 800) := by decide +kernel

/-- A frame that waits to be sent. -/
def out0 (prio : Nat) (type : Byte) : OutFrame := ⟨prio, type, [], none, 0, 0⟩

theorem witness_link_transmission :
    (At (linked { up with answers := [(5, 0)] }) fun d => d.link.answers = (5, 0) :: []) ∧
      (At (linked { up with resend := 1, unacked := [sent0 4 0] }) fun d => d.link.answers = [] ∧ d.link.resend ≠ 0 ∧
        d.link.unacked[1 - d.link.resend]? = some (sent0 4 0)) ∧
      (At (linked { up with unacked := List.replicate 8 (sent0 4 0) }) fun d => 8 ≤ d.link.unacked.length ∧
        d.link.resend = 0) ∧
      (At (linked { up with txq := [out0 4 0x31, out0 2 0x12] }) fun d => d.link.unacked.length < 8 ∧
        d.link.time.lineT ≤ d.now ∧ (out0 2 0x12).type ≠ 0x31 ∧ Dev.firstOf d.link.txq 2 = some (out0 2 0x12)) ∧
      (At { linked { up with txq := [out0 4 0x31] } with irq := { Init.irq with queue := [⟨9, 1, 3, 0, 0⟩] } } fun d =>
        Dev.firstOf d.link.txq 2 = none ∧ d.irq.queue.find? d.linkMsg = some ⟨9, 1, 3, 0, 0⟩) ∧
      (At (linked { up with txq := [out0 4 0x31] }) fun d => d.irq.queue.find? d.linkMsg = none ∧
        Dev.firstOf d.link.txq 4 = some (out0 4 0x31)) ∧
      (At ((linked { up with streams := [(3, ⟨60, 60, false, []⟩)] }).setB (Reg.LNK_STRCFG 3) F.LNK_STRCFG_EN true) fun d =>
        Dev.firstOf d.link.txq 4 = none ∧ d.firstStream = some 3) ∧
      (At (linked { up with time := { Init.linkTime with lineT := 100001 } }) fun d => ¬d.link.time.lineT ≤ d.now) ∧
      (At (linked up) fun d => Dev.firstOf d.link.txq 4 = none ∧ d.firstStream = none) := by decide +kernel

/-- A device whose oldest accepted frame has a TYPE and a payload. -/
def host (type : Byte) (p : List Byte) (m : Mode) : Dev :=
  { op with mode := m, link := { up with rx := [(true, frame type 0 0 p)] } }

theorem witness_host_messages :
    (At (host 0x01 [0, 0, 0, 0, 15, 0, 0, 0] .operate) fun d =>
      d.nextFrame 0x01 = some (true, frame 0x01 0 0 [0, 0, 0, 0, 15, 0, 0, 0]) ∧ d.nextFrame 0x02 = none ∧
      (wordAt [0, 0, 0, 0, 15, 0, 0, 0] 0).toNat % 4 = 0) ∧
      (At (host 0x10 [1, 127, 0x20, 0, 1, 2, 3, 4] .operate) fun d =>
        d.nextFrame 0x10 = some (true, frame 0x10 0 0 [1, 127, 0x20, 0, 1, 2, 3, 4]) ∧ d.mode = .operate ∧
        ((List.range 6).filter fun k => (0x20 : Byte).getLsbD k).length = (8 - 4) / 4) ∧
      (At (host 0x11 [0, 1, 0, 0x30, 0, 0, 0, 0, 0, 0, 0, 0] .load) fun d =>
        d.nextFrame 0x11 = some (true, frame 0x11 0 0 [0, 1, 0, 0x30, 0, 0, 0, 0, 0, 0, 0, 0]) ∧ d.mode = .load ∧
        (0x30 : Byte) &&& 0xCC = 0) ∧
      (At (host 0x18 [63, 1, 0, 0, 1, 2, 3, 4, 5, 6, 7, 8] .service) fun d => (d.nextFrame 0x18).isSome = true ∧
        d.mode = .service) ∧
      (At (host 0x19 [1] .halt) fun d => (d.nextFrame 0x19).isSome = true ∧ d.mode = .halt) ∧
      (At (host 0x02 [0, 0, 0, 0, 1, 2, 3, 4] .operate) fun d => (d.nextFrame 0x02).isSome = true) := by decide +kernel

theorem witness_flash :
    (At (host 0x40 [6, 0, 0, 0, 0, 0, 0, 0] .service) fun d => d.reach Reg.NVL_PCTL true = true ∧ d.mode = .service ∧
      d.bit Reg.NVL_PSTAT F.NVL_PSTAT_BUSY = false ∧ getF 0 F.NVL_PCTL_ADDRB ≠ 3 ∧ getF 0 F.NVL_PCTL_NRD ≤ 56 ∧
      (d.nextFrame 0x40).isSome = true ∧ (6 : Byte) &&& 0x03 ≠ 3) ∧
      (At (op.setB Reg.NVL_PSTAT F.NVL_PSTAT_BUSY true) fun d => d.mode ≠ .service ∧
        d.bit Reg.NVL_PSTAT F.NVL_PSTAT_BUSY = true ∧ d.link.nvmFor = none) ∧
      (At op fun d => d.bit Reg.NVL_PSTAT F.NVL_PSTAT_BUSY = false) ∧
      (At (((linked { up with time := { Init.linkTime with nvlEnd := 100001 } }).setB Reg.NVL_PSTAT F.NVL_PSTAT_BUSY true))
        fun d => d.now < d.link.time.nvlEnd) ∧
      (let e : Dev := { (linked up).setF Reg.LNK_CFG F.LNK_CFG_STAT_PER 1 with timeBase := 400000 }
       let d := (st e).devAt 400000
       d.f Reg.LNK_CFG F.LNK_CFG_STAT_PER ≠ 0 ∧ d.link.up = true ∧ d.link.txq = [] ∧
        d.link.time.statT + 400000 * d.f Reg.LNK_CFG F.LNK_CFG_STAT_PER ≤ d.now) := by decide +kernel

/-- Heartbeats by the SPI port, a window of 100 to 200 µs, and host loss by 2 marks or 0 ms. -/
def hb (x : Link) : Dev :=
  ((linked { x with hbMin := 40000, hbMax := 80000 }).setB Reg.SPH_CFG F.SPH_CFG_EN true).setB Reg.LNK_HLCFG F.LNK_HLCFG_HB_EN
    true |>.setF Reg.LNK_HLCFG F.LNK_HLCFG_HBPORT 1 |>.setF Reg.LNK_HLCFG F.LNK_HLCFG_HL_CYC 2 |>.setF Reg.LNK_HLCFG
    F.LNK_HLCFG_HL_MS 1

theorem witness_heartbeats :
    (At (hb { Init.link with lastHb := some 60000 }) fun d => d.spiOn = true ∧ d.hbCounts true = true ∧
      d.mode = .operate ∧ d.link.lastHb = some 60000 ∧ 60000 + d.link.hbMin ≤ d.now ∧
      d.now / 2 ≤ (60000 + d.link.hbMax) / 2) ∧
      (At (hb { Init.link with lastHb := some 60001 }) fun d => d.bit Reg.LNK_STAT F.LNK_STAT_HL = false ∧
        d.now < 60001 + d.link.hbMin) ∧
      (At (hb { Init.link with lastHb := some 19998 }) fun d => 19998 + d.link.hbMin ≤ d.now ∧
        (19998 + d.link.hbMax) / 2 < d.now / 2) ∧
      (At ((hb Init.link).setB Reg.LNK_STAT F.LNK_STAT_HL true) fun d => d.link.lastHb = none ∧
        d.bit Reg.LNK_STAT F.LNK_STAT_HL = true) ∧
      (At ((hb Init.link).setF Reg.LNK_HLCFG F.LNK_HLCFG_HBPORT 0) fun d => d.spiOn = true ∧ d.hbCounts true = false ∧
        d.hbCounts false = true) ∧
      (At (host 0x30 [1, 2, 3, 4] .operate) fun d =>
        (d.link.rx.find? fun p => decide (p.2.type = 0x30)) = some (true, frame 0x30 0 0 [1, 2, 3, 4])) := by decide +kernel

theorem witness_heartbeat_windows :
    (At (hb { Init.link with hbFirst := some 60000 }) fun d => d.link.lastHb = none ∧ d.link.hbFirst = some 60000 ∧
      d.bit Reg.LNK_STAT F.LNK_STAT_HL = false ∧ d.now / 2 ≤ (60000 + d.link.hbMax) / 2) ∧
      (At (hb { Init.link with hbFirst := some 19998 }) fun d => (19998 + d.link.hbMax) / 2 < d.now / 2) ∧
      (At (hb { Init.link with lastHb := some 19998 }) fun d => d.bit Reg.LNK_HLCFG F.LNK_HLCFG_HB_EN = true ∧
        d.link.lastHb.or d.link.hbFirst = some 19998 ∧ d.hbCounts false = false) := by decide +kernel

theorem witness_grace :
    (At ((hb { Init.link with graceA := some 2, lossT := some 9 }).setB Reg.LNK_HLCFG F.LNK_HLCFG_CUT true) fun d =>
      d.mode = .operate ∧ d.link.graceA = some 2 ∧ d.link.lossT = some 9 ∧ d.f Reg.LNK_HLCFG F.LNK_HLCFG_HL_CYC ≤ 2 ∧
      d.bit Reg.LNK_HLCFG F.LNK_HLCFG_CUT = true) ∧
      (At ({ hb { Init.link with graceA := some 1, lossT := some 9 } with timeBase := 400009 }.setB Reg.LNK_HLCFG
        F.LNK_HLCFG_CUT false) fun d => 9 + usTk (1000 * d.f Reg.LNK_HLCFG F.LNK_HLCFG_HL_MS) ≤ d.now ∧
          d.bit Reg.LNK_HLCFG F.LNK_HLCFG_CUT = false) ∧
      (At op fun d => d.link.graceA = none) := by decide +kernel

theorem witness_streams_spi :
    (At ((linked { up with streams := [(3, ⟨250, 250, false, [(200, 500), (250, 600)]⟩)] }).wr (Reg.LNK_STRCFG 3)
      (word F.LNK_STRCFG_EN 1)) fun d =>
      d.bit (Reg.LNK_STRCFG 3) F.LNK_STRCFG_EN = true ∧ (d.stream 3).unsent ≠ 0 ∧
      (d.stream 3).unsent + 6 ≤ 2 ^ (d.f (Reg.LNK_STRCFG 3) F.LNK_STRCFG_RSZ + 8) ∧
      2 ^ (d.f (Reg.LNK_STRCFG 3) F.LNK_STRCFG_RSZ + 8) < (d.stream 3).unsent + 7) ∧
      (At (linked { up with streams := [(3, ⟨250, 250, false, [(200, 500), (250, 600)]⟩)] } |>.setF (Reg.LNK_STRCFG 3)
        F.LNK_STRCFG_FLUSH 248) fun d => (d.stream 3).unsent ≠ 0 ∧
        ((((d.stream 3).adds.find? fun p => decide ((d.stream 3).added - (d.stream 3).unsent < p.1)).map (·.2)).getD 0) +
          400 * d.f (Reg.LNK_STRCFG 3) F.LNK_STRCFG_FLUSH ≤ d.now) ∧
      (At (op.setB Reg.SPH_CFG F.SPH_CFG_EN false) fun d => d.bit (Reg.LNK_STRCFG 3) F.LNK_STRCFG_EN = false ∧
        (d.stream 3).unsent = 0 ∧ d.spiOn = false) ∧
      (At (op.setF (Reg.LNK_STRCFG 3) F.LNK_STRCFG_FLUSH 1) fun d => d.f (Reg.LNK_STRCFG 3) F.LNK_STRCFG_FLUSH ≠ 0) ∧
      (At (hb Init.link) fun d => d.spiOn = true ∧ d.irq.queue.find? d.spiMsg = none) ∧
      (At (({ hb Init.link with irq := { Init.irq with queue := [⟨9, 1, 3, 0, 0⟩] } } : Dev).wr Reg.LNK_CFG 0x20000) fun d =>
        d.irq.queue.find? d.spiMsg = some ⟨9, 1, 3, 0, 0⟩) := by decide +kernel

/-! ### Safety, registers -/

theorem witness_faults :
    (At State.reset.dev fun d => d.busRun = false) ∧
      (At { op with mode := .load } fun d => d.busRun = true ∧ d.operating = false) ∧
      (At op fun d => d.busRun = true ∧ d.operating = true ∧ d.bit Reg.SAF_FIRST F.SAF_FIRST_VALID = false) := by
  decide +kernel

theorem witness_monitors :
    (At op fun d => d.busRun = true ∧ d.mode ≠ .unpowered ∧ d.mode ≠ .standby ∧ ¬(d.mode = .boot ∧ d.busRun = false)) ∧
      (At State.reset.dev fun d => d.mode = .boot ∧ d.busRun = false) ∧
      (At { op with tests := 2 } fun d => d.tests.getLsbD 1 = true) ∧ (op.tests.getLsbD 1 = false) ∧
      Claims.clocksWrong false false ⟨6000, 0, 0, 0, false⟩ = 9 ∧
      Claims.clocksWrong false false ⟨0, 0, 0, 0, false⟩ = 0 ∧
      (At { State.reset.dev with mode := .standby } fun d => d.mode = .standby ∧ d.busRun = false) := by decide +kernel

/-- Device-wide SAFE whose every condition to end holds since just now, recovery permitted. -/
def safe0 : Dev :=
  ({ op with devSafe := true, lastFault := some 60000, hbRun := true, hbSince := 60000, recover := true } : Dev).setF Reg.SAF_CFG
    F.SAF_CFG_HOLD 0

theorem witness_recovery :
    (At safe0 fun d => d.devSafe = true ∧ d.endingsDone .a = true ∧ d.endingsDone .b = true ∧ d.safeReq = false ∧
      d.lastFault = some 60000 ∧ 60000 + usTk (1000 * d.f Reg.SAF_CFG F.SAF_CFG_HOLD) ≤ d.now ∧ d.hbRun = true ∧
      d.hbSince + usTk 100 ≤ d.now ∧ d.recover = true ∧ d.reach Reg.SAF_RECOVER true = true) ∧
      (At { safe0 with hbSince := 60001 } fun d => ¬d.hbSince + usTk 100 ≤ d.now) ∧
      (At { op with a := { op.a with mode := .idle }, b := { op.b with mode := .idle } } fun d => d.devSafe = false ∧
        d.hmode .a = .idle ∧ d.hmode .b = .idle ∧ d.reach Reg.SAF_TEST true = true ∧
        getF 0x7E57001F F.SAF_TEST_KEY = 0x7E57) ∧
      (At (op.setB Reg.SAF_TESTSTAT F.SAF_TESTSTAT_BUSY true) fun d =>
        d.bit Reg.SAF_TESTSTAT F.SAF_TESTSTAT_BUSY = true) ∧
      (At { op with mode := .load } fun d => d.busRun = true ∧ d.operating = false) := by decide +kernel

theorem witness_cross_link :
    (At op fun d => d.operating = true ∧ d.a.enabled = true ∧ d.b.enabled = true ∧ d.xlkUp .b = true ∧
      d.hmode .b ≠ .off) ∧
      (At (op.setF (Reg.XLK_CFG .b) F.XLK_CFG_GRACE 0) fun d => d.f (Reg.XLK_CFG .b) F.XLK_CFG_GRACE = 0) ∧
      (At (op.setF (Reg.XLK_CFG .b) F.XLK_CFG_GRACE 1) fun d => d.f (Reg.XLK_CFG .b) F.XLK_CFG_GRACE ≠ 0) ∧
      (At { op with xlkB := false } fun d => d.xlkUp .b = false) ∧
      (At { op with b := Init.half } fun d => d.b.enabled = false) := by decide +kernel

theorem witness_register_rows :
    ((regAt (Reg.DRV_STAT .a)).bind id).isSome = true ∧ regAt 0x4000000 = none ∧ 0x343000 % 4 = 0 ∧
      regAt (Reg.DMD_ANGLE .a 127 + 28) = some none := by decide +kernel

theorem witness_register_writes :
    (At op fun d => d.reach (Reg.DRV_STAT .a) true = true ∧ d.reach 0x35FFFC true = true ∧
      d.reach (Reg.DMD_ANGLE .a 127 + 28) true = true ∧
      (cmdAt d.timeBase .spi (Reg.DRV_STAT .a) 0 { st op with dev := d }).isNone = true) ∧
      (At State.reset.dev fun d => d.reach (Reg.DRV_STAT .a) true = false ∧
        d.reach (Reg.DMD_ANGLE .a 127 + 28) false = false) := by decide +kernel

theorem witness_small_grade :
    (At { op with grade := .tzn5110 } fun d => d.grade = .tzn5110) ∧ 0xC0000 ≤ 0xFFFFF ∧ 0xFFFFF < 0x100000 ∧
      ¬(0xC0000 ≤ 0xBFFFF) ∧ 0x308000 ≤ 0x30FFFF ∧ 0x310C00 ≤ 0x3117FF := by decide +kernel

/-- A channel whose burst stands at a reserved word, on its source or its destination side. -/
def muleAt : Dev :=
  (op.wr (Reg.MULE_ASADDR 2) (BitVec.ofNat 32 (Reg.DMD_ANGLE .a 127 + 28))).wr (Reg.MULE_ADADDR 2)
    (BitVec.ofNat 32 (Reg.DMD_ANGLE .a 127 + 28))

theorem witness_reserved_word_burst :
    At muleAt fun d => d.isReg (Reg.DMD_ANGLE .a 127 + 28) = true ∧ d.reach (Reg.DMD_ANGLE .a 127 + 28) true = true ∧
      d.reach (Reg.DMD_ANGLE .a 127 + 28) false = true ∧
      Dev.sideAt (Dev.srcSide (d.rd (Reg.MULE_ACTL 2))) (d.rd (Reg.MULE_ASADDR 2)).toNat (d.muleC 2).buf.length =
        Reg.DMD_ANGLE .a 127 + 28 ∧
      Dev.sideAt (Dev.dstSide (d.rd (Reg.MULE_ACTL 2))) (d.rd (Reg.MULE_ADADDR 2)).toNat (d.muleC 2).done =
        Reg.DMD_ANGLE .a 127 + 28 := by decide +kernel

/-! ### Well-formedness refuses -/

/-- A power-up that shows a flash of 16 MB with no bytes in it. -/
def power : PowerUp := ⟨true, true, none, 32, .quad 24 8, [], 10000, false, 0, 0⟩

theorem smoke_flash_size :
    (Instr.supplyValid 0 power).wf = true ∧ (Instr.supplyValid 0 { power with probe := .quad 33 8 }).wf = false ∧
      (Instr.supplyValid 0 { power with probe := .quad 0 8, flash := [0#8, 0#8] }).wf = false := by decide

theorem smoke_link_character :
    (Instr.linkCharacter 0 (.control 0xBC)).wf = true ∧ (Instr.linkCharacter 0 (.control 0x1C)).wf = false := by decide

theorem smoke_frame_payload :
    (Instr.frameReceived 0 ⟨0x10, 0, 64, 0, List.replicate 64 0, 0, false⟩).wf = true ∧
      (Instr.frameReceived 0 ⟨0x10, 0, 65, 0, List.replicate 65 0, 0, false⟩).wf = false := by decide

theorem smoke_spi_command :
    (Instr.spiFrameReject 0 (.command 5)).wf = true ∧ (Instr.spiFrameReject 0 (.command 4)).wf = false := by decide

theorem smoke_fault_scope :
    (Instr.faultReaction 0 .ecc .device).wf = true ∧ (Instr.faultReaction 0 .vote .device).wf = false ∧
      (Instr.faultReaction 0 .lane (.half .b)).wf = false := by decide

theorem smoke_burst_accesses : (Instr.muleBurst 0 3 16).wf = true ∧ (Instr.muleBurst 0 3 0).wf = false := by decide

theorem smoke_stream_bytes :
    (Instr.streamBytesAdded 0 1 8).wf = true ∧ (Instr.streamBytesAdded 0 1 0).wf = false := by decide

theorem smoke_flash_bytes :
    (Instr.flashCommandDone 0 [1#8]).wf = true ∧ (Instr.flashCommandDone 0 (List.replicate 57 1#8)).wf = false := by
  decide

/-! ### Values that the spec gives -/

/-- The bytes of "123456789". -/
def digits : List Byte := [0x31, 0x32, 0x33, 0x34, 0x35, 0x36, 0x37, 0x38, 0x39]

/-- R55. -/
theorem test_crc32_check_value : crc32 digits = 0xCBF43926 := by decide +kernel

/-- R70. -/
theorem test_crc16_check_value : crc16 digits = 0x29B1 := by decide +kernel

/-- R331. -/
theorem test_crc8_check_value : Dev.crc8 digits = 0xF4 := by decide +kernel

/-- The worked example of R279: the augmented and the legacy CRC of one frame. -/
theorem test_sent_crc_example : sentCrc false [5, 10, 3, 12, 7, 1] = 3 ∧ sentCrc true [5, 10, 3, 12, 7, 1] = 5 := by
  decide

/-- The substitution of FIPS-197 in its own example, and its value at 0 (the cipher of R61). -/
theorem test_aes_substitution : aesSub 0x53 = 0xED ∧ aesSub 0 = 0x63 := by decide +kernel

/-- The two addresses worked out under R380. -/
theorem test_address_examples : Reg.ACC_RSUMLO .b 17 = 0xE545C ∧ Reg.EVC_PRED .a 200 = 0x91918 := by decide

/-- The table of the crank-signal emulator (R287): entries 0, 1, 4 and 5. -/
theorem test_state_word_fields :
    nextM (stateWord 0x01000800 0x04000000) = 1 ∧ wPact (stateWord 0x01000800 0x04000000) ≠ 0 ∧
      isShift (stateWord 0x01000800 0x04000000) = false ∧ isShift (stateWord 0x007F0000 0x08000000) = true ∧
      wDn (stateWord 0x007F0000 0x08000000) = 31 ∧ wMsbf (stateWord 0x007F0000 0x08000000) = true ∧
      nextM (stateWord 0x007F0000 0x08000000) = 2 ∧ wDn (stateWord 0x00670000 0x14000000) = 19 ∧
      wDn (stateWord 0x00870000 0x04000000) = 3 := by decide

/-- Channel 1 of the V8 schedule (07): EN, CYC, ACTION DRV, low-side 2, slot 1. -/
theorem test_channel_word_fields :
    getB 0x00010263 F.EVC_CTRL_EN = true ∧ getB 0x00010263 F.EVC_CTRL_CYC = true ∧ getF 0x00010263 F.EVC_CTRL_ACTION = 6 ∧
      getF 0x00010263 F.EVC_CTRL_TARGET = 2 ∧ getF 0x00010263 F.EVC_CTRL_DSLOT = 1 := by decide

/-- The falling edge of the half-bridge example lies at 239,565 taps (R243). -/
theorem test_edge_in_taps : Dev.edgeTaps { Init.pwm with per := 20000 } 0x3A7CD = 239565 := by decide

/-- A shot of the direct-injector example: 14.0 A for 100 µs through 10 mΩ at gain 10 is 1,400 µC (R205). -/
theorem test_boost_charge_example :
    (Dmd.View.mk .a ((((op.wr (Reg.DRV_PCFG .a 0) 0x0000AA93).wr (Reg.DRV_PBOOST .a 0) 0x03E801C0).setF (Reg.DRV_BANKCFG .a 0)
      F.DRV_BANKCFG_GAIN 1).setF (Reg.DRV_BANKCFG .a 0) F.DRV_BANKCFG_RSHUNT 100).rd (fun _ _ => 0) 0).charge
        ⟨0, ⟨6, 0, 0, 0, false, 0, 0, 0, false⟩, 0, 0⟩ = 1400 := by decide +kernel

/-- The device after a command, where it completes. -/
def after (c : Instr) (d : Dev) : Dev :=
  match exec c (st d) with
  | .next s => s.dev
  | _ => d

/-- ACK of SEQ 5: K28.2, the SEQ, code 0 and the CRC-8 of the two bytes (R333). -/
theorem test_ack_of_seq_5 :
    (after (.frameTransmit 100000) { op with link := { Init.link with up := true, answers := [(5, 0)] } }).link.sent =
      [0x5C, 5, 0, Dev.crc8 [5, 0]] ∧ Dev.crc8 [5, 0] = 0x41 := by decide +kernel

/-- The controller of the nested-claims example: 0x42 of priority 1 and 0x32 of priority 3 at target 0. -/
def nested (pend : BitVec 256) (active : List (Nat × Nat × Nat)) : Dev :=
  ({ op with irq := { Init.irq with en := (1 <<< 0x42) ||| (1 <<< 0x32), pend := pend, active := active } } : Dev).wr
    (Reg.IRQ_SRCCFG 0x42) 1 |>.wr (Reg.IRQ_SRCCFG 0x32) 3

/-- At 5.400 µs the claim returns 0x32, above the active 0x42 (R322). -/
theorem test_nested_claim :
    (after (.irqClaim 100000 .link 0) (nested (1 <<< 0x32) [(0, 0x42, 1)])).answer = ⟨false, 0x32⟩ ∧
      (nested (1 <<< 0x42) [(0, 0x42, 1), (0, 0x32, 3)]).irqLow 0 = false := by decide +kernel

/-- At 8.000 µs the completion of 0x42 under 0x32 is refused (R322). -/
theorem test_nested_complete_refused :
    (after (.irqComplete 100000 .link 0 0x42) (nested 0 [(0, 0x42, 1), (0, 0x32, 3)])).bit (Reg.IRQ_TGTSTAT 0)
      F.IRQ_TGTSTAT_CMPL_ERR = true := by decide +kernel

/-- On an empty queue the time base counts one tick (R235). -/
theorem test_idle_step_counts : (match step (st op) with | .next s => s.dev.timeBase | _ => 0) = 100001 := by
  decide +kernel

theorem test_step_takes_the_front (c : Instr) (l : List Instr) :
    step { st op with pending := c :: l } = exec c { st op with pending := l } := rfl

/-- No row of the table gives bits, so no word spells a command. -/
theorem test_no_word_spells_a_command (n w : Nat) :
    decodeTableWord n w = none ∧ (State.reset.withFetchWord n w) = State.reset := ⟨rfl, rfl⟩

end Sys2Proof.Tests
end

section
/-! PROOFS. What holds of every command: it completes with the queue as it was, and an access that the device does not
open is a bus error with no effect. -/

namespace Sys2Proof.Machine

open Sys2Proof

/-! ### Completion -/

/-- An answer that goes on with the waiting commands as they were. -/
def Out.KeepsQueue (o : Out) (s : State) : Prop := ∃ s' : State, o = .next s' ∧ s'.pending = s.pending

/-- A chain of bus accesses, from the command's tick on. -/
theorem keepsQueue_chain (s : State) (t : Tick) {g : State → State} (hg : ∀ s : State, s.Keeps (g s)) :
    Out.KeepsQueue (.next (g { s with dev := s.dev.advance t })) s := ⟨_, rfl, (hg _).1⟩

/-- Every command is an effect on the device and RAM, but for those whose accesses are made on the bus: there each
access keeps the queue. -/
theorem exec_keepsQueue (c : Instr) (s : State) : Out.KeepsQueue (exec c s) s := by
  cases c with
  | registerWrite t m a v => exact keepsQueue_chain s t (busWrite_keeps m a.toNat v)
  | regRd t => exact keepsQueue_chain s t runRegRd_keeps
  | regWr t => exact keepsQueue_chain s t runRegWr_keeps
  | dmdStage t => exact keepsQueue_chain s t runDmdStage_keeps
  | dmdCommitMessage t => exact keepsQueue_chain s t runDmdCommit_keeps
  | ctxStage t => exact keepsQueue_chain s t runCtxStage_keeps
  | ctxCommitMessage t => exact keepsQueue_chain s t runCtxCommit_keeps
  | nvmPass t => exact keepsQueue_chain s t runNvmPass_keeps
  | muleBurst t k n => exact keepsQueue_chain s t (muleAccesses_keeps k n)
  | muleReadbackEnd t k => exact keepsQueue_chain s t (muleReadback_keeps k)
  | spiRd t w =>
    exact keepsQueue_chain s t (g := fun s => spiRun s _) fun s => spiRun_keeps s _ fun s =>
      (busRead_keeps .spi (4 * w.toNat) s).trans (.dev _)
  | spiWr t w v =>
    exact keepsQueue_chain s t (g := fun s => spiRun s _) fun s => spiRun_keeps s _ fun s =>
      (busWrite_keeps .spi (4 * w.toNat) v s).trans (.dev _)
  | _ => exact ⟨_, rfl, rfl⟩

/-- Settles O2: an effect on the device and RAM leaves the queue, and so does each access on the bus. -/
theorem everyCommandCompletesAndKeepsTheQueue : Obligations.EveryCommandCompletesAndKeepsTheQueue :=
  exec_keepsQueue

/-! ### Accesses that mode or grade does not open -/

namespace Dev

theorem onWrite_unreached {d : Dev} {a : Nat} (g : Dev → Dev) (h : d.reach a true = false) :
    d.onWrite a g = d.busErr := if_neg (by simp [h])

theorem onRead_unreached {d : Dev} {a : Nat} (v : Word) (g : Dev → Dev) (h : d.reach a false = false) :
    d.onRead a v g = d.busErr := if_neg (by simp [h])

theorem onWriteMem_unreached {d : Dev} {m : List Host.Cell} {a : Nat} (g : DevMem → DevMem)
    (h : d.reach a true = false) : onWriteMem (d, m) a g = (d.busErr, m) := if_neg (by simp [h])

end Dev

/-- An answer that is a bus error and leaves the rest of the block as it stands at the tick. -/
def Out.IsBusError (o : Out) (s : State) (t : Tick) : Prop :=
  ∃ d' : Dev, o = .next { s with dev := d' } ∧ d'.answer = ⟨true, 0⟩ ∧
    { d' with answer := (s.devAt t).answer } = s.devAt t

theorem isBusError_dev {o : Out} {s : State} {t : Tick} {d' : Dev} (ho : o = .next { s with dev := d' })
    (hd : d' = (s.devAt t).busErr) : Out.IsBusError o s t := by
  subst hd
  exact ⟨_, ho, rfl, rfl⟩

theorem isBusError_both {o : Out} {s : State} {t : Tick} {y : DevMem} (ho : o = .next { s with dev := y.1, ram := y.2 })
    (hy : y = ((s.devAt t).busErr, s.ram)) : Out.IsBusError o s t := by
  subst hy
  exact ⟨_, ho, rfl, rfl⟩

/-- A command that is a bus access answers a bus error where the access does not reach its block. -/
theorem exec_isBusError {c : Instr} {s : State} {t : Tick} {a : Nat} {w : Bool}
    (hc : busAccess c = some (t, a, w)) (hr : (s.devAt t).reach a w = false) : Out.IsBusError (exec c s) s t := by
  cases c with
  | captureRead | angleRead | timeBaseRead | accRecordRead | accSumRead | sentDataRead | sentSerialRead | coltRxPop
  | irqClaim =>
    cases hc
    exact isBusError_dev rfl (Dev.onRead_unreached _ _ hr)
  | weClear | ripClear | learnedTableWrite =>
    cases hc
    exact isBusError_both rfl (Dev.onWriteMem_unreached _ hr)
  | pwmSyncRestart t m v =>
    cases m with
    | none => cases hc
    | some m =>
      cases hc
      exact isBusError_dev rfl (Dev.onWrite_unreached _ hr)
  | _ => cases hc <;> exact isBusError_dev rfl (Dev.onWrite_unreached _ hr)

/-- Settles O5: each bus access is guarded by its reach, on which alone a bus error follows. -/
theorem unopenedAccessIsBusError : Obligations.UnopenedAccessIsBusError :=
  fun _ _ _ _ _ hc hr => exec_isBusError hc hr

/-! ### Check values and the machine after reset -/

/-- The CRC-8 of an ACK of SEQ 5 with code 0 (R331, R332). -/
theorem crc8_ack_five : Dev.crc8 [5, 0] = 0x41 := by decide +kernel

/-- On a link that is up the oldest answer goes out first (R332, R336). -/
theorem Dev.transmit_answer {d : Dev} {seq code : Byte} {rest : List (Byte × Byte)} (hu : d.link.up = true)
    (ha : d.link.answers = (seq, code) :: rest) (m : List Host.Cell) : d.transmit m = d.sendAnswer seq code rest := by
  simp [Dev.transmit, hu, ha]

theorem publishedChecks : Claims.PublishedChecksRule := by
  refine ⟨by decide +kernel, by decide +kernel, by decide +kernel, fun s t rest hu ha => ?_⟩
  refine ⟨(s.devAt t).transmit s.ram, rfl, ?_⟩
  rw [Dev.transmit_answer hu ha]
  simp only [Dev.sendAnswer, Dev.onLink, if_true]
  rw [crc8_ack_five]

theorem resetLeaves : Claims.ResetLeavesRule := by
  refine ⟨rfl, rfl, rfl, rfl, rfl, rfl, rfl, ?_, rfl, rfl, rfl, rfl, rfl, rfl, rfl, fun _ => rfl, rfl, rfl, ?_, ?_⟩
  all_goals exact fun h => by cases h <;> decide

/-- Settles O60: the check values are computed, and the state after reset is read off field by field. -/
theorem checksAndReset : Obligations.ChecksAndReset := ⟨publishedChecks, resetLeaves⟩

end Sys2Proof.Machine
end

section
/-! PROOFS. Rules used by the claims on channels and banks: bits kept, tables of a half, folds over units, and what a
software clear of a register's fields leaves alone. -/

namespace Sys2Proof.Machine

open Sys2Proof

/-! ### Kept bits -/

theorem bitsKept_trans {u v w : Word} {fs : List Fld} (h : BitsKept u v fs) (h' : BitsKept v w fs) :
    BitsKept u w fs := fun i hi hf => (h' i hi hf).trans (h i hi hf)

theorem bitsKept_mono {v w : Word} {fs gs : List Fld} (h : BitsKept v w fs) (hs : ∀ f ∈ fs, f ∈ gs) :
    BitsKept v w gs := fun i hi hg => h i hi fun f hf => hg f (hs f hf)

/-- A one-bit field outside the changed fields reads as before. -/
theorem getB_of_bitsKept {v w : Word} {fs : List Fld} {y : Fld} (h : BitsKept v w fs) (hy : y.lo < 32)
    (hf : ∀ f ∈ fs, y.lo < f.lo ∨ f.hi < y.lo) : getB w y = getB v y := h y.lo hy hf

/-- A field outside the changed fields reads as before. -/
theorem getF_of_bitsKept {v w : Word} {fs : List Fld} {y : Fld} (h : BitsKept v w fs) (hy : y.hi < 32)
    (hf : ∀ f ∈ fs, y.hi < f.lo ∨ f.hi < y.lo) : getF w y = getF v y := by
  refine Nat.eq_of_testBit_eq fun i => ?_
  rw [testBit_getF, testBit_getF]
  by_cases hi : i < y.hi + 1 - y.lo
  · rw [h (y.lo + i) (by omega) fun f hm => by have := hf f hm; omega]
  · simp [hi]

/-- A one-bit field of an OR is the OR of the fields. -/
theorem getB_or (v w : Word) (x : Fld) : getB (v ||| w) x = (getB v x || getB w x) := by simp [getB]

theorem getB_and (v w : Word) (x : Fld) : getB (v &&& w) x = (getB v x && getB w x) := by simp [getB]

theorem getB_not (v : Word) (x : Fld) (h : x.lo < 32) : getB (~~~v) x = !getB v x := by simp [getB, h]

/-- A one-bit field replaced, among the fields that may change. -/
theorem bitsKept_putB_mem (v : Word) (x : Fld) (b : Bool) {fs : List Fld} (hx : x ∈ fs) : BitsKept v (putB v x b) fs :=
  bitsKept_mono (bitsKept_putB v x b) fun _ hf => List.mem_singleton.1 hf ▸ hx

theorem bitsKept_putF_mem (v : Word) (x : Fld) (n : Nat) {fs : List Fld} (hx : x ∈ fs) : BitsKept v (putF v x n) fs :=
  bitsKept_mono (bitsKept_putF v x n) fun _ hf => List.mem_singleton.1 hf ▸ hx

theorem half_other_ne (h : Half) : h.other ≠ h := by cases h <;> decide

namespace Dev

/-! ### The tables of a half -/

@[simp] theorem rd_onHalf (d : Dev) (h : Half) (g : HalfSt → HalfSt) (a : Nat) : (d.onHalf h g).rd a = d.rd a := by
  simp [onHalf]

@[simp] theorem timeBase_onHalf (d : Dev) (h : Half) (g : HalfSt → HalfSt) :
    (d.onHalf h g).timeBase = d.timeBase := by cases h <;> rfl

theorem half_onHalf_same (d : Dev) (h : Half) (g : HalfSt → HalfSt) : (d.onHalf h g).half h = g (d.half h) := by
  simp [onHalf]

theorem half_onHalf_other (d : Dev) (h : Half) (g : HalfSt → HalfSt) :
    (d.onHalf h g).half h.other = d.half h.other := half_setHalf_other d _ (half_other_ne h)

@[simp] theorem rd_setChan (d : Dev) (h : Half) (c : Nat) (x : Chan) (a : Nat) : (d.setChan h c x).rd a = d.rd a :=
  rd_onHalf d h _ a

@[simp] theorem rd_setBank (d : Dev) (h : Half) (b : Nat) (x : Bank) (a : Nat) : (d.setBank h b x).rd a = d.rd a :=
  rd_onHalf d h _ a

@[simp] theorem chan_wr (d : Dev) (a : Nat) (v : Word) (h : Half) (c : Nat) : (d.wr a v).chan h c = d.chan h c := by
  simp [chan]

@[simp] theorem chan_setF (d : Dev) (a : Nat) (x : Fld) (n : Nat) (h : Half) (c : Nat) :
    (d.setF a x n).chan h c = d.chan h c := chan_wr d a _ h c

@[simp] theorem chan_setB (d : Dev) (a : Nat) (x : Fld) (b : Bool) (h : Half) (c : Nat) :
    (d.setB a x b).chan h c = d.chan h c := chan_wr d a _ h c

@[simp] theorem chan_setChan_same (d : Dev) (h : Half) (c : Nat) (x : Chan) : (d.setChan h c x).chan h c = x := by
  simp [chan, setChan, half_onHalf_same]

theorem chan_setChan_other (d : Dev) (h : Half) {c k : Nat} (x : Chan) (hk : k ≠ c) :
    (d.setChan h c x).chan h k = d.chan h k := by
  rw [chan, setChan, half_onHalf_same]
  exact sparseGet_set_other _ _ _ hk

@[simp] theorem bank_wr (d : Dev) (a : Nat) (v : Word) (h : Half) (b : Nat) : (d.wr a v).bank h b = d.bank h b := by
  simp [bank]

@[simp] theorem bank_setBank_same (d : Dev) (h : Half) (b : Nat) (x : Bank) : (d.setBank h b x).bank h b = x := by
  simp [bank, setBank, half_onHalf_same]

theorem bank_setBank_other (d : Dev) (h : Half) {b k : Nat} (x : Bank) (hk : k ≠ b) :
    (d.setBank h b x).bank h k = d.bank h k := by
  rw [bank, setBank, half_onHalf_same]
  exact sparseGet_set_other _ _ _ hk

/-! ### Folds over units -/

section Fold

variable {α : Type} {P : Dev → Prop} {A : Dev → Dev → Prop} {f : Dev → α → Dev}

/-- What every step of a fold keeps, and how every step relates the devices around it, the whole fold does. -/
theorem foldl_relates (hr : ∀ d, A d d) (ht : ∀ {d e k}, A d e → A e k → A d k) (l : List α)
    (hf : ∀ d, P d → ∀ c ∈ l, P (f d c) ∧ A d (f d c)) {d : Dev} (hd : P d) :
    P (l.foldl f d) ∧ A d (l.foldl f d) := by
  induction l generalizing d with
  | nil => exact ⟨hd, hr d⟩
  | cons c l ih =>
    obtain ⟨h1, h2⟩ := hf d hd c (List.mem_cons_self ..)
    obtain ⟨h3, h4⟩ := ih (fun d hd c hc => hf d hd c (List.mem_cons_of_mem _ hc)) h1
    exact ⟨h3, ht h2 h4⟩

/-- A unit that a fold meets once: its own step, between steps of other units. -/
theorem foldl_meets (hr : ∀ d, A d d) (ht : ∀ {d e k}, A d e → A e k → A d k) {l : List α} (hl : l.Nodup) {n : α}
    (hn : n ∈ l) (hp : ∀ d, P d → ∀ c ∈ l, P (f d c)) (hf : ∀ d, P d → ∀ c ∈ l, c ≠ n → A d (f d c)) {d : Dev}
    (hd : P d) : ∃ e : Dev, P e ∧ A d e ∧ A (f e n) (l.foldl f d) := by
  obtain ⟨l1, l2, rfl⟩ := List.append_of_mem hn
  have hd12 := List.nodup_append.1 hl
  have h1 : ∀ c ∈ l1, c ≠ n := fun c hc => hd12.2.2 c hc n (List.mem_cons_self ..)
  have h2 : ∀ c ∈ l2, c ≠ n := fun c hc he => (List.nodup_cons.1 hd12.2.1).1 (he ▸ hc)
  have hm1 : ∀ c ∈ l1, c ∈ l1 ++ n :: l2 := fun c hc => List.mem_append_left _ hc
  have hm2 : ∀ c ∈ l2, c ∈ l1 ++ n :: l2 := fun c hc => List.mem_append_right _ (List.mem_cons_of_mem _ hc)
  obtain ⟨p1, a1⟩ := foldl_relates hr ht l1
    (fun d hd c hc => ⟨hp d hd c (hm1 c hc), hf d hd c (hm1 c hc) (h1 c hc)⟩) hd
  obtain ⟨-, a2⟩ := foldl_relates hr ht l2
    (fun d hd c hc => ⟨hp d hd c (hm2 c hc), hf d hd c (hm2 c hc) (h2 c hc)⟩) (hp _ p1 n hn)
  exact ⟨l1.foldl f d, p1, a1, by simpa [List.foldl_append] using a2⟩

end Fold

end Dev

/-! ### Lists of units that a word names -/

theorem mem_bitsOf {v : Word} {n i : Nat} : i ∈ bitsOf v n ↔ i < n ∧ v.getLsbD i = true := by
  simp [bitsOf]

theorem nodup_bitsOf (v : Word) (n : Nat) : (bitsOf v n).Nodup := List.nodup_range.filter _

theorem Dev.mem_groupBits {g : Nat} {v : Word} {c : Nat} :
    c ∈ Dev.groupBits g v ↔ c / 16 = g ∧ v.getLsbD (c % 16) = true := by
  simp only [Dev.groupBits, List.mem_map, mem_bitsOf]
  constructor
  · rintro ⟨j, ⟨hj, hv⟩, rfl⟩
    rw [show (16 * g + j) / 16 = g by omega, show (16 * g + j) % 16 = j by omega]
    exact ⟨rfl, hv⟩
  · rintro ⟨rfl, hv⟩
    exact ⟨c % 16, ⟨by omega, hv⟩, by omega⟩

theorem Dev.nodup_groupBits (g : Nat) (v : Word) : (Dev.groupBits g v).Nodup :=
  List.Pairwise.map _ (fun _ _ h => by omega) (nodup_bitsOf v 16)

end Sys2Proof.Machine
end
section
/-! PROOFS. Arming, disarming and status clears of event channels (R156, R160, R179). -/

namespace Sys2Proof.Machine

open Sys2Proof

namespace Dev

/-! ### What touches one channel alone -/

/-- Between two devices, at one tick, at most one channel of a half differs: in its occurrence, EVC_STAT and EVC_PRED. -/
structure OneChannel (h : Half) (c : Nat) (d e : Dev) : Prop where
  chans : ∀ k, k ≠ c → e.chan h k = d.chan h k
  regs : RegsKept d e [Reg.EVC_STAT h c, Reg.EVC_PRED h c]
  other : e.half h.other = d.half h.other
  time : e.timeBase = d.timeBase

namespace OneChannel

variable {h : Half} {c : Nat} {z d : Dev}

theorem refl (h : Half) (c : Nat) (d : Dev) : OneChannel h c d d :=
  ⟨fun _ _ => rfl, regsKept_refl d _, rfl, rfl⟩

theorem setChan (x : Chan) (q : OneChannel h c z d) : OneChannel h c z (d.setChan h c x) :=
  ⟨fun k hk => (chan_setChan_other d h x hk).trans (q.chans k hk), fun a ha => (rd_setChan ..).trans (q.regs a ha),
    (half_onHalf_other ..).trans q.other, (timeBase_onHalf ..).trans q.time⟩

theorem wr {a : Nat} (v : Word) (ha : a ∈ [Reg.EVC_STAT h c, Reg.EVC_PRED h c]) (q : OneChannel h c z d) :
    OneChannel h c z (d.wr a v) :=
  ⟨fun k hk => (chan_wr ..).trans (q.chans k hk), regsKept_trans q.regs (regsKept_wr d a v ha),
    (half_wr ..).trans q.other, q.time⟩

theorem setStat (x : Fld) (b : Bool) (q : OneChannel h c z d) :
    OneChannel h c z (d.setB (Reg.EVC_STAT h c) x b) := q.wr _ (by simp)

theorem choose (q : OneChannel h c z d) : OneChannel h c z (d.choose h c) := (q.setChan _).setStat _ _

theorem withhold (q : OneChannel h c z d) : OneChannel h c z (d.withhold h c) :=
  (((q.setChan _).wr _ (by simp)).setStat _ _).setStat _ _

end OneChannel

/-! ### Choosing again -/

/-- An occurrence that holds a slot or has issued its start. -/
def InFlight (o : Occ) : Prop := o = .slot ∨ o = .deferred ∨ o = .launched

/-- Choosing again leaves an occurrence in flight. -/
theorem rechoose_inFlight {d : Dev} {h : Half} {c : Nat} (hx : InFlight (d.chan h c).occ) : d.rechoose h c = d := by
  rcases hx with hx | hx | hx <;> simp [rechoose, hx]

/-- Any other occurrence is chosen where the channel is armed, enabled and issues, and else withheld. -/
theorem rechoose_idle {d : Dev} {h : Half} {c : Nat} (hx : ¬InFlight (d.chan h c).occ) :
    d.rechoose h c = if d.armed h c && d.chEn h c && d.chIssues h c then d.choose h c else d.withhold h c := by
  unfold rechoose
  split
  · next e => exact absurd (.inl e) hx
  · next e => exact absurd (.inr (.inl e)) hx
  · next e => exact absurd (.inr (.inr e)) hx
  · rfl

theorem rechoose_cases (d : Dev) (h : Half) (c : Nat) :
    d.rechoose h c = d ∨ d.rechoose h c = d.choose h c ∨ d.rechoose h c = d.withhold h c := by
  by_cases hx : InFlight (d.chan h c).occ
  · exact .inl (rechoose_inFlight hx)
  · rw [rechoose_idle hx]
    split
    · exact .inr (.inl rfl)
    · exact .inr (.inr rfl)

theorem OneChannel.rechoose {h : Half} {c : Nat} {z d : Dev} (q : OneChannel h c z d) :
    OneChannel h c z (d.rechoose h c) := by
  rcases rechoose_cases d h c with e | e | e
  · rwa [e]
  · rw [e]
    exact q.choose
  · rw [e]
    exact q.withhold

theorem evcPred_ne_evcStat (h : Half) (c k : Nat) : Reg.EVC_STAT h k ≠ Reg.EVC_PRED h c := by
  simp only [Reg.EVC_STAT, Reg.EVC_PRED]
  omega

/-- EVC_STAT of a channel that is withheld. -/
theorem stat_withhold (d : Dev) (h : Half) (c : Nat) : (d.withhold h c).rd (Reg.EVC_STAT h c) =
    putB (putB (d.rd (Reg.EVC_STAT h c)) F.EVC_STAT_FAR false) F.EVC_STAT_WAITING false := by
  simp only [withhold, rd_setB_same]
  rw [rd_wr_other _ _ (evcPred_ne_evcStat h c c), rd_setChan]

/-- Choosing again changes FAR and WAITING of EVC_STAT alone. -/
theorem bitsKept_rechoose (d : Dev) (h : Half) (c : Nat) :
    BitsKept (d.rd (Reg.EVC_STAT h c)) ((d.rechoose h c).rd (Reg.EVC_STAT h c))
      [F.EVC_STAT_FAR, F.EVC_STAT_WAITING] := by
  rcases rechoose_cases d h c with e | e | e <;> rw [e]
  · exact bitsKept_refl _ _
  · rw [choose, rd_setB_same, rd_setChan]
    exact bitsKept_putB_mem _ _ _ (by simp)
  · rw [stat_withhold]
    exact bitsKept_trans (bitsKept_putB_mem _ _ _ (by simp)) (bitsKept_putB_mem _ _ _ (by simp))

theorem armed_rechoose (d : Dev) (h : Half) (c : Nat) : (d.rechoose h c).armed h c = d.armed h c :=
  getB_of_bitsKept (bitsKept_rechoose d h c) (by decide) (by decide)

/-- A channel disarmed whose occurrence is not in flight has none, and EVC_PRED reads 0. -/
theorem rechoose_disarmed {d : Dev} {h : Half} {c : Nat} (ha : d.armed h c = false)
    (hx : ¬InFlight (d.chan h c).occ) :
    ((d.rechoose h c).chan h c).occ = .none ∧ (d.rechoose h c).rd (Reg.EVC_PRED h c) = 0 := by
  rw [rechoose_idle hx, ha]
  simp only [Bool.false_and, Bool.false_eq_true, if_false, withhold]
  constructor
  · simp
  · rw [rd_setB_other _ _ _ (evcPred_ne_evcStat h c c).symm, rd_setB_other _ _ _ (evcPred_ne_evcStat h c c).symm,
      rd_wr_same]

/-! ### Arming (R160, R161) -/

/-- A channel that is not enabled, or armed already, stays as it is. -/
theorem arm_refused {d : Dev} {h : Half} {c : Nat} (hx : d.chEn h c = false ∨ d.armed h c = true) :
    d.arm h c = d := by
  unfold arm
  rcases hx with hx | hx <;> simp [hx]

theorem arm_taken {d : Dev} {h : Half} {c : Nat} (he : d.chEn h c = true) (ha : d.armed h c = false) :
    d.arm h c = (d.setB (Reg.EVC_STAT h c) F.EVC_STAT_ARMED true).startOver h c false := by
  simp [arm, he, ha]

theorem startOver_inFlight {d : Dev} {h : Half} {c : Nat} (b : Bool) (hx : InFlight (d.chan h c).occ) :
    d.startOver h c b = d := by
  rcases hx with hx | hx | hx <;> simp [startOver, hx]

theorem startOver_idle {d : Dev} {h : Half} {c : Nat} (b : Bool) (hx : ¬InFlight (d.chan h c).occ) :
    d.startOver h c b = (d.setChan h c { d.chan h c with prev := none, org := none, first := b }).rechoose h c := by
  unfold startOver
  dsimp only
  split
  · next e => exact absurd (.inl e) hx
  · next e => exact absurd (.inr (.inl e)) hx
  · next e => exact absurd (.inr (.inr e)) hx
  · rfl

theorem OneChannel.startOver {h : Half} {c : Nat} {z d : Dev} (b : Bool) (q : OneChannel h c z d) :
    OneChannel h c z (d.startOver h c b) := by
  by_cases hx : InFlight (d.chan h c).occ
  · rwa [startOver_inFlight b hx]
  · rw [startOver_idle b hx]
    exact (q.setChan _).rechoose

/-- Starting over changes FAR and WAITING of EVC_STAT alone. -/
theorem bitsKept_startOver (d : Dev) (h : Half) (c : Nat) (b : Bool) :
    BitsKept (d.rd (Reg.EVC_STAT h c)) ((d.startOver h c b).rd (Reg.EVC_STAT h c))
      [F.EVC_STAT_FAR, F.EVC_STAT_WAITING] := by
  by_cases hx : InFlight (d.chan h c).occ
  · rw [startOver_inFlight b hx]
    exact bitsKept_refl _ _
  · rw [startOver_idle b hx]
    simpa using bitsKept_rechoose (d.setChan h c { d.chan h c with prev := none, org := none, first := b }) h c

theorem oneChannel_arm (d : Dev) (h : Half) (c : Nat) : OneChannel h c d (d.arm h c) := by
  unfold arm
  split
  · exact ((OneChannel.refl h c d).setStat _ _).startOver _
  · exact .refl h c d

/-- The fields of EVC_STAT that arming and disarming may change. -/
abbrev armFields : List Fld := [F.EVC_STAT_ARMED, F.EVC_STAT_FAR, F.EVC_STAT_WAITING]

theorem bitsKept_arm (d : Dev) (h : Half) (c : Nat) :
    BitsKept (d.rd (Reg.EVC_STAT h c)) ((d.arm h c).rd (Reg.EVC_STAT h c)) armFields := by
  unfold arm
  split
  · refine bitsKept_trans ?_ (bitsKept_mono (bitsKept_startOver _ h c false) (by simp))
    rw [rd_setB_same]
    exact bitsKept_putB_mem _ _ _ (by simp)
  · exact bitsKept_refl _ _

/-- An enabled channel is armed afterwards. -/
theorem armed_arm {d : Dev} {h : Half} {c : Nat} (he : d.chEn h c = true) : (d.arm h c).armed h c = true := by
  cases ha : d.armed h c with
  | true => rw [arm_refused (.inr ha), ha]
  | false =>
    rw [arm_taken he ha]
    have hk := getB_of_bitsKept (y := F.EVC_STAT_ARMED)
      (bitsKept_startOver (d.setB (Reg.EVC_STAT h c) F.EVC_STAT_ARMED true) h c false) (by decide) (by decide)
    exact hk.trans (bit_setB_same d _ _ _ (by decide) (by decide))

/-- Arming leaves an occurrence in flight. -/
theorem chan_arm_inFlight {d : Dev} {h : Half} {c : Nat} (hx : InFlight (d.chan h c).occ) :
    (d.arm h c).chan h c = d.chan h c := by
  unfold arm
  split
  · rw [startOver_inFlight _ (by simpa using hx), chan_setB]
  · rfl

/-! ### Disarming (R160, R179) -/

/-- A channel whose slot take is not due takes none. -/
theorem takeOne_notDue {d : Dev} {h : Half} {c : Nat}
    (hn : ∀ q : Int, (d.chan h c).occ = .pending → d.startTime h c = some q → ((d.now + 160 : Nat) : Int) < q / 65536) :
    d.takeOne h c = d := by
  unfold takeOne
  dsimp only
  split
  · next p o hx hp ho =>
    have := hn p hx hp
    rw [if_neg (by simp; omega)]
  · rfl

theorem slotTake_notDue {d : Dev} {h : Half} {c : Nat} (hn : Claims.NoTakeBelow d h (c + 1)) : d.slotTake h c = d := by
  have hone : ∀ j, j < c + 1 → d.takeOne h j = d := fun j hj => takeOne_notDue fun q => hn j q hj
  have hall : ∀ l : List Nat, (∀ j ∈ l, j < c) → l.foldl (fun d j => d.takeOne h j) d = d := by
    intro l hl
    induction l with
    | nil => rfl
    | cons j l ih =>
      rw [List.foldl_cons, hone j (by have := hl j (List.mem_cons_self ..); omega)]
      exact ih fun k hk => hl k (List.mem_cons_of_mem _ hk)
  show (((d.activeChans h).filter fun j => decide (j < c)).foldl (fun d j => d.takeOne h j) d).takeOne h c = d
  rw [hall _ (by simp), hone c (by omega)]

theorem disarm_notDue {d : Dev} {h : Half} {c : Nat} (hc : c < 256) (hn : Claims.NoTakeBelow d h 256) :
    d.disarm h c = (d.setB (Reg.EVC_STAT h c) F.EVC_STAT_ARMED false).rechoose h c := by
  rw [disarm, slotTake_notDue fun j q hj => hn j q (by omega)]

section Disarm

variable {d : Dev} {h : Half} {c : Nat} (hc : c < 256) (hn : Claims.NoTakeBelow d h 256)
include hc hn

theorem oneChannel_disarm : OneChannel h c d (d.disarm h c) := by
  rw [disarm_notDue hc hn]
  exact ((OneChannel.refl h c d).setStat _ _).rechoose

theorem bitsKept_disarm : BitsKept (d.rd (Reg.EVC_STAT h c)) ((d.disarm h c).rd (Reg.EVC_STAT h c)) armFields := by
  rw [disarm_notDue hc hn]
  refine bitsKept_trans ?_ (bitsKept_mono (bitsKept_rechoose _ h c) (by simp))
  rw [rd_setB_same]
  exact bitsKept_putB_mem _ _ _ (by simp)

theorem armed_disarm : (d.disarm h c).armed h c = false := by
  rw [disarm_notDue hc hn, armed_rechoose]
  exact bit_setB_same d _ _ _ (by decide) (by decide)

theorem chan_disarm_inFlight (hx : InFlight (d.chan h c).occ) : (d.disarm h c).chan h c = d.chan h c := by
  rw [disarm_notDue hc hn, rechoose_inFlight (by simpa using hx), chan_setB]

/-- An occurrence that is not in flight is abandoned. -/
theorem disarm_abandons (hx : ¬InFlight (d.chan h c).occ) :
    ((d.disarm h c).chan h c).occ = .none ∧ (d.disarm h c).rd (Reg.EVC_PRED h c) = 0 := by
  rw [disarm_notDue hc hn]
  exact rechoose_disarmed (bit_setB_same d _ _ _ (by decide) (by decide)) (by simpa using hx)

end Disarm

/-! ### The registers of other channels -/

/-- Two devices show a channel alike: its occurrence, EVC_STAT, EVC_PRED and EVC_CTRL. -/
structure ChannelAs (h : Half) (n : Nat) (d e : Dev) : Prop where
  chan : e.chan h n = d.chan h n
  stat : e.rd (Reg.EVC_STAT h n) = d.rd (Reg.EVC_STAT h n)
  pred : e.rd (Reg.EVC_PRED h n) = d.rd (Reg.EVC_PRED h n)
  ctrl : e.rd (Reg.EVC_CTRL h n) = d.rd (Reg.EVC_CTRL h n)

theorem ChannelAs.refl (h : Half) (n : Nat) (d : Dev) : ChannelAs h n d d := ⟨rfl, rfl, rfl, rfl⟩

theorem ChannelAs.trans {h : Half} {n : Nat} {d e k : Dev} (q : ChannelAs h n d e) (r : ChannelAs h n e k) :
    ChannelAs h n d k :=
  ⟨r.chan.trans q.chan, r.stat.trans q.stat, r.pred.trans q.pred, r.ctrl.trans q.ctrl⟩

/-- A change of one channel is none of another. -/
theorem OneChannel.as {h : Half} {c n : Nat} {d e : Dev} (q : OneChannel h c d e) (hc : c ≠ n) : ChannelAs h n d e := by
  refine ⟨q.chans n hc.symm, q.regs _ ?_, q.regs _ ?_, q.regs _ ?_⟩
  all_goals
    simp only [Reg.EVC_STAT, Reg.EVC_PRED, Reg.EVC_CTRL, List.mem_cons, List.not_mem_nil, or_false]
    omega

/-- A change of one channel leaves the configuration and the active demands of every channel. -/
theorem OneChannel.startTime {h : Half} {c k : Nat} {d e : Dev} (q : OneChannel h c d e) (hc : c < 256) (hk : k ≠ c) :
    e.startTime h k = d.startTime h k := by
  obtain ⟨h1, h2, h3, h4, h5⟩ : e.rd (Reg.EVC_CTRL h k) = d.rd (Reg.EVC_CTRL h k) ∧
      e.rd (Reg.EVC_AUX h k) = d.rd (Reg.EVC_AUX h k) ∧ e.rd (Reg.EVC_ANGLE h k) = d.rd (Reg.EVC_ANGLE h k) ∧
      e.rd (Reg.EVC_OFFSET h k) = d.rd (Reg.EVC_OFFSET h k) ∧ e.rd (Reg.EVC_END h k) = d.rd (Reg.EVC_END h k) := by
    refine ⟨q.regs _ ?_, q.regs _ ?_, q.regs _ ?_, q.regs _ ?_, q.regs _ ?_⟩
    all_goals
      simp only [Reg.EVC_STAT, Reg.EVC_PRED, Reg.EVC_CTRL, Reg.EVC_AUX, Reg.EVC_ANGLE, Reg.EVC_OFFSET, Reg.EVC_END,
        List.mem_cons, List.not_mem_nil, or_false]
      omega
  have hdmd : ∀ n w, e.rd (Reg.DMD_ANGLE_ACT h n + 4 * w) = d.rd (Reg.DMD_ANGLE_ACT h n + 4 * w) := fun n w => q.regs _ (by
    simp only [Reg.EVC_STAT, Reg.EVC_PRED, Reg.DMD_ANGLE_ACT, List.mem_cons, List.not_mem_nil, or_false]
    omega)
  have hvals : e.vals h k = d.vals h k := by simp only [vals, valsOf, hdmd, h1, h2, h3, h4, h5]
  simp only [Dev.startTime, valsNow, q.chans k hk, hvals]

/-- Disarming makes no slot take due. -/
theorem noTake_disarm {d : Dev} {h : Half} {c : Nat} (hc : c < 256) (hn : Claims.NoTakeBelow d h 256) :
    Claims.NoTakeBelow (d.disarm h c) h 256 := by
  have q := oneChannel_disarm hc hn
  intro j p hj hx hp
  by_cases hjc : j = c
  · subst hjc
    by_cases hf : InFlight (d.chan h j).occ
    · rw [chan_disarm_inFlight hc hn hf] at hx
      rw [hx] at hf
      simp [InFlight] at hf
    · rw [(disarm_abandons hc hn hf).1] at hx
      cases hx
  · rw [q.chans j hjc] at hx
    rw [q.startTime hc hjc] at hp
    rw [show (d.disarm h c).now = d.now from congrArg BitVec.toNat q.time]
    exact hn j p hj hx hp

end Dev
end Sys2Proof.Machine
end

section
/-! PROOFS. A write of EVC_ARMg or EVC_DISARMg: the channels of its 1 bits one after the other, and no other (R160). -/

namespace Sys2Proof.Machine

open Sys2Proof

namespace Dev

/-- The registers of a group of channels that arming and disarming may change. -/
abbrev groupRegs (h : Half) (g : Nat) : List Nat :=
  (List.range 16).flatMap fun j => [Reg.EVC_STAT h (16 * g + j), Reg.EVC_PRED h (16 * g + j)]

theorem mem_groupRegs {h : Half} {g c a : Nat} (hc : c / 16 = g) (ha : a ∈ [Reg.EVC_STAT h c, Reg.EVC_PRED h c]) :
    a ∈ groupRegs h g := by
  refine List.mem_flatMap.2 ⟨c % 16, List.mem_range.2 (by omega), ?_⟩
  rwa [show 16 * g + c % 16 = c by omega]

theorem lt_of_mem_groupBits {g c : Nat} {v : Word} (hg : g < 16) (hc : c ∈ groupBits g v) : c < 256 := by
  have := (mem_groupBits.1 hc).1
  omega

section Group

variable {h : Half} {g : Nat} {v : Word} {P : Dev → Prop} {f : Dev → Nat → Dev} {d : Dev}
  (hg : g < 16) (hP : ∀ d, P d → ∀ c, c < 256 → P (f d c))
  (hone : ∀ d, P d → ∀ c, c < 256 → OneChannel h c d (f d c)) (hd : P d)
include hg hP hone hd

/-- A write to a group changes the two registers of its channels, and nothing of the other half. -/
theorem group_frame : RegsKept d ((groupBits g v).foldl f d) (groupRegs h g) ∧
    ((groupBits g v).foldl f d).half h.other = d.half h.other := by
  refine (foldl_relates (A := fun d e => RegsKept d e (groupRegs h g) ∧ e.half h.other = d.half h.other)
    (fun d => ⟨regsKept_refl d _, rfl⟩) (fun q r => ⟨regsKept_trans q.1 r.1, r.2.trans q.2⟩) (groupBits g v)
    (fun d hd c hc => ⟨hP d hd c (lt_of_mem_groupBits hg hc), ?_⟩) hd).2
  have q := hone d hd c (lt_of_mem_groupBits hg hc)
  exact ⟨regsKept_mono q.regs fun a ha => mem_groupRegs (mem_groupBits.1 hc).1 ha, q.other⟩

/-- A channel that the write does not name shows as before. -/
theorem group_unnamed {n : Nat} (hn : n ∉ groupBits g v) : ChannelAs h n d ((groupBits g v).foldl f d) := by
  refine (foldl_relates (ChannelAs.refl h n) ChannelAs.trans (groupBits g v) (fun d hd c hc => ?_) hd).2
  have hc256 := lt_of_mem_groupBits hg hc
  exact ⟨hP d hd c hc256, (hone d hd c hc256).as fun e => hn (e ▸ hc)⟩

/-- A channel that the write names shows what its own step makes of it. -/
theorem group_named {n : Nat} (hn : n ∈ groupBits g v) :
    ∃ e : Dev, P e ∧ ChannelAs h n d e ∧ ChannelAs h n (f e n) ((groupBits g v).foldl f d) :=
  foldl_meets (ChannelAs.refl h n) ChannelAs.trans (nodup_groupBits g v) hn
    (fun d hd c hc => hP d hd c (lt_of_mem_groupBits hg hc))
    (fun d hd c hc hcn => (hone d hd c (lt_of_mem_groupBits hg hc)).as hcn) hd

/-- Of EVC_STAT of any channel the write changes the fields that its step may change. -/
theorem group_bits {fs : List Fld} (hb : ∀ d, P d → ∀ c, c < 256 →
      BitsKept (d.rd (Reg.EVC_STAT h c)) ((f d c).rd (Reg.EVC_STAT h c)) fs) (n : Nat) :
    BitsKept (d.rd (Reg.EVC_STAT h n)) (((groupBits g v).foldl f d).rd (Reg.EVC_STAT h n)) fs := by
  by_cases hn : n ∈ groupBits g v
  · obtain ⟨e, he, q, r⟩ := group_named hg hP hone hd hn
    rw [r.stat, ← q.stat]
    exact hb e he n (lt_of_mem_groupBits hg hn)
  · rw [(group_unnamed hg hP hone hd hn).stat]
    exact bitsKept_refl _ _

end Group

/-- What a write of EVC_ARMg makes of a channel that it names. -/
theorem armGroup_named {d : Dev} {h : Half} {g n : Nat} {v : Word} (hg : g < 16) (hn : n ∈ groupBits g v) :
    ∃ e : Dev, ChannelAs h n d e ∧ ChannelAs h n (e.arm h n) ((groupBits g v).foldl (fun d c => d.arm h c) d) := by
  obtain ⟨e, -, q⟩ := group_named (P := fun _ => True) hg (fun _ _ _ _ => trivial)
    (fun d _ c _ => oneChannel_arm d h c) trivial hn (d := d)
  exact ⟨e, q⟩

/-- A channel that a write of EVC_ARMg does not name, that is not enabled or is armed already, shows as before. -/
theorem armGroup_others {d : Dev} {h : Half} {g n : Nat} {v : Word} (hg : g < 16)
    (hn : n ∉ groupBits g v ∨ d.chEn h n = false ∨ d.armed h n = true) :
    ChannelAs h n d ((groupBits g v).foldl (fun d c => d.arm h c) d) := by
  by_cases hm : n ∈ groupBits g v
  · obtain ⟨e, q, r⟩ := armGroup_named (d := d) (h := h) hg hm
    have he : e.chEn h n = false ∨ e.armed h n = true := by
      simpa only [chEn, ctrl, armed, bit, q.ctrl, q.stat] using hn.resolve_left fun x => x hm
    rw [arm_refused he] at r
    exact q.trans r
  · exact group_unnamed (P := fun _ => True) hg (fun _ _ _ _ => trivial) (fun d _ c _ => oneChannel_arm d h c)
      trivial hm

end Dev

end Sys2Proof.Machine
end
section
/-! PROOFS. A software clear of fields of one register (R8, R11): what it leaves, of that register and of the others. -/

namespace Sys2Proof.Machine

open Sys2Proof

/-! ### Hidden state -/

theorem hiddenKept_refl (d : Dev) : HiddenKept d d := rfl

theorem hiddenKept_trans {d e k : Dev} (h : HiddenKept d e) (h' : HiddenKept e k) : HiddenKept d k := by
  have h1 : ({ e with regs := d.regs, snap := d.snap } : Dev) = d := h
  have h2 : ({ k with regs := e.regs, snap := e.snap } : Dev) = e := h'
  show ({ k with regs := d.regs, snap := d.snap } : Dev) = d
  rw [← h2] at h1
  exact h1

/-- What is kept over a write access's answer is kept but for the answer. -/
theorem hiddenKept_answer {d e : Dev} {v : Word} (h : HiddenKept (d.okay v) e) :
    HiddenKept d { e with answer := d.answer } := by
  have h1 : ({ e with regs := d.regs, snap := d.snap } : Dev) = d.okay v := h
  show ({ e with regs := d.regs, snap := d.snap, answer := d.answer } : Dev) = d
  exact congrArg (fun x : Dev => ({ x with answer := d.answer } : Dev)) h1

namespace Dev

/-! ### The start of the cycle -/

@[simp] theorem rd_rebase (d : Dev) (a b : Nat) (v : Word) : (d.rebase a v).rd b = d.rd b := rfl

theorem oldRd_wr_other (d : Dev) {a b : Nat} (v : Word) (h : b ≠ a) : (d.wr a v).oldRd b = d.oldRd b := by
  unfold oldRd
  rw [wr_snap, rd_wr_other d v h]

theorem againNow_wr (d : Dev) (a b : Nat) (v : Word) : (d.wr a v).againNow b = d.againNow b := rfl

theorem oldRd_rebase_other (d : Dev) {a b : Nat} (v : Word) (h : b ≠ a) : (d.rebase a v).oldRd b = d.oldRd b := by
  unfold oldRd rebase
  cases d.snap with
  | none => rfl
  | some s =>
    simp only [Option.map_some]
    split <;> simp only [sparseGet, sparseFind_set_other _ _ _ h]

/-- At the register written the start of the cycle shows the written word, or, where no cycle has begun, the register. -/
theorem oldRd_rebase_same (d : Dev) (a : Nat) (v : Word) :
    (d.rebase a v).oldRd a = if d.snap.isSome then v else d.rd a := by
  unfold oldRd rebase
  cases d.snap with
  | none => rfl
  | some s =>
    simp only [Option.map_some, Option.isSome_some, if_true]
    split <;> exact sparseGet_set_same _ _ _ _

theorem oldRd_of_none {d : Dev} (h : d.snap = none) (a : Nat) : d.oldRd a = d.rd a := by
  unfold oldRd
  rw [h]

theorem againNow_rebase (d : Dev) (a b : Nat) (v : Word) : (d.rebase a v).againNow b = d.againNow b := by
  unfold againNow rebase
  cases d.snap <;> rfl

/-! ### The clear -/

/-- Between two devices only fields `fs` of register `a` may differ, at the start of the cycle as now. -/
structure Clears (a : Nat) (fs : List Fld) (d e : Dev) : Prop where
  hidden : HiddenKept d e
  regs : RegsKept d e [a]
  bits : BitsKept (d.rd a) (e.rd a) fs
  old : ∀ b, b ≠ a → e.oldRd b = d.oldRd b
  oldBits : BitsKept (d.oldRd a) (e.oldRd a) fs
  again : ∀ b, e.againNow b = d.againNow b

namespace Clears

variable {a : Nat} {fs gs : List Fld} {d e k : Dev} {y : Fld}

theorem refl (a : Nat) (fs : List Fld) (d : Dev) : Clears a fs d d :=
  ⟨rfl, regsKept_refl d _, bitsKept_refl _ _, fun _ _ => rfl, bitsKept_refl _ _, fun _ => rfl⟩

theorem trans (q : Clears a fs d e) (r : Clears a fs e k) : Clears a fs d k :=
  ⟨hiddenKept_trans q.hidden r.hidden, regsKept_trans q.regs r.regs, bitsKept_trans q.bits r.bits,
    fun b hb => (r.old b hb).trans (q.old b hb), bitsKept_trans q.oldBits r.oldBits,
    fun b => (r.again b).trans (q.again b)⟩

theorem mono (q : Clears a fs d e) (hs : ∀ f ∈ fs, f ∈ gs) : Clears a gs d e :=
  { q with bits := bitsKept_mono q.bits hs, oldBits := bitsKept_mono q.oldBits hs }

/-- One field replaced, now and, with another value, at the start of the cycle. -/
theorem of_replace (d : Dev) (a : Nat) (x : Fld) (n m : Nat) :
    Clears a [x] d ((d.setF a x n).rebase a (putF (d.oldRd a) x m)) := by
  refine ⟨rfl, fun b hb => ?_, ?_, fun b hb => ?_, ?_, fun b => ?_⟩
  · rw [rd_rebase]
    exact regsKept_setF d a x n (List.mem_singleton_self a) b hb
  · rw [rd_rebase, rd_setF_same]
    exact bitsKept_putF _ _ _
  · rw [oldRd_rebase_other _ _ hb, setF, oldRd_wr_other _ _ hb]
  · rw [oldRd_rebase_same]
    split
    · exact bitsKept_putF _ _ _
    · next hs =>
      have hs' : d.snap = none := by simpa [setF] using hs
      rw [rd_setF_same, oldRd_of_none hs']
      exact bitsKept_putF _ _ _
  · rw [againNow_rebase, setF, againNow_wr]

theorem clrFlag (d : Dev) (a : Nat) (x : Fld) : Clears a [x] d (d.clrFlag a x) := of_replace d a x _ _

theorem clrCount (d : Dev) (a : Nat) (x : Fld) : Clears a [x] d (d.clrCount a x) := of_replace d a x _ _

/-- A flag outside the cleared fields reads as before. -/
theorem bit (q : Clears a fs d e) (hy : y.lo < 32) (hf : ∀ f ∈ fs, y.lo < f.lo ∨ f.hi < y.lo) :
    e.bit a y = d.bit a y := getB_of_bitsKept q.bits hy hf

/-- A field outside the cleared fields reads as before. -/
theorem field (q : Clears a fs d e) (hy : y.hi < 32) (hf : ∀ f ∈ fs, y.hi < f.lo ∨ f.hi < y.lo) :
    e.f a y = d.f a y := getF_of_bitsKept q.bits hy hf

/-- What hardware set outside the cleared fields in this cycle stays known. -/
theorem hwSet (q : Clears a fs d e) (hy : y.lo < 32) (hf : ∀ f ∈ fs, y.lo < f.lo ∨ f.hi < y.lo) :
    getB (e.hwSet a) y = getB (d.hwSet a) y := by
  simp only [Dev.hwSet, getB_or, getB_and, getB_not _ _ hy, q.again, getB_of_bitsKept q.bits hy hf,
    getB_of_bitsKept q.oldBits hy hf]

theorem since (q : Clears a fs d e) (hy : y.hi < 32) (hf : ∀ f ∈ fs, y.hi < f.lo ∨ f.hi < y.lo) :
    e.since a y = d.since a y := by
  rw [Dev.since, q.field hy hf, getF_of_bitsKept q.oldBits hy hf, Dev.since]

end Clears

/-- Two devices show a register alike: now, at the start of the cycle, and in the flags set again. -/
structure RegAs (a : Nat) (d e : Dev) : Prop where
  rd : e.rd a = d.rd a
  old : e.oldRd a = d.oldRd a
  again : e.againNow a = d.againNow a

theorem RegAs.refl (a : Nat) (d : Dev) : RegAs a d d := ⟨rfl, rfl, rfl⟩

theorem RegAs.trans {a : Nat} {d e k : Dev} (q : RegAs a d e) (r : RegAs a e k) : RegAs a d k :=
  ⟨r.rd.trans q.rd, r.old.trans q.old, r.again.trans q.again⟩

theorem RegAs.hwSet {a : Nat} {d e : Dev} (q : RegAs a d e) : e.hwSet a = d.hwSet a := by
  rw [Dev.hwSet, Dev.hwSet, q.rd, q.old, q.again]

/-- A clear of one register is none of another. -/
theorem Clears.as {a b : Nat} {fs : List Fld} {d e : Dev} (q : Clears a fs d e) (hb : b ≠ a) : RegAs b d e :=
  ⟨q.regs b (by simpa using hb), q.old b hb, q.again b⟩

/-- A flag cleared: it stays where hardware set it in this cycle (R8). -/
theorem bit_clrFlag (d : Dev) (a : Nat) (x : Fld) (h : x.lo ≤ x.hi) (h2 : x.lo < 32) :
    (d.clrFlag a x).bit a x = getB (d.hwSet a) x := by
  rw [clrFlag, bit, rd_rebase]
  exact bit_setB_same d a x _ h h2

/-- A count cleared: what hardware added in this cycle stays (R11). -/
theorem f_clrCount (d : Dev) (a : Nat) (x : Fld) (h : x.hi < 32) : (d.clrCount a x).f a x = d.since a x := by
  rw [clrCount, f, rd_rebase, rd_setF_same, getF_putF_same _ _ _ h]
  exact Nat.mod_eq_of_lt (Nat.lt_of_le_of_lt (Nat.sub_le _ _) (Nat.mod_lt _ (Nat.two_pow_pos _)))

end Dev

end Sys2Proof.Machine
end

section
/-! PROOFS. A write of EVC_STCLR (R8, R11, R156), and the claim on arming, disarming and status clears. -/

namespace Sys2Proof.Machine

open Sys2Proof

namespace Dev

/-! ### One flag or count among several clears -/

theorem Clears.clrFlagIf (d : Dev) (a : Nat) (x : Fld) (b : Bool) :
    Clears a [x] d (if b then d.clrFlag a x else d) := by
  cases b
  · exact .refl a _ d
  · exact .clrFlag d a x

theorem Clears.clrCountIf (d : Dev) (a : Nat) (x : Fld) (b : Bool) :
    Clears a [x] d (if b then d.clrCount a x else d) := by
  cases b
  · exact .refl a _ d
  · exact .clrCount d a x

/-- A field replaced now alone. -/
theorem Clears.setF (d : Dev) (a : Nat) (x : Fld) (n : Nat) : Clears a [x] d (d.setF a x n) := by
  refine ⟨rfl, regsKept_setF d a x n (by simp), ?_, fun b hb => oldRd_wr_other d _ hb, ?_, fun b => againNow_wr d a b _⟩
  · rw [rd_setF_same]
    exact bitsKept_putF _ _ _
  · cases hs : d.snap with
    | none =>
      rw [oldRd_of_none hs, oldRd_of_none (show (d.setF a x n).snap = none from hs), rd_setF_same]
      exact bitsKept_putF _ _ _
    | some s =>
      have : (d.setF a x n).oldRd a = d.oldRd a := by simp only [oldRd, Dev.setF, wr_snap, hs]
      rw [this]
      exact bitsKept_refl _ _

/-- The flag that one of several clears of a register names, the others naming other fields. -/
theorem bit_clearedAmong {a : Nat} {fs gs : List Fld} {x : Fld} {d d1 e : Dev} {b : Bool} (q : Clears a fs d d1)
    (r : Clears a gs (if b then d1.clrFlag a x else d1) e) (hx : x.lo ≤ x.hi) (hx2 : x.lo < 32)
    (hf : ∀ f ∈ fs, x.lo < f.lo ∨ f.hi < x.lo) (hg : ∀ f ∈ gs, x.lo < f.lo ∨ f.hi < x.lo) :
    e.bit a x = if b then getB (d.hwSet a) x else d.bit a x := by
  rw [r.bit hx2 hg]
  cases b
  · exact q.bit hx2 hf
  · exact (bit_clrFlag d1 a x hx hx2).trans (q.hwSet hx2 hf)

/-- The count that one of several clears of a register names, the others naming other fields. -/
theorem f_clearedAmong {a : Nat} {fs gs : List Fld} {x : Fld} {d d1 e : Dev} {b : Bool} (q : Clears a fs d d1)
    (r : Clears a gs (if b then d1.clrCount a x else d1) e) (hx : x.hi < 32)
    (hf : ∀ f ∈ fs, x.hi < f.lo ∨ f.hi < x.lo) (hg : ∀ f ∈ gs, x.hi < f.lo ∨ f.hi < x.lo) :
    e.f a x = d.f a x - if b then getF (d.oldRd a) x else 0 := by
  rw [r.field hx hg]
  cases b
  · exact q.field hx hf
  · exact (f_clrCount d1 a x hx).trans (q.since hx hf)

/-! ### One channel -/

/-- The flags of EVC_STAT with their mask bits in EVC_STCLR. -/
abbrev stclrPairs : List (Fld × Fld) :=
  [(F.EVC_STCLR_DONE, F.EVC_STAT_DONE), (F.EVC_STCLR_LATE, F.EVC_STAT_LATE),
    (F.EVC_STCLR_CAUGHT, F.EVC_STAT_CAUGHT), (F.EVC_STCLR_DROP, F.EVC_STAT_DROP), (F.EVC_STCLR_CUT, F.EVC_STAT_CUT)]

/-- The fields of EVC_STAT that a status clear may change. -/
abbrev stclrFields : List Fld :=
  [F.EVC_STAT_CUT, F.EVC_STAT_DROP, F.EVC_STAT_DROPS, F.EVC_STAT_CAUGHT, F.EVC_STAT_LATE, F.EVC_STAT_DONE]

/-- What a status clear leaves of one channel: each flag that it names as hardware set it in this cycle, the count what
hardware added, all else as it was. -/
structure StatCleared (v : Word) (a : Nat) (d e : Dev) : Prop where
  clears : Clears a stclrFields d e
  flags : ∀ p ∈ stclrPairs, e.bit a p.2 = if getB v p.1 then getB (d.hwSet a) p.2 else d.bit a p.2
  drops : e.f a F.EVC_STAT_DROPS =
    d.f a F.EVC_STAT_DROPS - if getB v F.EVC_STCLR_DROP then getF (d.oldRd a) F.EVC_STAT_DROPS else 0

theorem statCleared_clearStat (d : Dev) (h : Half) (v : Word) (c : Nat) :
    StatCleared v (Reg.EVC_STAT h c) d (d.clearStat h v c) := by
  unfold clearStat
  extract_lets a d1 d2 d3 d4
  let d1' := if getB v F.EVC_STCLR_DROP then d1.clrFlag a F.EVC_STAT_DROP else d1
  have e2 : d2 = if getB v F.EVC_STCLR_DROP then d1'.clrCount a F.EVC_STAT_DROPS else d1' := by
    simp only [d2, d1']
    cases getB v F.EVC_STCLR_DROP <;> rfl
  have q1 : Clears a [F.EVC_STAT_CUT] d d1 := .clrFlagIf ..
  have q1' : Clears a [F.EVC_STAT_DROP] d1 d1' := .clrFlagIf ..
  have q2 : Clears a [F.EVC_STAT_DROPS] d1' d2 := e2 ▸ .clrCountIf ..
  have q3 : Clears a [F.EVC_STAT_CAUGHT] d2 d3 := .clrFlagIf ..
  have q4 : Clears a [F.EVC_STAT_LATE] d3 d4 := .clrFlagIf ..
  have q5 := Clears.clrFlagIf d4 a F.EVC_STAT_DONE (getB v F.EVC_STCLR_DONE)
  have r4 : Clears a [F.EVC_STAT_LATE, F.EVC_STAT_DONE] d3 _ := (q4.mono (by simp)).trans (q5.mono (by simp))
  have r3 : Clears a [F.EVC_STAT_CAUGHT, F.EVC_STAT_LATE, F.EVC_STAT_DONE] d2 _ :=
    (q3.mono (by simp)).trans (r4.mono (by simp))
  have r2 : Clears a [F.EVC_STAT_DROPS, F.EVC_STAT_CAUGHT, F.EVC_STAT_LATE, F.EVC_STAT_DONE] d1' _ :=
    (q2.mono (by simp)).trans (r3.mono (by simp))
  have r1 : Clears a [F.EVC_STAT_DROP, F.EVC_STAT_DROPS, F.EVC_STAT_CAUGHT, F.EVC_STAT_LATE, F.EVC_STAT_DONE] d1 _ :=
    (q1'.mono (by simp)).trans (r2.mono (by simp))
  have p1' : Clears a [F.EVC_STAT_CUT, F.EVC_STAT_DROP] d d1' := (q1.mono (by simp)).trans (q1'.mono (by simp))
  have p2 : Clears a [F.EVC_STAT_CUT, F.EVC_STAT_DROP, F.EVC_STAT_DROPS] d d2 :=
    (p1'.mono (by simp)).trans (q2.mono (by simp))
  have p3 : Clears a [F.EVC_STAT_CUT, F.EVC_STAT_DROP, F.EVC_STAT_DROPS, F.EVC_STAT_CAUGHT] d d3 :=
    (p2.mono (by simp)).trans (q3.mono (by simp))
  have p4 : Clears a [F.EVC_STAT_CUT, F.EVC_STAT_DROP, F.EVC_STAT_DROPS, F.EVC_STAT_CAUGHT, F.EVC_STAT_LATE] d d4 :=
    (p3.mono (by simp)).trans (q4.mono (by simp))
  refine ⟨(q1.mono (by simp)).trans (r1.mono (by simp)), ?_, ?_⟩
  · simp only [stclrPairs, List.forall_mem_cons, List.not_mem_nil, false_imp_iff, implies_true, and_true]
    exact ⟨bit_clearedAmong p4 (.refl a [] _) (by decide) (by decide) (by decide) (by decide),
      bit_clearedAmong p3 q5 (by decide) (by decide) (by decide) (by decide),
      bit_clearedAmong p2 r4 (by decide) (by decide) (by decide) (by decide),
      bit_clearedAmong q1 r2 (by decide) (by decide) (by decide) (by decide),
      bit_clearedAmong (.refl a [] d) r1 (by decide) (by decide) (by decide) (by decide)⟩
  · exact f_clearedAmong p1' (e2 ▸ r3) (by decide) (by decide) (by decide)

/-! ### The whole write -/

/-- The channels that a write of EVC_STCLR names. -/
def stclrChans (v : Word) : List Nat :=
  if getB v F.EVC_STCLR_GRP then (List.range 16).map (fun j => getF v F.EVC_STCLR_CH / 16 * 16 + j)
  else [getF v F.EVC_STCLR_CH]

theorem mem_stclrChans {v : Word} {n : Nat} : n ∈ stclrChans v ↔
    (if getB v F.EVC_STCLR_GRP then decide (n / 16 = getF v F.EVC_STCLR_CH / 16)
      else decide (n = getF v F.EVC_STCLR_CH)) = true := by
  unfold stclrChans
  split
  · simp only [List.mem_map, List.mem_range, decide_eq_true_eq]
    constructor
    · rintro ⟨j, hj, rfl⟩
      omega
    · intro hn
      exact ⟨n % 16, by omega, by omega⟩
  · simp

theorem nodup_stclrChans (v : Word) : (stclrChans v).Nodup := by
  unfold stclrChans
  split
  · exact List.Pairwise.map _ (fun _ _ h => by omega) List.nodup_range
  · exact List.pairwise_singleton _ _

theorem lt_of_mem_stclrChans {v : Word} {n : Nat} (hn : n ∈ stclrChans v) : n < 256 := by
  have hch : getF v F.EVC_STCLR_CH < 256 := Nat.mod_lt _ (by decide)
  rw [mem_stclrChans] at hn
  split at hn <;> simp only [decide_eq_true_eq] at hn <;> omega

/-- The sums cleared where the write asks for it. -/
def sumClear (d : Dev) (h : Half) (v : Word) : Dev :=
  if getB v F.EVC_STCLR_SUMCLR then
    (if d.since (Reg.EVC_SUM h) F.EVC_SUM_PEAK = 0 then d.setF (Reg.EVC_SUM h) F.EVC_SUM_PEAK 0 else d).clrCount
      (Reg.EVC_SUM h) F.EVC_SUM_DROPTOT
  else d

theorem stclr_eq (d : Dev) (h : Half) (v : Word) :
    d.stclr h v = ((stclrChans v).foldl (fun d c => d.clearStat h v c) d).sumClear h v := rfl

theorem Clears.sumClear (d : Dev) (h : Half) (v : Word) :
    Clears (Reg.EVC_SUM h) [F.EVC_SUM_PEAK, F.EVC_SUM_DROPTOT] d (d.sumClear h v) := by
  unfold Dev.sumClear
  split
  · refine .trans ?_ ((Clears.clrCount _ _ _).mono (by simp))
    split
    · exact (Clears.setF ..).mono (by simp)
    · exact .refl _ _ d
  · exact .refl _ _ d

/-- DROPTOT after the sums were cleared. -/
theorem dropTot_sumClear (d : Dev) (h : Half) (v : Word) : (d.sumClear h v).f (Reg.EVC_SUM h) F.EVC_SUM_DROPTOT =
    d.f (Reg.EVC_SUM h) F.EVC_SUM_DROPTOT -
      if getB v F.EVC_STCLR_SUMCLR then getF (d.oldRd (Reg.EVC_SUM h)) F.EVC_SUM_DROPTOT else 0 := by
  unfold Dev.sumClear
  cases getB v F.EVC_STCLR_SUMCLR with
  | false => rfl
  | true =>
    have q : Clears (Reg.EVC_SUM h) [F.EVC_SUM_PEAK] d
        (if d.since (Reg.EVC_SUM h) F.EVC_SUM_PEAK = 0 then d.setF (Reg.EVC_SUM h) F.EVC_SUM_PEAK 0 else d) := by
      split
      · exact .setF ..
      · exact .refl _ _ d
    exact f_clearedAmong (b := true) q (.refl _ [] _) (by decide) (by decide) (by decide)

theorem evcStat_ne {h : Half} {c n : Nat} (hc : c ≠ n) : Reg.EVC_STAT h n ≠ Reg.EVC_STAT h c := by
  simp only [Reg.EVC_STAT]
  omega

theorem evcStat_ne_sum (h : Half) (n : Nat) : Reg.EVC_STAT h n ≠ Reg.EVC_SUM h := by
  simp only [Reg.EVC_STAT, Reg.EVC_SUM]
  omega

/-- The channels cleared one after the other leave the sums, every other register and what no register holds. -/
theorem stclrChans_frame (d : Dev) (h : Half) (v : Word) :
    let e := (stclrChans v).foldl (fun d c => d.clearStat h v c) d
    HiddenKept d e ∧ RegsKept d e ((List.range 256).map (Reg.EVC_STAT h)) ∧ RegAs (Reg.EVC_SUM h) d e := by
  refine (foldl_relates (P := fun _ => True)
    (A := fun d e => HiddenKept d e ∧ RegsKept d e ((List.range 256).map (Reg.EVC_STAT h)) ∧ RegAs (Reg.EVC_SUM h) d e)
    (fun d => ⟨hiddenKept_refl d, regsKept_refl d _, .refl _ d⟩)
    (fun q r => ⟨hiddenKept_trans q.1 r.1, regsKept_trans q.2.1 r.2.1, q.2.2.trans r.2.2⟩) _
    (fun d _ c hc => ⟨trivial, ?_⟩) trivial).2
  have q := (statCleared_clearStat d h v c).clears
  refine ⟨q.hidden, regsKept_mono q.regs fun a ha => ?_, q.as (evcStat_ne_sum h c).symm⟩
  rw [List.mem_singleton.1 ha]
  exact List.mem_map_of_mem (List.mem_range.2 (lt_of_mem_stclrChans hc))

/-- A channel that the write does not name keeps EVC_STAT. -/
theorem stclrChans_unnamed (d : Dev) (h : Half) {v : Word} {n : Nat} (hn : n ∉ stclrChans v) :
    RegAs (Reg.EVC_STAT h n) d ((stclrChans v).foldl (fun d c => d.clearStat h v c) d) :=
  (foldl_relates (P := fun _ => True) (RegAs.refl _) RegAs.trans _ (fun d _ c hc =>
    ⟨trivial, (statCleared_clearStat d h v c).clears.as (evcStat_ne fun e : c = n => hn (e ▸ hc))⟩) trivial).2

/-- A channel that the write names is cleared by its own step. -/
theorem stclrChans_named (d : Dev) (h : Half) {v : Word} {n : Nat} (hn : n ∈ stclrChans v) :
    ∃ e : Dev, RegAs (Reg.EVC_STAT h n) d e ∧
      RegAs (Reg.EVC_STAT h n) (e.clearStat h v n) ((stclrChans v).foldl (fun d c => d.clearStat h v c) d) := by
  obtain ⟨e, -, q⟩ := foldl_meets (P := fun _ => True) (d := d) (RegAs.refl (Reg.EVC_STAT h n)) RegAs.trans
    (nodup_stclrChans v) hn (fun _ _ _ _ => trivial)
    (fun d _ c _ hc => (statCleared_clearStat d h v c).clears.as (evcStat_ne hc)) trivial
  exact ⟨e, q⟩

/-- What a write of EVC_STCLR leaves of a channel's EVC_STAT: cleared where it names the channel. -/
theorem stclr_stat (d : Dev) (h : Half) (v : Word) (n : Nat) :
    let a := Reg.EVC_STAT h n
    let cleared := decide (n ∈ stclrChans v)
    (∀ p ∈ stclrPairs, (d.stclr h v).bit a p.2 =
      if cleared && getB v p.1 then getB (d.hwSet a) p.2 else d.bit a p.2) ∧
    (d.stclr h v).f a F.EVC_STAT_DROPS = d.f a F.EVC_STAT_DROPS -
      (if cleared && getB v F.EVC_STCLR_DROP then getF (d.oldRd a) F.EVC_STAT_DROPS else 0) ∧
    (d.stclr h v).f a F.EVC_STAT_OCC = d.f a F.EVC_STAT_OCC := by
  intro a cleared
  have hs := (Clears.sumClear ((stclrChans v).foldl (fun d c => d.clearStat h v c) d) h v).as (evcStat_ne_sum h n)
  rw [← stclr_eq] at hs
  by_cases hn : n ∈ stclrChans v
  · obtain ⟨e, q, r⟩ := stclrChans_named d h hn
    obtain ⟨hc, hf, hd⟩ := statCleared_clearStat e h v n
    have hrd : (d.stclr h v).rd a = (e.clearStat h v n).rd a := hs.rd.trans r.rd
    have hcl : cleared = true := decide_eq_true hn
    have ho := hc.field (y := F.EVC_STAT_OCC) (by decide) (by decide)
    simp only [bit, f, q.rd, q.hwSet, q.old] at hf hd ho
    simp only [bit, f, a, hrd, hcl, Bool.true_and]
    exact ⟨hf, hd, ho⟩
  · have hrd : (d.stclr h v).rd a = d.rd a := hs.rd.trans (stclrChans_unnamed d h hn).rd
    have hcl : cleared = false := decide_eq_false hn
    simp [bit, f, hrd, hcl]

/-- What a write of EVC_STCLR leaves of DROPTOT. -/
theorem stclr_dropTot (d : Dev) (h : Half) (v : Word) : (d.stclr h v).f (Reg.EVC_SUM h) F.EVC_SUM_DROPTOT =
    d.f (Reg.EVC_SUM h) F.EVC_SUM_DROPTOT -
      if getB v F.EVC_STCLR_SUMCLR then getF (d.oldRd (Reg.EVC_SUM h)) F.EVC_SUM_DROPTOT else 0 := by
  have q := (stclrChans_frame d h v).2.2
  rw [stclr_eq, dropTot_sumClear, f, f, q.rd, q.old]

/-- What a write of EVC_STCLR leaves alone. -/
theorem stclr_frame (d : Dev) (h : Half) (v : Word) :
    RegsKept d (d.stclr h v) (Reg.EVC_SUM h :: (List.range 256).map (Reg.EVC_STAT h)) ∧ HiddenKept d (d.stclr h v) := by
  obtain ⟨hh, hr, -⟩ := stclrChans_frame d h v
  have q := Clears.sumClear ((stclrChans v).foldl (fun d c => d.clearStat h v c) d) h v
  rw [← stclr_eq] at q
  exact ⟨regsKept_trans (regsKept_mono hr fun a ha => List.mem_cons_of_mem _ ha)
    (regsKept_mono q.regs fun a ha => List.mem_singleton.1 ha ▸ List.mem_cons_self ..), hiddenKept_trans hh q.hidden⟩

end Dev

/-! ### The claim -/

/-- A write access that reaches its block does what its effect makes of the device with the answer given. -/
theorem does_onWrite {c : Instr} {s : State} {t : Tick} {a : Nat} {g : Dev → Dev} {Q : Dev → Prop}
    (hr : (s.devAt t).reach a true = true) (he : exec c s = .next { s with dev := (s.devAt t).onWrite a g })
    (hq : Q (g ((s.devAt t).okay 0))) : Does c s Q := ⟨_, he, by rwa [Dev.onWrite_reach g hr]⟩

/-- Settles O26: arming, disarming and clearing act on one channel at a time, so a named channel shows what its own step
makes of it and every other channel shows as before. -/
theorem armDisarmAndStatusClear : Obligations.ArmDisarmAndStatusClear := by
  intro s t m h g v n d st mine same keeps group hn
  have hmine : mine n ↔ n ∈ Dev.groupBits g.val v := Dev.mem_groupBits.symm
  refine ⟨fun hr => does_onWrite hr rfl ?arm, fun hr hnt => does_onWrite hr rfl ?disarm,
    fun hr => does_onWrite hr rfl ?stclr⟩
  case arm =>
    have hone : ∀ d : Dev, True → ∀ c, c < 256 → Dev.OneChannel h c d (d.arm h c) :=
      fun d _ c _ => Dev.oneChannel_arm d h c
    obtain ⟨hregs, hother⟩ := Dev.group_frame (d := d.okay 0) (v := v) g.isLt (fun _ _ _ _ => trivial) hone trivial
    refine ⟨fun hm he => ?_, fun hm => ?_, ?_, hregs, hother.trans (Dev.half_okay ..)⟩
    · obtain ⟨e, q, r⟩ := Dev.armGroup_named (d := d.okay 0) (h := h) g.isLt (hmine.1 hm)
      have hen : e.chEn h n = true := by
        rw [Dev.chEn, Dev.ctrl, q.ctrl]
        exact he
      refine ⟨?_, fun hx => ?_⟩
      · rw [Dev.bit, r.stat]
        exact Dev.armed_arm hen
      · rw [r.chan, Dev.chan_arm_inFlight (by rw [q.chan]; exact hx), q.chan]
        rfl
    · have q := Dev.armGroup_others (d := d.okay 0) (h := h) (n := n) (v := v) g.isLt
        (hm.imp_left fun x y => x (hmine.2 y))
      exact ⟨q.chan, q.stat, q.pred⟩
    · exact Dev.group_bits (d := d.okay 0) g.isLt (fun _ _ _ _ => trivial) hone trivial
        (fun d _ c _ => Dev.bitsKept_arm d h c) n
  case disarm =>
    have hstep : ∀ d : Dev, Claims.NoTakeBelow d h 256 → ∀ c, c < 256 → Claims.NoTakeBelow (d.disarm h c) h 256 :=
      fun d hd c hc => Dev.noTake_disarm hc hd
    have hone : ∀ d : Dev, Claims.NoTakeBelow d h 256 → ∀ c, c < 256 → Dev.OneChannel h c d (d.disarm h c) :=
      fun d hd c hc => Dev.oneChannel_disarm hc hd
    obtain ⟨hregs, hother⟩ := Dev.group_frame (d := d.okay 0) (v := v) g.isLt hstep hone hnt
    refine ⟨fun hm => ?_, fun hm => ?_, ?_, hregs, hother.trans (Dev.half_okay ..)⟩
    · obtain ⟨e, he, q, r⟩ := Dev.group_named (d := d.okay 0) g.isLt hstep hone hnt (hmine.1 hm)
      have hchan : e.chan h n = d.chan h n := q.chan
      refine ⟨?_, fun hx => ?_, fun hx => ?_⟩
      · rw [Dev.bit, r.stat]
        exact Dev.armed_disarm hn he
      · rw [r.chan, Dev.chan_disarm_inFlight hn he (by rw [hchan]; exact hx), hchan]
      · rw [r.chan, r.pred]
        refine Dev.disarm_abandons hn he ?_
        rw [hchan, hx]
        simp [Dev.InFlight]
    · have q := Dev.group_unnamed (d := d.okay 0) (n := n) g.isLt hstep hone hnt fun x => hm (hmine.2 x)
      exact ⟨q.chan, q.stat, q.pred⟩
    · exact Dev.group_bits (d := d.okay 0) g.isLt hstep hone hnt (fun d hd c hc => Dev.bitsKept_disarm hc hd) n
  case stclr =>
    intro ch cleared after
    have hcl : decide (n ∈ Dev.stclrChans v) = cleared := by
      rw [Bool.eq_iff_iff, decide_eq_true_iff]
      exact Dev.mem_stclrChans
    obtain ⟨hflags, hdrops, hocc⟩ := Dev.stclr_stat (d.okay 0) h v n
    obtain ⟨hregs, hhidden⟩ := Dev.stclr_frame (d.okay 0) h v
    rw [hcl] at hflags hdrops
    have hflag : ∀ x y, (x, y) ∈ Dev.stclrPairs → ((d.okay 0).stclr h v).bit (st n) y = after x y :=
      fun x y hp => hflags (x, y) hp
    exact ⟨hflag _ _ (by simp), hflag _ _ (by simp), hflag _ _ (by simp), hflag _ _ (by simp), hflag _ _ (by simp),
      hdrops, Dev.stclr_dropTot (d.okay 0) h v, hocc, hregs, hiddenKept_answer hhidden⟩

end Sys2Proof.Machine
end

section
/-! PROOFS. Needle detection and the result record of a bank's shot (R218 to R220). -/

namespace Sys2Proof.Machine

open Sys2Proof Sys2Proof.Claims

/-! ### One bank of a half -/

theorem oneBank_refl (d : Dev) (h : Half) (b : Nat) : OneBank d d h b := ⟨fun _ _ => rfl, rfl⟩

theorem oneBank_trans {d e k : Dev} {h : Half} {b : Nat} (q : OneBank d e h b) (r : OneBank e k h b) :
    OneBank d k h b := ⟨fun j hj => (r.1 j hj).trans (q.1 j hj), r.2.trans q.2⟩

theorem oneBank_setBank (d : Dev) (h : Half) (b : Nat) (x : Bank) : OneBank d (d.setBank h b x) h b :=
  ⟨fun _ hk => Dev.bank_setBank_other d h x hk, Dev.half_onHalf_other ..⟩

theorem oneBank_wr (d : Dev) (a : Nat) (v : Word) (h : Half) (b : Nat) : OneBank d (d.wr a v) h b :=
  ⟨fun k _ => Dev.bank_wr d a v h k, Dev.half_wr ..⟩

namespace Dev

theorem bank_onShot (d : Dev) (h : Half) (b : Nat) (g : Shot → Shot) :
    (d.onShot h b g).bank h b = { d.bank h b with shot := (d.bank h b).shot.map g } := by simp [onShot]

/-- The bank of a shot changed by a function. -/
theorem bank_onShot_of {d : Dev} {h : Half} {b : Nat} {s : Shot} (hs : (d.bank h b).shot = some s) (g : Shot → Shot) :
    (d.onShot h b g).bank h b = { d.bank h b with shot := some (g s) } := by rw [bank_onShot, hs, Option.map_some]

/-- A change of a bank's shot changes no other bank and no register. -/
theorem onShot_frame (d : Dev) (h : Half) (b : Nat) (g : Shot → Shot) (as : List Nat) :
    OneBank d (d.onShot h b g) h b ∧ RegsKept d (d.onShot h b g) as :=
  ⟨oneBank_setBank .., fun _ _ => rd_setBank ..⟩

/-! ### The knee of a search (R218) -/

/-- The slope of a sample has fallen below k/16 of the largest so far, that of earlier samples being `m`. -/
def fallsFrom (k : Nat) (m : Int) (sl : List Int) (i : Nat) : Bool :=
  let smax := (sl.take (i + 1)).foldl max m
  match sl[i]? with
  | some v => decide (0 < smax) && decide (16 * v < k * smax)
  | none => false

theorem slopeFalls_eq (k : Nat) (sl : List Int) (i : Nat) : slopeFalls k sl i = fallsFrom k 0 sl i := rfl

theorem fallsFrom_zero (k : Nat) (m s : Int) (sl : List Int) :
    fallsFrom k m (s :: sl) 0 = (decide (0 < max m s) && decide (16 * s < k * max m s)) := rfl

theorem fallsFrom_succ (k : Nat) (m s : Int) (sl : List Int) (i : Nat) :
    fallsFrom k m (s :: sl) (i + 1) = fallsFrom k (max m s) sl i := rfl

/-- The search finds the first sample whose slope has fallen, and none where no slope falls. -/
theorem kneeFrom_eq_some {k : Nat} {l p : List Int} {t n : Nat} {m : Int} : kneeFrom k t m l p = some n ↔
    ∃ j, n = t + j ∧ fallsFrom k m (List.zipWith (fun x y => x - y) l p) j = true ∧
      ∀ i, i < j → fallsFrom k m (List.zipWith (fun x y => x - y) l p) i = false := by
  induction l generalizing t m p with
  | nil => simp [kneeFrom, fallsFrom]
  | cons x l ih =>
    cases p with
    | nil => simp [kneeFrom, fallsFrom]
    | cons y p =>
      simp only [kneeFrom, List.zipWith_cons_cons]
      by_cases hf : fallsFrom k m ((x - y) :: List.zipWith (fun x y => x - y) l p) 0 = true
      · rw [if_pos (by simpa only [fallsFrom_zero, Bool.and_eq_true, decide_eq_true_eq] using hf), Option.some.injEq]
        constructor
        · rintro rfl
          exact ⟨0, rfl, hf, by simp⟩
        · rintro ⟨j, rfl, -, hj⟩
          cases j with
          | zero => rfl
          | succ j => rw [hj 0 (by omega)] at hf; cases hf
      · rw [if_neg (by simpa only [fallsFrom_zero, Bool.and_eq_true, decide_eq_true_eq] using hf), ih]
        constructor
        · rintro ⟨j, rfl, hj, hi⟩
          refine ⟨j + 1, by omega, hj, fun i hij => ?_⟩
          cases i with
          | zero => simpa using hf
          | succ i => exact hi i (by omega)
        · rintro ⟨j, rfl, hj, hi⟩
          cases j with
          | zero => exact absurd hj hf
          | succ j => exact ⟨j, by omega, hj, fun i hij => hi (i + 1) (by omega)⟩

/-- The model's search and the rule name the same sample. -/
theorem kneeOf_eq_some {k w : Nat} {xs : List Int} {n : Nat} : kneeOf k w xs = some n ↔ KneeAt k w xs n := by
  rw [kneeOf, kneeFrom_eq_some]
  constructor
  · rintro ⟨j, rfl, hj, hi⟩
    refine ⟨by omega, ?_, fun i hij => hi i (by omega)⟩
    rwa [Nat.add_sub_cancel_left]
  · rintro ⟨hw, hj, hi⟩
    exact ⟨n - w, by omega, hj, hi⟩

/-- A knee is one of the samples. -/
theorem lt_length_of_kneeAt {k w : Nat} {xs : List Int} {n : Nat} (hn : KneeAt k w xs n) : n < xs.length := by
  obtain ⟨hw, hf, -⟩ := hn
  refine Nat.lt_of_not_le fun hlt => ?_
  have hnone : (slopes w xs)[n - w]? = none := List.getElem?_eq_none (by simp [slopes]; omega)
  simp [slopeFalls, hnone] at hf

/-! ### The searches -/

/-- The begin of the opening window, and its end (R218). -/
def openFrom (s : Shot) : Nat := s.start + usTk (2 * getF s.pneedle F.DRV_PNEEDLE_OWS)
def openUpTo (s : Shot) : Nat := s.start + usTk (2 * getF s.pneedle F.DRV_PNEEDLE_OWE)

/-- Sample n of a search is the opening knee, and the shot takes one. -/
def OpensAt (d : Dev) (x : Bank) (s : Shot) (xs : List Nat) (n : Nat) : Prop :=
  ((x.phase ≠ .idle ∧ x.phase ≠ .decay) ∨ s.record = true) ∧ getB s.pcfg F.DRV_PCFG_NEEDLE_EN = true ∧
    s.bankOff = false ∧ s.knee = none ∧ openFrom s + 4 * (xs.length - 1) ≤ d.now ∧
    KneeAt (getF s.pneedle F.DRV_PNEEDLE_KO) (slopeWin s) (xs.map fun (v : Nat) => (v : Int)) n ∧
    openFrom s + 4 * n ≤ openUpTo s

section Search

variable {d : Dev} {h : Half} {b : Nat} {s : Shot} {xs : List Nat} (hs : (d.bank h b).shot = some s)
include hs

theorem openKnee_found {n : Nat} (ho : OpensAt d (d.bank h b) s xs n) :
    d.openKnee h b xs = d.onShot h b fun s' => { s' with knee := some (kneeTick s' (openFrom s) n) } := by
  obtain ⟨hrun, hen, hoff, hknee, hsam, hat', hup⟩ := ho
  unfold openKnee
  dsimp only
  rw [hs]
  dsimp only
  rw [kneeOf_eq_some.2 hat']
  dsimp only
  rw [if_pos]
  · rfl
  · simp only [openFrom, openUpTo] at hsam hup
    simp [shooting, sampled, hrun, hen, hoff, hknee, hsam, hup]

theorem openKnee_none (ho : ∀ n, n < xs.length → ¬OpensAt d (d.bank h b) s xs n) : d.openKnee h b xs = d := by
  unfold openKnee
  dsimp only
  rw [hs]
  dsimp only
  split
  · rfl
  · next n hn =>
    have hat' := kneeOf_eq_some.1 hn
    refine if_neg fun hc => ho n (by simpa using lt_length_of_kneeAt hat') ?_
    simp only [shooting, sampled, Bool.and_eq_true, Bool.or_eq_true, decide_eq_true_eq, Bool.not_eq_true',
      Option.isNone_iff_eq_none] at hc
    obtain ⟨⟨⟨⟨⟨hrun, hen⟩, hoff⟩, hknee⟩, hsam⟩, hup⟩ := hc
    exact ⟨hrun, hen, hoff, hknee, hsam, hat', hup⟩

/-- What a search makes of the shot, it makes of the bank, and of no other bank and no register. -/
theorem bank_search {g : Shot → Shot} {s' : Shot} (hg : g s = s') :
    ((d.onShot h b g).bank h b = { d.bank h b with shot := some s' } ∧ OneBank d (d.onShot h b g) h b) ∧
      RegsKept d (d.onShot h b g) [] := by
  rw [bank_onShot_of hs, hg]
  exact ⟨⟨rfl, (onShot_frame d h b g []).1⟩, (onShot_frame d h b g []).2⟩

end Search

/-! ### The record (R219, R220) -/

/-- A record that is not due is not written. -/
theorem writeRecord_notDue {d : Dev} {h : Half} {b : Nat}
    (hs : ∀ s, (d.bank h b).shot = some s → (s.record && s.searchDone) = false) : d.writeRecord h b = d := by
  unfold writeRecord
  split
  · rfl
  · next s e => simp [hs s e]

/-- The registers of a low-side's result record. -/
abbrev resRegs (h : Half) (n : Nat) : List Nat :=
  [Reg.DRV_RES_START h n, Reg.DRV_RES_END h n, Reg.DRV_RES_OPEN h n, Reg.DRV_RES_CLOSE h n, Reg.DRV_RES_TTP h n,
    Reg.DRV_RES_HYD h n, Reg.DRV_RES_FLAGS h n, Reg.DRV_RES_SEQ h n]

/-- The time to peak as the record shows it. -/
def ttpShown (s : Shot) : Nat := match s.ttp with | some k => min k 0xFFFF | none => 0xFFFF

/-- The device with the result record of a shot written, C apart. -/
def recorded (d : Dev) (h : Half) (b : Nat) (s : Shot) : Dev :=
  ((((((((d.wr (Reg.DRV_RES_START h s.ls) (lo32 s.start)).wr (Reg.DRV_RES_END h s.ls) (lo32 s.endT)).wr
    (Reg.DRV_RES_OPEN h s.ls) (lo32 (s.knee.getD 0))).wr (Reg.DRV_RES_CLOSE h s.ls) (lo32 (s.closeKnee.getD 0))).wr
    (Reg.DRV_RES_TTP h s.ls) (BitVec.ofNat 32 ((s.corr % 0x10000).toNat * 0x10000 + ttpShown s))).wr
    (Reg.DRV_RES_HYD h s.ls) (wordOfInt (hydTk s))).wr (Reg.DRV_RES_FLAGS h s.ls) (resFlags s)).wr
    (Reg.DRV_RES_SEQ h s.ls) (d.rd (Reg.DRV_RES_SEQ h s.ls) + 1)).onShot h b fun s => { s with record := false }

/-- The device with C of a shot updated (R220). -/
def corrected (d : Dev) (h : Half) (s : Shot) : Dev :=
  let a := Reg.DRV_HYDC h s.ls s.pos
  let r := newCorr s (getS (d.rd a) F.DRV_HYDC_CORR)
  let d1 := d.wr a (BitVec.ofNat 32 (r.1 % 0x10000).toNat)
  if r.2 then d1.flagH h (Reg.DRV_STAT h) F.DRV_STAT_CORR_SAT 0x44 else d1

theorem writeRecord_due {d : Dev} {h : Half} {b : Nat} {s : Shot} (hs : (d.bank h b).shot = some s)
    (hr : s.record = true) (hd : s.searchDone = true) : d.writeRecord h b =
      if updates s then (d.recorded h b s).corrected h s else d.recorded h b s := by
  have hseq : ((((d.wr (Reg.DRV_RES_START h s.ls) (lo32 s.start)).wr (Reg.DRV_RES_END h s.ls) (lo32 s.endT)).wr
      (Reg.DRV_RES_OPEN h s.ls) (lo32 (s.knee.getD 0))).wr (Reg.DRV_RES_CLOSE h s.ls) (lo32 (s.closeKnee.getD 0))).rd
      (Reg.DRV_RES_SEQ h s.ls) = d.rd (Reg.DRV_RES_SEQ h s.ls) := by
    simp [rd_wr, Reg.DRV_RES_SEQ, Reg.DRV_RES_START, Reg.DRV_RES_END, Reg.DRV_RES_OPEN, Reg.DRV_RES_CLOSE]
  have hseq' : ∀ v, (((((d.wr (Reg.DRV_RES_START h s.ls) (lo32 s.start)).wr (Reg.DRV_RES_END h s.ls) (lo32 s.endT)).wr
      (Reg.DRV_RES_OPEN h s.ls) (lo32 (s.knee.getD 0))).wr (Reg.DRV_RES_CLOSE h s.ls) (lo32 (s.closeKnee.getD 0))).wr
      (Reg.DRV_RES_TTP h s.ls) v).rd (Reg.DRV_RES_SEQ h s.ls) = d.rd (Reg.DRV_RES_SEQ h s.ls) := fun v => by
    rw [rd_wr_other _ _ (by simp [Reg.DRV_RES_SEQ, Reg.DRV_RES_TTP]), hseq]
  unfold writeRecord
  rw [hs]
  dsimp only
  rw [hr, hd, Bool.and_self, if_pos rfl, hseq']
  rfl

/-! #### The values of the record -/

theorem decide_bnat (b : Bool) : decide (bnat b = 1) = b := by cases b <;> rfl

theorem bnat_le_one (b : Bool) : bnat b ≤ 1 := by cases b <;> decide

/-- One bit of a word made of a number. -/
theorem getB_ofNat (n i : Nat) (b : Bool) (hi : i < 32) (h : n / 2 ^ i % 2 = bnat b) :
    getB (BitVec.ofNat 32 n) ⟨i, i⟩ = b := by
  rw [getB, BitVec.getLsbD_ofNat, Nat.testBit_eq_decide_div_mod_eq, h, decide_bnat]
  simp [hi]

/-- RES_FLAGS of a shot shows CUT, BANKOFF, DEGRADED and UPD. -/
theorem resFlags_bits (s : Shot) : getB (resFlags s) ⟨31, 31⟩ = s.cut ∧ getB (resFlags s) ⟨30, 30⟩ = s.bankOff ∧
    getB (resFlags s) ⟨29, 29⟩ = s.degraded ∧ getB (resFlags s) ⟨7, 7⟩ = updates s := by
  have hb := bnat_le_one
  unfold resFlags
  extract_lets needle
  have h1 := hb s.cut
  have h2 := hb s.bankOff
  have h3 := hb s.degraded
  have h4 := hb s.lateboost
  have h5 := hb s.deferred
  have h6 := hb s.refresh
  have h7 := hb (needle && s.knee.isNone)
  have h8 := hb (needle && s.closeKnee.isNone)
  have h9 := hb s.holdTmo
  have h10 := hb s.openLoad
  have h11 := hb s.ttpLong
  have h12 := hb s.ttpShort
  have h13 := hb s.oc
  have h14 := hb s.vdsLs
  have h15 := hb s.vdsHsv
  have h16 := hb s.vdsHsb
  have h17 := hb (updates s)
  refine ⟨getB_ofNat _ _ _ (by omega) ?_, getB_ofNat _ _ _ (by omega) ?_, getB_ofNat _ _ _ (by omega) ?_,
    getB_ofNat _ _ _ (by omega) ?_⟩ <;> omega

/-- The low half of RES_TTP is the time to peak. -/
theorem getF_ttp (c t : Nat) (ht : t ≤ 0xFFFF) : getF (BitVec.ofNat 32 (c * 0x10000 + t)) ⟨15, 0⟩ = t := by
  simp only [getF, BitVec.toNat_ofNat]
  omega

theorem ttpShown_le (s : Shot) : ttpShown s ≤ 0xFFFF := by
  unfold ttpShown
  split
  · exact Nat.min_le_right _ _
  · exact Nat.le_refl _

/-- An integer of 16 bits written as a correction reads back. -/
theorem getS_corr {i : Int} (hlo : -32768 ≤ i) (hhi : i < 32768) :
    getS (BitVec.ofNat 32 (i % 0x10000).toNat) F.DRV_HYDC_CORR = i := by
  simp only [getS, getF, F.DRV_HYDC_CORR, BitVec.toNat_ofNat]
  split <;> omega

/-- The corrected C lies within its limit, which has 16 bits (R220). -/
theorem newCorr_range (s : Shot) (c : Int) : -32768 ≤ (newCorr s c).1 ∧ (newCorr s c).1 < 32768 := by
  have hl : getF s.phyd F.DRV_PHYD_HYD_LIM < 256 := Nat.mod_lt _ (by decide)
  unfold newCorr
  extract_lets err c' lim
  have hlim : 0 ≤ lim ∧ lim ≤ 25500 := by omega
  split
  · constructor <;> dsimp only <;> omega
  · split <;> constructor <;> dsimp only <;> omega

/-! #### The registers of the record -/

/-- The registers of a record are apart from each other. -/
theorem rd_recorded (d : Dev) (h : Half) (b : Nat) (s : Shot) :
    let e := d.recorded h b s
    e.rd (Reg.DRV_RES_START h s.ls) = lo32 s.start ∧ e.rd (Reg.DRV_RES_END h s.ls) = lo32 s.endT ∧
    e.rd (Reg.DRV_RES_OPEN h s.ls) = lo32 (s.knee.getD 0) ∧
    e.rd (Reg.DRV_RES_CLOSE h s.ls) = lo32 (s.closeKnee.getD 0) ∧
    e.rd (Reg.DRV_RES_TTP h s.ls) = BitVec.ofNat 32 ((s.corr % 0x10000).toNat * 0x10000 + ttpShown s) ∧
    e.rd (Reg.DRV_RES_HYD h s.ls) = wordOfInt (hydTk s) ∧ e.rd (Reg.DRV_RES_FLAGS h s.ls) = resFlags s ∧
    e.rd (Reg.DRV_RES_SEQ h s.ls) = d.rd (Reg.DRV_RES_SEQ h s.ls) + 1 := by
  simp [recorded, onShot, rd_wr, Reg.DRV_RES_START, Reg.DRV_RES_END, Reg.DRV_RES_OPEN, Reg.DRV_RES_CLOSE,
    Reg.DRV_RES_TTP, Reg.DRV_RES_HYD, Reg.DRV_RES_FLAGS, Reg.DRV_RES_SEQ]

theorem regsKept_recorded (d : Dev) (h : Half) (b : Nat) (s : Shot) :
    RegsKept d (d.recorded h b s) (resRegs h s.ls) := by
  intro a ha
  simp only [List.mem_cons, List.not_mem_nil, or_false, not_or] at ha
  obtain ⟨h1, h2, h3, h4, h5, h6, h7, h8⟩ := ha
  simp [recorded, onShot, rd_wr, h1, h2, h3, h4, h5, h6, h7, h8]

theorem oneBank_recorded (d : Dev) (h : Half) (b : Nat) (s : Shot) : OneBank d (d.recorded h b s) h b :=
  oneBank_trans (oneBank_trans (oneBank_trans (oneBank_trans (oneBank_trans (oneBank_trans (oneBank_trans (oneBank_trans
    (oneBank_wr ..) (oneBank_wr ..)) (oneBank_wr ..)) (oneBank_wr ..)) (oneBank_wr ..)) (oneBank_wr ..))
    (oneBank_wr ..)) (oneBank_wr ..)) (onShot_frame (as := []) ..).1

theorem bank_recorded {d : Dev} {h : Half} {b : Nat} {s : Shot} (hs : (d.bank h b).shot = some s) :
    (d.recorded h b s).bank h b = { d.bank h b with shot := some { s with record := false } } := by
  rw [recorded, bank_onShot_of (s := s) (by simpa using hs)]
  simp

/-- An update of C changes its register and DRV_STAT alone. -/
theorem regsKept_corrected (d : Dev) (h : Half) (s : Shot) :
    RegsKept d (d.corrected h s) [Reg.DRV_HYDC h s.ls s.pos, Reg.DRV_STAT h] := by
  unfold corrected
  extract_lets a r d1
  have q : RegsKept d d1 [a, Reg.DRV_STAT h] := regsKept_wr d a _ (by simp)
  split
  · exact regsKept_trans q (regsKept_flag d1 _ _ _ (by simp))
  · exact q

/-- C after an update. -/
theorem rd_corrected (d : Dev) (h : Half) (s : Shot) :
    getS ((d.corrected h s).rd (Reg.DRV_HYDC h s.ls s.pos)) F.DRV_HYDC_CORR =
      (newCorr s (getS (d.rd (Reg.DRV_HYDC h s.ls s.pos)) F.DRV_HYDC_CORR)).1 := by
  have hne : Reg.DRV_HYDC h s.ls s.pos ≠ Reg.DRV_STAT h := by
    simp only [Reg.DRV_HYDC, Reg.DRV_STAT]
    omega
  unfold corrected
  extract_lets a r d1
  have hd1 : getS (d1.rd a) F.DRV_HYDC_CORR = r.1 := by
    rw [rd_wr_same]
    exact getS_corr (newCorr_range ..).1 (newCorr_range ..).2
  split
  · rw [flagH, rd_flag_other d1 _ _ hne, hd1]
  · exact hd1

theorem half_flag (d : Dev) (a : Nat) (x : Fld) (n : Nat) (h : Half) : (d.flag a x n).half h = d.half h := by
  unfold flag
  split
  · cases h <;> rfl
  · cases h <;> rfl

/-- An update of C changes nothing of the halves. -/
theorem half_corrected (d : Dev) (h g : Half) (s : Shot) : (d.corrected h s).half g = d.half g := by
  unfold corrected
  extract_lets a r d1
  split
  · exact (half_flag ..).trans (half_wr ..)
  · exact half_wr ..

/-- The correction's register is none of a record. -/
theorem hydc_not_mem_resRegs (h : Half) (n j : Nat) : Reg.DRV_HYDC h n j ∉ resRegs h n := by
  simp only [Reg.DRV_HYDC, resRegs, Reg.DRV_RES_START, Reg.DRV_RES_END, Reg.DRV_RES_OPEN, Reg.DRV_RES_CLOSE,
    Reg.DRV_RES_TTP, Reg.DRV_RES_HYD, Reg.DRV_RES_FLAGS, Reg.DRV_RES_SEQ, List.mem_cons, List.not_mem_nil, or_false]
  omega

/-- No register of a record is the correction's or DRV_STAT. -/
theorem resRegs_apart {h : Half} {n j a : Nat} (ha : a ∈ resRegs h n) :
    a ∉ [Reg.DRV_HYDC h n j, Reg.DRV_STAT h] := by
  simp only [Reg.DRV_HYDC, Reg.DRV_STAT, resRegs, Reg.DRV_RES_START, Reg.DRV_RES_END, Reg.DRV_RES_OPEN,
    Reg.DRV_RES_CLOSE, Reg.DRV_RES_TTP, Reg.DRV_RES_HYD, Reg.DRV_RES_FLAGS, Reg.DRV_RES_SEQ, List.mem_cons,
    List.not_mem_nil, or_false] at ha ⊢
  omega

/-- The record of a shot, written with its update of C (R219, R220). -/
theorem writeRecord_record {d : Dev} {h : Half} {b : Nat} {s : Shot} (hs : (d.bank h b).shot = some s)
    (hr : s.record = true) (hd : s.searchDone = true) :
    let e := d.writeRecord h b
    let a := Reg.DRV_HYDC h s.ls s.pos
    e.bank h b = { d.bank h b with shot := some { s with record := false } } ∧ OneBank d e h b ∧
    (∀ r ∈ resRegs h s.ls, e.rd r = (d.recorded h b s).rd r) ∧
    (updates s = true → getS (e.rd a) F.DRV_HYDC_CORR = (newCorr s (getS (d.rd a) F.DRV_HYDC_CORR)).1) ∧
    (updates s = false → e.rd a = d.rd a) ∧ RegsKept d e (resRegs h s.ls ++ [a, Reg.DRV_STAT h]) := by
  intro e a
  have he : e = if updates s then (d.recorded h b s).corrected h s else d.recorded h b s := writeRecord_due hs hr hd
  have ha : (d.recorded h b s).rd a = d.rd a := regsKept_recorded d h b s a (hydc_not_mem_resRegs h s.ls s.pos)
  have hrec : RegsKept d (d.recorded h b s) (resRegs h s.ls ++ [a, Reg.DRV_STAT h]) :=
    regsKept_mono (regsKept_recorded d h b s) fun _ => List.mem_append_left _
  cases hu : updates s with
  | false =>
    rw [hu] at he
    rw [show e = d.recorded h b s from he]
    exact ⟨bank_recorded hs, oneBank_recorded .., fun _ _ => rfl, nofun, fun _ => ha, hrec⟩
  | true =>
    rw [hu] at he
    rw [show e = (d.recorded h b s).corrected h s from he]
    have hhalf : ∀ g, ((d.recorded h b s).corrected h s).half g = (d.recorded h b s).half g :=
      fun g => half_corrected _ h g s
    have hbank : ∀ k, ((d.recorded h b s).corrected h s).bank h k = (d.recorded h b s).bank h k := fun k => by
      rw [bank, hhalf, bank]
    have hc := regsKept_corrected (d.recorded h b s) h s
    refine ⟨(hbank b).trans (bank_recorded hs), ⟨fun k hk => (hbank k).trans ((oneBank_recorded d h b s).1 k hk),
      (hhalf _).trans (oneBank_recorded d h b s).2⟩, fun r hr' => hc r (resRegs_apart hr'), fun _ => ?_,
      nofun, ?_⟩
    · rw [rd_corrected, ha]
    · exact regsKept_trans hrec (regsKept_mono hc fun _ => List.mem_append_right _)

end Dev

/-! ### The claim -/

/-- Needle detection and the result record: each search acts on the shot of its bank alone. -/
theorem needleAndRecord : NeedleAndRecordRule := by
  intro s t h b sh xs d x runs w from' upTo current drain taken opens limit only n a res hsh
  have hopens : ∀ k, opens k ↔ Dev.OpensAt d x sh xs k := fun _ => Iff.rfl
  refine ⟨fun k hk => ⟨d.openKnee h b.val xs, rfl, ?_⟩, fun hk => ⟨d.openKnee h b.val xs, rfl, ?_⟩,
    fun hrec hdone => ⟨fun harm => ⟨d.closeArm h b.val, rfl, ?_⟩,
      fun t0 k harm htaken hknee hlim => ⟨d.closeKnee h b.val xs, rfl, ?_⟩,
      fun hlim => ⟨d.closeTimeout h b.val, rfl, ?_⟩, fun hlim => ⟨d.closeTimeout h b.val, rfl, ?_⟩,
      ⟨d.writeRecord h b.val, rfl, ?_⟩⟩,
    fun hrec hdone _ _ => ⟨d.writeRecord h b.val, rfl, ?_⟩⟩
  · rw [Dev.openKnee_found hsh ((hopens k).1 hk)]
    exact Dev.bank_search hsh rfl
  · exact Dev.openKnee_none hsh fun k hlt ho => hk k hlt ((hopens k).2 ho)
  · exact Dev.bank_search hsh (if_pos (by simp [hrec, hdone, harm]))
  · refine Dev.bank_search hsh ?_
    have hfound : Dev.kneeOf (getF sh.phyd F.DRV_PHYD_KC) (Dev.slopeWin sh) (xs.map fun (v : Nat) => -(v : Int)) =
        some k := Dev.kneeOf_eq_some.2 hknee
    have hlim' : t0 + 4 * k ≤ Dev.closeLimit sh := hlim
    have hsam : Dev.sampled d.now t0 xs = true := decide_eq_true htaken
    rw [harm, hfound]
    exact if_pos (by simp [hrec, hdone, hsam, hlim'])
  · have hlim' : Dev.closeLimit sh ≤ d.now := hlim
    exact Dev.bank_search hsh (if_pos (by simp [hrec, hdone, hlim']))
  · have hlim' : d.now < Dev.closeLimit sh := hlim
    exact Dev.bank_search hsh (if_neg (by simp [hlim']))
  · refine Dev.writeRecord_notDue fun s' hs' => ?_
    cases hsh.symm.trans hs'
    simp [hdone]
  · obtain ⟨hbank, hone, hres, hupd, hkept, hregs⟩ := Dev.writeRecord_record hsh hrec hdone
    obtain ⟨hstart, hend, hopen, hclose, http, hhyd, hflags, hseq⟩ := Dev.rd_recorded d h b.val sh
    obtain ⟨hcut, hoff, hdeg, hupdf⟩ := Dev.resFlags_bits sh
    have hshow : ∀ {r : Nat} {v : Word}, r ∈ res → (d.recorded h b.val sh).rd r = v → (d.writeRecord h b.val).rd r = v :=
      fun hr' hv => (hres _ hr').trans hv
    have hflag : (d.writeRecord h b.val).rd (Reg.DRV_RES_FLAGS h n) = Dev.resFlags sh := hshow (by simp [res]) hflags
    have http : (d.writeRecord h b.val).rd (Reg.DRV_RES_TTP h n) = _ := hshow (by simp [res]) http
    have hhyd : (d.writeRecord h b.val).rd (Reg.DRV_RES_HYD h n) = _ := hshow (by simp [res]) hhyd
    refine ⟨⟨hbank, hone⟩, hshow (by simp [res]) hstart, hshow (by simp [res]) hend, hshow (by simp [res]) hopen,
      hshow (by simp [res]) hclose, ?_, hshow (by simp [res]) hseq, ?_, ?_, ?_, ?_, fun o c ho hc => ?_, hupd, hkept,
      hregs⟩
    · rw [Dev.f, http, Dev.getF_ttp _ _ (Dev.ttpShown_le sh)]
      rfl
    · rw [Dev.bit, hflag, hcut]
    · rw [Dev.bit, hflag, hoff]
    · rw [Dev.bit, hflag, hdeg]
    · rw [Dev.bit, hflag, hupdf]
    · rw [hhyd]
      simp [Dev.hydTk, Dev.knees, ho, hc]

end Sys2Proof.Machine
end

section
/-! PROOFS. The start of a shot at its balls, the end of its fast decay and the software clears of the banks (R202, R206,
R214, R216, R221). -/

namespace Sys2Proof.Machine

open Sys2Proof Sys2Proof.Claims

namespace Dev

/-! ### What leaves channels and banks of a half alone -/

/-- Between two devices, at one tick, every channel and bank of a half is as before, and every register but those
listed. -/
structure ShowsAs (h : Half) (as : List Nat) (d e : Dev) : Prop where
  chans : ∀ k, e.chan h k = d.chan h k
  banks : ∀ k, e.bank h k = d.bank h k
  regs : RegsKept d e as
  time : e.timeBase = d.timeBase

namespace ShowsAs

variable {h : Half} {as : List Nat} {d e k : Dev}

theorem refl (h : Half) (as : List Nat) (d : Dev) : ShowsAs h as d d :=
  ⟨fun _ => rfl, fun _ => rfl, regsKept_refl d as, rfl⟩

theorem trans (q : ShowsAs h as d e) (r : ShowsAs h as e k) : ShowsAs h as d k :=
  ⟨fun j => (r.chans j).trans (q.chans j), fun j => (r.banks j).trans (q.banks j), regsKept_trans q.regs r.regs,
    r.time.trans q.time⟩

theorem now (q : ShowsAs h as d e) : e.now = d.now := congrArg BitVec.toNat q.time

theorem onHalf (d : Dev) (as : List Nat) {g : HalfSt → HalfSt} (hc : (g (d.half h)).chans = (d.half h).chans)
    (hb : (g (d.half h)).banks = (d.half h).banks) : ShowsAs h as d (d.onHalf h g) := by
  refine ⟨fun k => ?_, fun k => ?_, fun a _ => rd_onHalf d h g a, timeBase_onHalf d h g⟩
  · rw [chan, half_onHalf_same, hc, chan]
  · rw [bank, half_onHalf_same, hb, bank]

theorem onGander (d : Dev) (as : List Nat) (g : Gander → Gander) : ShowsAs h as d (d.onGander h g) :=
  onHalf d as rfl rfl

theorem wr (d : Dev) {a : Nat} (v : Word) (ha : a ∈ as) : ShowsAs h as d (d.wr a v) :=
  ⟨chan_wr d a v h, bank_wr d a v h, regsKept_wr d a v ha, rfl⟩

theorem flag (d : Dev) {a : Nat} (x : Fld) (n : Nat) (ha : a ∈ as) : ShowsAs h as d (d.flag a x n) :=
  ⟨fun k => by rw [chan, half_flag, chan], fun k => by rw [bank, half_flag, bank], regsKept_flag d a x n ha, by
    unfold Dev.flag
    split <;> rfl⟩

end ShowsAs

/-- The permits that open now change the Gander and its count alone (R24, R366). -/
theorem showsAs_opensNow (d : Dev) (h : Half) (o : Output) : ShowsAs h [Reg.GDR_CNT h] d (d.opensNow h o) := by
  refine (foldl_relates (P := fun _ => True) (ShowsAs.refl h _) ShowsAs.trans _ (fun d _ c _ => ⟨trivial, ?_⟩)
    trivial).2
  split
  · split
    · exact (ShowsAs.onGander ..).trans (ShowsAs.wr _ _ (by simp))
    · exact .refl ..
  · exact .refl ..

theorem showsAs_promote (d : Dev) (h : Half) (u : Nat) (as : List Nat) : ShowsAs h as d (d.promote h u) := by
  unfold promote
  extract_lets d1
  have q : ShowsAs h as d d1 := .onGander ..
  split
  · split
    · exact q.trans (.onGander ..)
    · exact q
  · exact q

theorem showsAs_closePermit (d : Dev) (h : Half) (c : Nat) (as : List Nat) : ShowsAs h as d (d.closePermit h c) := by
  unfold closePermit
  extract_lets d1
  have q : ShowsAs h as d d1 := .onGander ..
  split
  · exact q.trans (showsAs_promote ..)
  · exact q

theorem showsAs_lowBoost (d : Dev) (h : Half) : ShowsAs h [Reg.DRV_STAT h] d (d.lowBoost h) :=
  (ShowsAs.flag _ _ _ (by simp)).trans (ShowsAs.wr _ _ (by simp))

/-- With no record to be written a start edge ends no search (R218, R222). -/
theorem showsAs_searchCut {d : Dev} {h : Half} {b : Nat} (hr : ∀ s, (d.bank h b).shot = some s → s.record = false) :
    ShowsAs h [] d (d.searchCut h b) := by
  let g : Shot → Shot := fun s => if s.record then { s with searchDone := true } else s
  have hbank : (d.onShot h b g).bank h b = d.bank h b := by
    rw [bank_onShot]
    cases hs : (d.bank h b).shot with
    | none => rw [Option.map_none, ← hs]
    | some s => rw [Option.map_some, show g s = s from if_neg (by simp [hr s hs]), ← hs]
  rw [searchCut, writeRecord_notDue fun s hs => by rw [hr s (by rwa [← hbank]), Bool.false_and]]
  refine ⟨fun k => ?_, fun k => ?_, (onShot_frame d h b g []).2, timeBase_onHalf ..⟩
  · rw [onShot, setBank, chan, half_onHalf_same, chan]
  · by_cases hk : k = b
    · rw [hk, hbank]
    · exact (onShot_frame d h b g []).1.1 k hk

/-! ### Gates and status of a bank -/

/-- A gate set has its level at once. -/
theorem gateOn_setGate (g : Gate) (t : Nat) (on : Bool) : gateOn (setGate g t on) t = on := by
  unfold setGate
  dsimp only
  split
  · next hg => rw [gateOn, if_neg (by omega), hg.1]
  · split
    · next hon => simp [gateOn, hon]
    · next hon => simp [gateOn, hon]

theorem gates_gates (x : Bank) (t : Nat) (hsb hsv inj : Bool) : Gates (gates x t hsb hsv inj) t hsb hsv inj :=
  ⟨gateOn_setGate .., gateOn_setGate .., gateOn_setGate ..⟩

theorem gates_gatesOff (x : Bank) (t : Nat) : Gates (Bank.gatesOff x t) t false false false :=
  ⟨gateOn_setGate .., gateOn_setGate .., gateOn_setGate ..⟩

@[simp] theorem bank_bankStat (d : Dev) (h : Half) (b k : Nat) : (d.bankStat h b).bank h k = d.bank h k := by
  simp [bankStat, setF, setB]

@[simp] theorem chan_bankStat (d : Dev) (h : Half) (b k : Nat) : (d.bankStat h b).chan h k = d.chan h k := by
  simp [bankStat]

theorem regsKept_bankStat (d : Dev) (h : Half) (b : Nat) : RegsKept d (d.bankStat h b) [Reg.DRV_BANKSTAT h b] :=
  regsKept_trans (regsKept_setB _ _ _ _ (by simp)) (regsKept_setF _ _ _ _ (by simp))

theorem oneBank_bankStat (d : Dev) (h : Half) (b : Nat) : OneBank d (d.bankStat h b) h b :=
  oneBank_trans (oneBank_wr ..) (oneBank_wr ..)

/-- ACTIVE says whether a shot runs. -/
theorem active_bankStat (d : Dev) (h : Half) (b : Nat) :
    (d.bankStat h b).bit (Reg.DRV_BANKSTAT h b) F.DRV_BANKSTAT_ACTIVE = shooting (d.bank h b) := by
  unfold bankStat
  extract_lets x act
  rw [bit_setF_apart _ _ _ _ _ (by decide) (by decide)]
  exact bit_setB_same _ _ _ _ (by decide) (by decide)

/-- ACT_LS names the low-side of a shot that runs. -/
theorem actLs_bankStat {d : Dev} {h : Half} {b : Nat} {s : Shot} (hs : (d.bank h b).shot = some s)
    (hx : shooting (d.bank h b) = true) :
    (d.bankStat h b).f (Reg.DRV_BANKSTAT h b) F.DRV_BANKSTAT_ACT_LS = s.ls % 2 := by
  unfold bankStat
  extract_lets x act ls
  have hact : act = true := hx
  have hls : ls = s.ls % 2 := by simp only [ls, x, hs]
  rw [f_setF_same _ _ _ _ (by decide), hact, if_pos rfl, hls]
  exact Nat.mod_mod _ _

/-! ### The start edge (R202, R206, R214) -/

/-- A bank as a start edge leaves it: the phase and the shot, and where the bank is live the gates. -/
def startedBank (x : Bank) (ph : ShotPhase) (s : Shot) (now : Nat) (live hsb : Bool) : Bank :=
  let off := Bank.gatesOff { x with phase := ph, shot := some s, decaying := false } now
  if live then gates off now hsb (!hsb) true else off

theorem startedBank_phase (x : Bank) (ph : ShotPhase) (s : Shot) (now : Nat) (live hsb : Bool) :
    (startedBank x ph s now live hsb).phase = ph := by cases live <;> rfl

theorem startedBank_shot (x : Bank) (ph : ShotPhase) (s : Shot) (now : Nat) (live hsb : Bool) :
    (startedBank x ph s now live hsb).shot = some s := by cases live <;> rfl

theorem startedBank_gates (x : Bank) (ph : ShotPhase) (s : Shot) (now : Nat) (live hsb : Bool) :
    Gates (startedBank x ph s now live hsb) now (live && hsb) (live && !hsb) live := by
  cases live
  · exact gates_gatesOff ..
  · exact gates_gates ..

/-- The profile of a shot asks for boost. -/
def asksBoost (d : Dev) (h : Half) (v : Vals) : Bool := getB (d.rd (Reg.DRV_PCFG h v.profile)) F.DRV_PCFG_BOOST_EN

/-- A shot is degraded at its slot take, or by the boost voltage at its start edge (R214). -/
def startsWeak (d : Dev) (h : Half) (c : Nat) (v : Vals) : Bool :=
  (d.chan h c).degrade || (d.asksBoost h v && d.bit (Reg.BST_STAT h) F.BST_STAT_BELOW_START)

/-- The settings of a shot as they stand at its start edge. -/
structure StartSettings (d : Dev) (h : Half) (c : Nat) (v : Vals) (s : Shot) : Prop where
  chan : s.chan = c
  ls : s.ls = v.target
  start : s.start = d.now
  pcfg : s.pcfg = d.rd (Reg.DRV_PCFG h v.profile)
  pboost : s.pboost = d.rd (Reg.DRV_PBOOST h v.profile)
  ppeak : s.ppeak = d.rd (Reg.DRV_PPEAK h v.profile)
  phold : s.phold = d.rd (Reg.DRV_PHOLD h v.profile)
  degraded : s.degraded = d.startsWeak h c v
  bankOff : s.bankOff = !d.bankLive h v.target
  corr : s.corr = (d.chan h c).corr
  minChop : s.minChop = 4 * d.f (Reg.DRV_BANKCFG h (v.target / 2)) F.DRV_BANKCFG_MINCHOP

/-- What the start edge of a channel's shot leaves: the phase, the gates, every setting taken now, and the status. -/
structure ShotStarted (d e : Dev) (h : Half) (c : Nat) (v : Vals) : Prop where
  phase : (e.bank h (v.target / 2)).phase = if d.asksBoost h v then .boost else .peak
  gates : Gates (e.bank h (v.target / 2)) d.now (d.bankLive h v.target && (d.asksBoost h v && !d.startsWeak h c v))
    (d.bankLive h v.target && !(d.asksBoost h v && !d.startsWeak h c v)) (d.bankLive h v.target)
  shot : ∃ s : Shot, (e.bank h (v.target / 2)).shot = some s ∧ StartSettings d h c v s
  active : e.bit (Reg.DRV_BANKSTAT h (v.target / 2)) F.DRV_BANKSTAT_ACTIVE = true
  actLs : e.f (Reg.DRV_BANKSTAT h (v.target / 2)) F.DRV_BANKSTAT_ACT_LS = v.target % 2

/-- A start shows on any device where banks and registers are as on the one it leaves. -/
theorem ShotStarted.shown {d e k : Dev} {h : Half} {c : Nat} {v : Vals} (r : ShotStarted d e h c v)
    (q : ShowsAs h [] e k) : ShotStarted d k h c v := by
  obtain ⟨hphase, hgates, hshot, hactive, hls⟩ := r
  have hregs := q.regs (Reg.DRV_BANKSTAT h (v.target / 2)) (by simp)
  refine ⟨?_, ?_, ?_, ?_, ?_⟩
  · rwa [q.banks]
  · rwa [q.banks]
  · rwa [q.banks]
  · rwa [bit, hregs]
  · rwa [f, hregs]

/-- A bank set to a shot that starts, and its status: what is left where the channels show as before. -/
theorem shotStarted_of {d d1 : Dev} {h : Half} {c : Nat} {v : Vals} {s : Shot} {x y : Bank}
    (hs : StartSettings d h c v s) (hc : ∀ k, d1.chan h k = d.chan h k)
    (hy : startedBank x (if d.asksBoost h v then .boost else .peak) s d.now (d.bankLive h v.target)
      (d.asksBoost h v && !d.startsWeak h c v) = y) :
    let e := (d1.setBank h (v.target / 2) y).bankStat h (v.target / 2)
    ShotStarted d e h c v ∧ ∀ k, e.chan h k = d.chan h k := by
  have hphase : y.phase = if d.asksBoost h v then .boost else .peak := by rw [← hy, startedBank_phase]
  have hshot : y.shot = some s := by rw [← hy, startedBank_shot]
  have hbank : (d1.setBank h (v.target / 2) y).bank h (v.target / 2) = y := bank_setBank_same ..
  have hrun : shooting y = true := by
    rw [shooting, hphase]
    cases d.asksBoost h v <;> rfl
  refine ⟨⟨?_, ?_, ⟨s, ?_, hs⟩, ?_, ?_⟩, fun k => ?_⟩
  · rw [bank_bankStat, hbank, hphase]
  · rw [bank_bankStat, hbank, ← hy]
    exact startedBank_gates ..
  · rw [bank_bankStat, hbank, hshot]
  · rw [active_bankStat, hbank, hrun]
  · rw [actLs_bankStat (s := s) (by rw [hbank, hshot]) (by rw [hbank, hrun]), hs.ls]
  · rw [chan_bankStat, setBank, chan, half_onHalf_same, ← hc k, chan]

/-- The start edge of a channel's shot, where no record of its bank waits. -/
theorem shotStarted_startShot {d : Dev} {h : Half} {c : Nat} {v : Vals}
    (hr : ∀ s, (d.bank h (v.target / 2)).shot = some s → s.record = false) :
    ShotStarted d (d.startShot h c v) h c v ∧ ∀ k, (d.startShot h c v).chan h k = d.chan h k := by
  have q0 := showsAs_searchCut hr
  have hrd : ∀ a, (d.searchCut h (v.target / 2)).rd a = d.rd a := fun a => q0.regs a (by simp)
  have hboost : (d.searchCut h (v.target / 2)).asksBoost h v = d.asksBoost h v := by rw [asksBoost, hrd, asksBoost]
  have hlive : (d.searchCut h (v.target / 2)).bankLive h v.target = d.bankLive h v.target := by
    simp only [bankLive, bit, hrd]
  unfold startShot
  extract_lets n b p d0 x cfg boost late live dem s d1
  have q1 : ShowsAs h [Reg.DRV_STAT h] d0 d1 := by
    simp only [d1]
    split
    · exact showsAs_lowBoost ..
    · exact .refl ..
  have hweak : s.degraded = d.startsWeak h c v := by
    have hx : x.degrade = (d.chan h c).degrade := by rw [← q0.chans]
    have hlate : late = (d.asksBoost h v && !(d.chan h c).degrade &&
        d.bit (Reg.BST_STAT h) F.BST_STAT_BELOW_START) := by
      rw [← hx, ← hboost, bit, ← hrd]
      rfl
    show (x.degrade || late) = _
    rw [hlate, hx, startsWeak]
    cases (d.chan h c).degrade <;> cases d.asksBoost h v <;> rfl
  have hs : StartSettings d h c v s := ⟨rfl, rfl, q0.now, hrd _, hrd _, hrd _, hrd _, hweak, congrArg not hlive,
    congrArg Chan.corr (q0.chans c), by rw [f, ← hrd]; rfl⟩
  have hshape := shotStarted_of hs (fun k => (q1.chans k).trans (q0.chans k)) (x := d1.bank h b) rfl
  rw [← hboost, ← hlive, ← hweak, ← q0.now, ← q1.now] at hshape
  exact hshape

/-! ### The start edge at the voter (R24, R366) -/

/-- A launched start whose tick has come goes to the voter. -/
theorem edgeAtVoter_start {d : Dev} {h : Half} {c : Nat} {o : Output} (hocc : (d.chan h c).occ = .launched)
    (ho : outputOf (d.valsNow h c).action (d.valsNow h c).target = some o) (hp : (d.chan h c).passed = false)
    (hs : (d.chan h c).start ≤ d.now) : d.edgeAtVoter h c = d.voteStart h c (d.valsNow h c) o := by
  unfold edgeAtVoter
  dsimp only
  rw [hocc, ho]
  dsimp only
  rw [hp, Bool.not_false, if_pos rfl, if_pos hs]

/-- The device as a passed start edge finds it: the permits up to date, the one taken closed, the channel passed. -/
def passedBy (d : Dev) (h : Half) (c : Nat) (o : Output) (p : Permit) : Dev :=
  let e := (d.opensNow h o).closePermit h p.chan
  e.setChan h c { e.chan h c with passed := true }

/-- A start of an injector that a permit passes begins its shot, and the voter counts it. -/
theorem voteStart_shot {d : Dev} {h : Half} {c : Nat} {v : Vals} {p : Permit} (ha : v.action = 6)
    (hp : (d.opensNow h (.ls v.target)).permitFor h (.ls v.target) = some p) (as : List Nat) :
    ShowsAs h as ((d.passedBy h c (.ls v.target) p).startShot h c v) (d.voteStart h c v (.ls v.target)) := by
  unfold voteStart
  dsimp only
  rw [hp]
  dsimp only
  rw [if_pos (by simp [hasEnd, ha])]
  exact ShowsAs.onHalf _ as rfl rfl

theorem showsAs_passing (d : Dev) (h : Half) (o : Output) (p : Permit) :
    ShowsAs h [Reg.GDR_CNT h] d ((d.opensNow h o).closePermit h p.chan) :=
  (showsAs_opensNow d h o).trans (showsAs_closePermit ..)

section Passed

variable (d : Dev) (h : Half) (c : Nat) (o : Output) (p : Permit)

theorem chan_passedBy : (d.passedBy h c o p).chan h c = { d.chan h c with passed := true } := by
  rw [passedBy, chan_setChan_same, (showsAs_passing d h o p).chans]

theorem bank_passedBy (k : Nat) : (d.passedBy h c o p).bank h k = d.bank h k := by
  rw [passedBy, setChan, bank, half_onHalf_same, ← (showsAs_passing d h o p).banks k, bank]

theorem rd_passedBy {a : Nat} (ha : a ≠ Reg.GDR_CNT h) : (d.passedBy h c o p).rd a = d.rd a := by
  rw [passedBy, rd_setChan]
  exact (showsAs_passing d h o p).regs a (by simpa using ha)

theorem now_passedBy : (d.passedBy h c o p).now = d.now := by
  rw [passedBy, setChan, now, timeBase_onHalf, (showsAs_passing d h o p).time, now]

end Passed

/-- A start on the device as the voter leaves it is one on the device before: the voter's count is no setting. -/
theorem ShotStarted.of_passedBy {d e : Dev} {h : Half} {c : Nat} {v : Vals} {o : Output} {p : Permit}
    (r : ShotStarted (d.passedBy h c o p) e h c v) : ShotStarted d e h c v := by
  have hrd : ∀ r ∈ [Reg.DRV_PCFG h v.profile, Reg.DRV_PBOOST h v.profile, Reg.DRV_PPEAK h v.profile,
      Reg.DRV_PHOLD h v.profile, Reg.BST_STAT h, Reg.DRV_BANKSTAT h (v.target / 2), Reg.DRV_BANKCFG h (v.target / 2)],
      (d.passedBy h c o p).rd r = d.rd r := by
    intro r hr
    refine rd_passedBy d h c o p ?_
    simp only [Reg.DRV_PCFG, Reg.DRV_PBOOST, Reg.DRV_PPEAK, Reg.DRV_PHOLD, Reg.BST_STAT, Reg.DRV_BANKSTAT,
      Reg.DRV_BANKCFG, List.mem_cons, List.not_mem_nil, or_false] at hr
    simp only [Reg.GDR_CNT]
    omega
  simp only [List.forall_mem_cons, List.not_mem_nil, false_imp_iff, implies_true, and_true] at hrd
  obtain ⟨hcfg, hpb, hpp, hph, hbst, hstat, hbcfg⟩ := hrd
  have hboost : (d.passedBy h c o p).asksBoost h v = d.asksBoost h v := by rw [asksBoost, hcfg, asksBoost]
  have hlive : (d.passedBy h c o p).bankLive h v.target = d.bankLive h v.target := by
    simp only [bankLive, bit, hstat, hbcfg]
  have hweak : (d.passedBy h c o p).startsWeak h c v = d.startsWeak h c v := by
    simp only [startsWeak, hboost, bit, hbst, chan_passedBy]
  obtain ⟨hphase, hgates, ⟨s, hshot, q⟩, hactive, hls⟩ := r
  rw [hboost] at hphase
  rw [hboost, hlive, hweak, now_passedBy] at hgates
  refine ⟨hphase, hgates, ⟨s, hshot, q.chan, q.ls, q.start.trans (now_passedBy ..), q.pcfg.trans hcfg,
    q.pboost.trans hpb, q.ppeak.trans hpp, q.phold.trans hph, q.degraded.trans hweak, ?_, ?_, ?_⟩, hactive, hls⟩
  · rw [q.bankOff, hlive]
  · rw [q.corr, chan_passedBy]
  · rw [q.minChop, f, hbcfg, f]

/-- A passed start edge of an injector starts its shot, and its channel has passed. -/
theorem edgeAtVoter_shot {d : Dev} {h : Half} {c : Nat} {p : Permit} (hocc : (d.chan h c).occ = .launched)
    (ha : (d.valsNow h c).action = 6) (hpass : (d.chan h c).passed = false) (hs : (d.chan h c).start ≤ d.now)
    (hp : (d.opensNow h (.ls (d.valsNow h c).target)).permitFor h (.ls (d.valsNow h c).target) = some p)
    (hr : ∀ s, (d.bank h ((d.valsNow h c).target / 2)).shot = some s → s.record = false) :
    ShotStarted d (d.edgeAtVoter h c) h c (d.valsNow h c) ∧ ((d.edgeAtVoter h c).chan h c).passed = true := by
  have ho : outputOf (d.valsNow h c).action (d.valsNow h c).target = some (.ls (d.valsNow h c).target) := by
    rw [ha]
    rfl
  have q := voteStart_shot (c := c) ha hp []
  obtain ⟨started, hchans⟩ := shotStarted_startShot (d := d.passedBy h c (.ls (d.valsNow h c).target) p) (h := h) (c := c)
    (v := d.valsNow h c) (by rwa [bank_passedBy])
  rw [edgeAtVoter_start hocc ho hpass hs]
  exact ⟨started.of_passedBy.shown q, by rw [q.chans, hchans, chan_passedBy]⟩

/-! ### The end of fast decay (R202) -/

theorem decayEnd_decaying {d : Dev} {h : Half} {b : Nat} (hx : (d.bank h b).phase = .decay) :
    d.decayEnd h b = (d.setBank h b { d.bank h b with phase := .idle, decaying := false }).bankStat h b := by
  unfold decayEnd
  exact if_pos hx

/-- What the end of fast decay leaves of its bank: idle, the shot kept, ACTIVE low. -/
theorem decayEnd_idle {d : Dev} {h : Half} {b : Nat} (hx : (d.bank h b).phase = .decay) :
    (d.decayEnd h b).bank h b = { d.bank h b with phase := .idle, decaying := false } ∧
      (d.decayEnd h b).bit (Reg.DRV_BANKSTAT h b) F.DRV_BANKSTAT_ACTIVE = false ∧
      OneBank d (d.decayEnd h b) h b ∧ RegsKept d (d.decayEnd h b) [Reg.DRV_BANKSTAT h b] := by
  rw [decayEnd_decaying hx]
  refine ⟨by rw [bank_bankStat, bank_setBank_same], ?_,
    oneBank_trans (oneBank_setBank ..) (oneBank_bankStat ..),
    fun a ha => (regsKept_bankStat _ h b a ha).trans (rd_setBank ..)⟩
  rw [active_bankStat, bank_setBank_same]
  rfl

theorem laneFault_decayEnd (d : Dev) (h : Half) (b : Nat) : (d.decayEnd h b).laneFault = d.laneFault := by
  unfold decayEnd
  dsimp only
  split
  · simp [bankStat, setF, setB, setBank, onHalf]
  · rfl

/-- With no lane fault the heartbeat is not restarted. -/
theorem hbRestart_noFault {d : Dev} (hl : d.laneFault = false) : d.hbRestart = d := by simp [hbRestart, hl]

/-! ### The clears of the banks (R216, R221) -/

theorem bankstat_ne {h : Half} {b j : Nat} (hb : b ≠ j) : Reg.DRV_BANKSTAT h j ≠ Reg.DRV_BANKSTAT h b := by
  simp only [Reg.DRV_BANKSTAT]
  omega

/-- The device with OFF of the banks of a mask cleared. -/
abbrev bankClears (d : Dev) (h : Half) (v : Word) : Dev :=
  (bitsOf v 6).foldl (fun d b => d.clrFlag (Reg.DRV_BANKSTAT h b) F.DRV_BANKSTAT_OFF) d

theorem bankClears_frame (d : Dev) (h : Half) (v : Word) :
    RegsKept d (d.bankClears h v) ((List.range 6).map (Reg.DRV_BANKSTAT h)) ∧ HiddenKept d (d.bankClears h v) := by
  refine (foldl_relates (P := fun _ => True)
    (A := fun d e => RegsKept d e ((List.range 6).map (Reg.DRV_BANKSTAT h)) ∧ HiddenKept d e)
    (fun d => ⟨regsKept_refl d _, hiddenKept_refl d⟩)
    (fun q r => ⟨regsKept_trans q.1 r.1, hiddenKept_trans q.2 r.2⟩) _ (fun d _ b hb => ⟨trivial, ?_⟩) trivial).2
  have q := Clears.clrFlag d (Reg.DRV_BANKSTAT h b) F.DRV_BANKSTAT_OFF
  refine ⟨regsKept_mono q.regs fun a ha => ?_, q.hidden⟩
  rw [List.mem_singleton.1 ha]
  exact List.mem_map_of_mem (List.mem_range.2 (mem_bitsOf.1 hb).1)

/-- OFF of a bank that the mask names stays where hardware set it in this cycle; every other flag stays. -/
theorem bankClears_stat (d : Dev) (h : Half) (v : Word) {j : Nat} (hj : j < 6) :
    (d.bankClears h v).bit (Reg.DRV_BANKSTAT h j) F.DRV_BANKSTAT_OFF =
      (if v.getLsbD j then getB (d.hwSet (Reg.DRV_BANKSTAT h j)) F.DRV_BANKSTAT_OFF
        else d.bit (Reg.DRV_BANKSTAT h j) F.DRV_BANKSTAT_OFF) ∧
    BitsKept (d.rd (Reg.DRV_BANKSTAT h j)) ((d.bankClears h v).rd (Reg.DRV_BANKSTAT h j)) [F.DRV_BANKSTAT_OFF] := by
  by_cases hv : v.getLsbD j = true
  · obtain ⟨e, -, q, r⟩ := foldl_meets (P := fun _ => True) (d := d) (RegAs.refl (Reg.DRV_BANKSTAT h j)) RegAs.trans
      (nodup_bitsOf v 6) (mem_bitsOf.2 ⟨hj, hv⟩) (fun _ _ _ _ => trivial)
      (fun d _ b _ hb => (Clears.clrFlag d (Reg.DRV_BANKSTAT h b) F.DRV_BANKSTAT_OFF).as (bankstat_ne hb)) trivial
    rw [if_pos hv, bit, r.rd, ← q.hwSet, ← q.rd]
    exact ⟨bit_clrFlag e _ _ (by decide) (by decide), (Clears.clrFlag e _ _).bits⟩
  · have q := (foldl_relates (P := fun _ => True) (d := d) (RegAs.refl (Reg.DRV_BANKSTAT h j)) RegAs.trans (bitsOf v 6)
      (fun d _ b hb => ⟨trivial, (Clears.clrFlag d (Reg.DRV_BANKSTAT h b) F.DRV_BANKSTAT_OFF).as
        (bankstat_ne fun e : b = j => hv (e ▸ (mem_bitsOf.1 hb).2))⟩) trivial).2
    rw [if_neg hv, bit, q.rd]
    exact ⟨rfl, bitsKept_refl _ _⟩

/-- A correction cleared is a clear of its register. -/
theorem clears_hydClear (d : Dev) (h : Half) (n j : Nat) : Clears (Reg.DRV_HYDC h n j) [⟨31, 0⟩] d (d.hydClear h n j) := by
  have hall : ∀ u w : Word, BitsKept u w [⟨31, 0⟩] := fun u w i hi hf => by
    have := hf ⟨31, 0⟩ (by simp)
    simp only at this
    omega
  refine ⟨rfl, fun b hb => rd_wr_other d _ (by simpa using hb), hall _ _, fun b hb => ?_, hall _ _, fun b => ?_⟩
  · rw [hydClear, oldRd_rebase_other _ _ hb, oldRd_wr_other _ _ hb]
  · rw [hydClear, againNow_rebase, againNow_wr]

theorem rd_hydClear (d : Dev) (h : Half) (n j : Nat) : (d.hydClear h n j).rd (Reg.DRV_HYDC h n j) =
    (d.rd (Reg.DRV_HYDC h n j) - d.oldRd (Reg.DRV_HYDC h n j)) &&& 0xFFFF := rd_wr_same ..

theorem hydc_ne {h : Half} {n j n' j' : Nat} (hj : j < 8) (hj' : j' < 8) (hne : n' ≠ n ∨ j' ≠ j) :
    Reg.DRV_HYDC h n j ≠ Reg.DRV_HYDC h n' j' := by
  simp only [Reg.DRV_HYDC]
  omega

/-- The device with the corrections of one low-side cleared. -/
abbrev hydClearsOf (d : Dev) (h : Half) (n : Nat) : Dev := (List.range 8).foldl (fun d j => d.hydClear h n j) d

/-- The device with the corrections of the low-sides of a mask cleared. -/
abbrev hydClears (d : Dev) (h : Half) (v : Word) : Dev := (bitsOf v 12).foldl (fun d n => d.hydClearsOf h n) d

/-- The corrections' registers. -/
abbrev hydcRegs (h : Half) : List Nat := (List.range 12).flatMap fun i => (List.range 8).map (Reg.DRV_HYDC h i)

theorem hydClearsOf_frame (d : Dev) (h : Half) {n : Nat} (hn : n < 12) :
    RegsKept d (d.hydClearsOf h n) (hydcRegs h) ∧ HiddenKept d (d.hydClearsOf h n) := by
  refine (foldl_relates (P := fun _ => True) (A := fun d e => RegsKept d e (hydcRegs h) ∧ HiddenKept d e)
    (fun d => ⟨regsKept_refl d _, hiddenKept_refl d⟩)
    (fun q r => ⟨regsKept_trans q.1 r.1, hiddenKept_trans q.2 r.2⟩) _ (fun d _ j hj => ⟨trivial, ?_⟩) trivial).2
  have q := clears_hydClear d h n j
  refine ⟨regsKept_mono q.regs fun a ha => ?_, q.hidden⟩
  rw [List.mem_singleton.1 ha]
  exact List.mem_flatMap.2 ⟨n, List.mem_range.2 hn, List.mem_map_of_mem hj⟩

theorem hydClears_frame (d : Dev) (h : Half) (v : Word) :
    RegsKept d (d.hydClears h v) (hydcRegs h) ∧ HiddenKept d (d.hydClears h v) :=
  (foldl_relates (P := fun _ => True) (A := fun d e => RegsKept d e (hydcRegs h) ∧ HiddenKept d e)
    (fun d => ⟨regsKept_refl d _, hiddenKept_refl d⟩)
    (fun q r => ⟨regsKept_trans q.1 r.1, hiddenKept_trans q.2 r.2⟩) _
    (fun d _ _ hn => ⟨trivial, hydClearsOf_frame d h (mem_bitsOf.1 hn).1⟩) trivial).2

/-- The clears of one low-side leave the corrections of the others. -/
theorem hydClearsOf_other (d : Dev) (h : Half) {n i j : Nat} (hj : j < 8) (hi : i ≠ n) :
    RegAs (Reg.DRV_HYDC h n j) d (d.hydClearsOf h i) :=
  (foldl_relates (P := fun _ => True) (RegAs.refl _) RegAs.trans _ (fun d _ k hk =>
    ⟨trivial, (clears_hydClear d h i k).as (hydc_ne hj (List.mem_range.1 hk) (.inl hi))⟩) trivial).2

/-- A correction of a low-side cleared: what was added in this cycle stays (R11). -/
theorem rd_hydClearsOf (d : Dev) (h : Half) (n : Nat) {j : Nat} (hj : j < 8) :
    (d.hydClearsOf h n).rd (Reg.DRV_HYDC h n j) =
      (d.rd (Reg.DRV_HYDC h n j) - d.oldRd (Reg.DRV_HYDC h n j)) &&& 0xFFFF := by
  obtain ⟨e, -, q, r⟩ := foldl_meets (P := fun _ => True) (d := d) (RegAs.refl (Reg.DRV_HYDC h n j)) RegAs.trans
    List.nodup_range (List.mem_range.2 hj) (fun _ _ _ _ => trivial)
    (fun d _ k hk hkj => (clears_hydClear d h n k).as (hydc_ne hj (List.mem_range.1 hk) (.inr hkj))) trivial
  rw [r.rd, rd_hydClear, q.rd, q.old]

theorem rd_hydClears (d : Dev) (h : Half) (v : Word) {n j : Nat} (hn : n < 12) (hj : j < 8) :
    (d.hydClears h v).rd (Reg.DRV_HYDC h n j) =
      if v.getLsbD n then (d.rd (Reg.DRV_HYDC h n j) - d.oldRd (Reg.DRV_HYDC h n j)) &&& 0xFFFF
      else d.rd (Reg.DRV_HYDC h n j) := by
  by_cases hv : v.getLsbD n = true
  · obtain ⟨e, -, q, r⟩ := foldl_meets (P := fun _ => True) (d := d) (RegAs.refl (Reg.DRV_HYDC h n j)) RegAs.trans
      (nodup_bitsOf v 12) (mem_bitsOf.2 ⟨hn, hv⟩) (fun _ _ _ _ => trivial)
      (fun d _ i _ hi => hydClearsOf_other d h hj hi) trivial
    rw [if_pos hv, r.rd, rd_hydClearsOf _ _ _ hj, q.rd, q.old]
  · rw [if_neg hv]
    exact (foldl_relates (P := fun _ => True) (d := d) (RegAs.refl (Reg.DRV_HYDC h n j)) RegAs.trans (bitsOf v 12)
      (fun d _ i hi => ⟨trivial, hydClearsOf_other d h hj fun e : i = n => hv (e ▸ (mem_bitsOf.1 hi).2)⟩) trivial).2.rd

end Dev

/-! ### The claim -/

/-- The start of a shot, the end of its fast decay and the clears: each acts on its bank, or on the registers that its
mask names. -/
theorem shotStartAndBankClears : ShotStartAndBankClearsRule := by
  intro s t m h b c n v p d x w k cfg boost live low weak
  refine ⟨fun hocc hact htgt hprof hpass hstart hperm hrec => ⟨d.edgeAtVoter h c.val, rfl, ?start⟩,
    fun hdecay hlane => ⟨((d.decayEnd h b.val).undriven h b.val).hbRestart, rfl, ?decay⟩,
    fun hr => does_onWrite hr rfl ?banks, fun hr => does_onWrite hr rfl ?hyd⟩
  case start =>
    obtain ⟨⟨hphase, hgates, ⟨sh, hshot, q⟩, hactive, hls⟩, hchan⟩ := Dev.edgeAtVoter_shot hocc hact hpass hstart
      (p := p) (by rwa [htgt]) (by rwa [htgt])
    rw [htgt] at hphase hgates hshot hactive hls
    rw [← Bool.and_assoc] at hgates
    refine ⟨hphase, hgates, ⟨sh, hshot, q.chan, q.ls.trans htgt, q.start, q.pcfg, q.pboost, q.ppeak, q.phold, q.degraded,
      ?_, q.corr, ?_⟩, hactive, hls, hchan⟩
    · rw [q.bankOff, htgt]
    · rw [q.minChop, htgt]
  case decay =>
    have hl : ((d.decayEnd h b.val).undriven h b.val).laneFault = false := (Dev.laneFault_decayEnd d h b.val).trans hlane
    obtain ⟨hbank, hactive, hone, hregs⟩ := Dev.decayEnd_idle hdecay
    rw [Dev.hbRestart_noFault hl]
    exact ⟨congrArg Bank.phase hbank, congrArg Bank.decaying hbank, (congrArg Bank.shot hbank :), hactive, hone,
      hregs⟩
  case banks =>
    obtain ⟨hregs, hhidden⟩ := Dev.bankClears_frame (d.okay 0) h v
    exact ⟨fun j hj => Dev.bankClears_stat (d.okay 0) h v hj, hregs, hiddenKept_answer hhidden⟩
  case hyd =>
    obtain ⟨hregs, hhidden⟩ := Dev.hydClears_frame (d.okay 0) h v
    exact ⟨fun j hj => Dev.rd_hydClears (d.okay 0) h v n.isLt hj, hregs, hiddenKept_answer hhidden⟩

/-- Settles O34: the searches and the record of a bank's shot, and its start, its decay and the clears. -/
theorem needleRecordAndShotStart : Obligations.NeedleRecordAndShotStart := ⟨needleAndRecord, shotStartAndBankClears⟩

end Sys2Proof.Machine
end

section
/-! PROOFS. The resets (R39 to R41): the cells that every reset keeps, the AON state that a warm reset carries over. -/

namespace Sys2Proof.Machine

open Sys2Proof Sys2Proof.Claims

namespace Dev

/-! ### Registers over a reset -/

/-- The registers of the AON island with SYS_RSTCAUSE, which `keepAon` carries over. -/
def aonRegs : List Nat :=
  [Reg.SYS_RSTCAUSE, Reg.SYS_WAKE, Reg.SYS_PMCFG, Reg.SYS_PMSTAT .a, Reg.SYS_PMSTAT .b]

/-- The registers that do not take their reset values at a reset other than power-on. -/
def warmRegs : List Nat := aonRegs ++ [Reg.IMG_KEYSTAT, Reg.TRIM_STAT, Reg.SYS_BOOTSTAT]

theorem rd_carry (old d : Dev) (a b : Nat) : (carry old d a).rd b = if b = a then old.rd b else d.rd b := by
  rw [carry, rd_wr]
  split
  · next h => rw [h]
  · rfl

theorem rd_foldl_carry (old d : Dev) (l : List Nat) (b : Nat) :
    (l.foldl (carry old) d).rd b = if b ∈ l then old.rd b else d.rd b := by
  induction l generalizing d with
  | nil => simp
  | cons a l ih =>
    rw [List.foldl_cons, ih, rd_carry]
    by_cases hb : b = a <;> simp [hb]

/-- The AON registers come from the device before, every other one from the device that takes them over. -/
theorem rd_keepAon (old d : Dev) (b : Nat) : (keepAon old d).rd b = if b ∈ aonRegs then old.rd b else d.rd b :=
  rd_foldl_carry old d aonRegs b

/-- Every register but those of the key slot and of the trim page is reset. -/
theorem rd_fresh (d : Dev) {a : Nat} (hk : a ≠ Reg.IMG_KEYSTAT) (ht : a ≠ Reg.TRIM_STAT) :
    d.fresh.rd a = regReset a := by
  unfold fresh wearShown
  rw [rd_setB_other _ _ _ ht, rd_setF_other _ _ _ ht, rd_carry, if_neg hk]
  rfl

theorem rd_resetDev (d : Dev) (x : Fld) (a : Nat) : (d.resetDev x).rd a =
    (carry d ((keepAon d d.fresh).setB Reg.SYS_RSTCAUSE x true) Reg.SYS_BOOTSTAT).rd a := by
  simp only [resetDev, rd]

theorem rd_resetDev_cause (d : Dev) (x : Fld) :
    (d.resetDev x).rd Reg.SYS_RSTCAUSE = putB (d.rd Reg.SYS_RSTCAUSE) x true := by
  rw [rd_resetDev, rd_carry, if_neg (by decide), rd_setB_same, rd_keepAon, if_pos (by decide)]

theorem rd_resetDev_other (d : Dev) (x : Fld) {a : Nat} (hc : a ≠ Reg.SYS_RSTCAUSE) (hs : a ≠ Reg.SYS_BOOTSTAT) :
    (d.resetDev x).rd a = if a ∈ aonRegs then d.rd a else d.fresh.rd a := by
  rw [rd_resetDev, rd_carry, if_neg hs, rd_setB_other _ _ _ hc, rd_keepAon]

/-! ### What a reset leaves -/

theorem resetTo_powerOn (d : Dev) : ResetTo d.powerOn [Reg.IMG_KEYSTAT, Reg.TRIM_STAT] := by
  refine ⟨rfl, rfl, rfl, rfl, rfl, rfl, rfl, rfl, rfl, fun a ha => ?_⟩
  obtain ⟨hk, ht⟩ : a ≠ Reg.IMG_KEYSTAT ∧ a ≠ Reg.TRIM_STAT := by simpa using ha
  exact rd_fresh d hk ht

theorem resetTo_resetDev (d : Dev) (x : Fld) : ResetTo (d.resetDev x) warmRegs := by
  refine ⟨rfl, rfl, rfl, rfl, rfl, rfl, rfl, rfl, rfl, fun a ha => ?_⟩
  obtain ⟨haon, hk, ht, hs⟩ : a ∉ aonRegs ∧ a ≠ Reg.IMG_KEYSTAT ∧ a ≠ Reg.TRIM_STAT ∧ a ≠ Reg.SYS_BOOTSTAT := by
    simpa [warmRegs] using ha
  have hc : a ≠ Reg.SYS_RSTCAUSE := fun e => haon (by simp [aonRegs, e])
  rw [rd_resetDev_other d x hc hs, if_neg haon, rd_fresh d hk ht]

theorem aonKept_resetDev (d : Dev) (x : Fld) : AonKept d (d.resetDev x) :=
  ⟨by rw [rd_resetDev_other d x (by decide) (by decide), if_pos (by decide)], rfl, rfl, rfl, rfl⟩

/-- What a warm reset makes of a device: BOOT, the AON state of before, its cause beside those that stood (R39). -/
def WarmReset (x : Fld) (d e : Dev) : Prop :=
  ResetTo e warmRegs ∧ AonKept d e ∧ e.bit Reg.SYS_RSTCAUSE x = true ∧
    BitsKept (d.rd Reg.SYS_RSTCAUSE) (e.rd Reg.SYS_RSTCAUSE) [x]

theorem warmReset_resetDev (d : Dev) {x : Fld} (hx : x.lo ≤ x.hi) (h32 : x.lo < 32) :
    WarmReset x d (d.resetDev x) := by
  refine ⟨resetTo_resetDev d x, aonKept_resetDev d x, ?_, ?_⟩
  · rw [bit, rd_resetDev_cause, getB_putB_same _ _ _ hx h32]
  · rw [rd_resetDev_cause]
    exact bitsKept_putB _ _ _

/-- RESET_N held low shows in nothing that a reset leaves. -/
theorem WarmReset.heldLow {x : Fld} {d e : Dev} (h : WarmReset x d e) : WarmReset x d { e with waitReset := true } := h

/-! ### KEY_ERR -/

/-- KEY_ERR rises in its register, with its source: nothing else changes. -/
theorem keyErr_leaves (d : Dev) : d.keyErr.bit Reg.SYS_FLAG F.SYS_FLAG_KEY_ERR = true ∧
    RegsKept d d.keyErr [Reg.SYS_FLAG] ∧ HiddenKept d { d.keyErr with irq := d.irq } :=
  ⟨bit_flag _ _ _ _ (by decide) (by decide), regsKept_flag _ _ _ _ (by simp), flag_hidden _ _ _ _⟩

end Dev

/-- A command that is an effect on the device does what holds of the device that the effect comes to. -/
theorem does_onDev_eq {c : Instr} {s : State} {t : Tick} {g : Dev → Dev} {e : Dev} {Q : Dev → Prop}
    (h : exec c s = s.onDev t g) (he : g (s.devAt t) = e) (hq : Q e) : Does c s Q := does_onDev h (he ▸ hq)

/-- Settles O6: power-on leaves the reset values, every warm reset carries the AON state over and adds its cause. -/
theorem resetSourcesEnterBoot : Obligations.ResetSourcesEnterBoot := by
  intro s t d aon
  refine ⟨does_onDev rfl ⟨d.resetTo_powerOn, ?por, ?cold, rfl, rfl, rfl⟩, fun hp => does_onDev_eq rfl (if_pos hp) ?brown,
    fun hp => does_onDev_eq rfl (if_pos hp) ?pin, fun m hr => does_onWrite hr rfl ?soft, fun m v hv hr => does_onWrite hr rfl ?key,
    ⟨_, rfl, rfl⟩⟩
  case por =>
    show getB (d.fresh.rd Reg.SYS_RSTCAUSE) _ = true
    rw [Dev.rd_fresh d (by decide) (by decide)]
    decide +kernel
  case cold =>
    show getB (d.fresh.rd Reg.SYS_WAKE) _ = true
    rw [Dev.rd_fresh d (by decide) (by decide)]
    decide +kernel
  case brown => exact d.warmReset_resetDev (by decide) (by decide)
  case pin =>
    obtain ⟨hreset, haon, hcause, hbits⟩ :=
      (d.warmReset_resetDev (x := F.SYS_RSTCAUSE_PIN) (by decide) (by decide)).heldLow
    exact ⟨hreset, haon, hcause, rfl, hbits⟩
  case soft => exact (d.okay 0).warmReset_resetDev (x := F.SYS_RSTCAUSE_SOFT) (by decide) (by decide)
  case key =>
    rw [if_neg hv]
    obtain ⟨hbit, hregs, hhidden⟩ := (d.okay 0).keyErr_leaves
    exact ⟨hbit, hregs, hiddenKept_answer hhidden⟩

end Sys2Proof.Machine
end

section
/-! PROOFS. Failing supplies, STANDBY and its wakes (R42 to R47): the AON state alone stays, and what changes it there. -/

namespace Sys2Proof.Machine

open Sys2Proof Sys2Proof.Claims

namespace Dev

/-! ### The phase memory of a half -/

@[simp] theorem phaseMem_setPhaseMem_same (d : Dev) (h : Half) (p : PhaseMem) : (d.setPhaseMem h p).phaseMem h = p := by
  cases h <;> rfl

@[simp] theorem phaseMem_setPhaseMem_other (d : Dev) (h : Half) (p : PhaseMem) :
    (d.setPhaseMem h p).phaseMem h.other = d.phaseMem h.other := by cases h <;> rfl

@[simp] theorem rd_setPhaseMem (d : Dev) (h : Half) (p : PhaseMem) (a : Nat) : (d.setPhaseMem h p).rd a = d.rd a := by
  cases h <;> rfl

/-- One memory replaced: every register and everything else hidden is as before. -/
theorem setPhaseMem_frame (d : Dev) (h : Half) (p : PhaseMem) : (d.setPhaseMem h p).phaseMem h.other = d.phaseMem h.other ∧
    RegsKept d (d.setPhaseMem h p) [] ∧ HiddenKept d { d.setPhaseMem h p with pmA := d.pmA, pmB := d.pmB } :=
  ⟨phaseMem_setPhaseMem_other .., fun a _ => rd_setPhaseMem .., by cases h <;> rfl⟩

/-! ### The early warning (R42) -/

/-- What a half hands over to the AON island: its index where it has one and the time suffices, else nothing. -/
def handed (d : Dev) (h : Half) (ok : Bool) : PhaseMem :=
  match d.indexHeld h, ok with
  | some (k, rev), true => { Init.phaseMem with index := some k, rev := rev, sig := d.rd (Reg.WHL_SIG h), len := d.edges h }
  | _, _ => Init.phaseMem

theorem handOver_eq (d : Dev) (h : Half) (ok : Bool) : d.handOver h ok = d.setPhaseMem h (d.handed h ok) := by
  unfold handOver handed
  cases d.indexHeld h with
  | none => rfl
  | some x => cases ok <;> rfl

/-- What Half A hands over is nothing to Half B. -/
theorem handOver_both (d : Dev) (okA okB : Bool) :
    (d.handOver .a okA).handOver .b okB = { d with pmA := d.handed .a okA, pmB := d.handed .b okB } := by
  rw [handOver_eq, handOver_eq]
  rfl

/-! ### The wake request (R43) -/

theorem wake_requested {d : Dev} (x : Fld) (h : d.wakeReq = true) : d.wake x = d := if_pos h

theorem wake_first {d : Dev} (x : Fld) (h : d.wakeReq = false) :
    d.wake x = { (d.wr Reg.SYS_WAKE (d.rd Reg.SYS_WAKE &&& 0xFFFFFFF8)).setB Reg.SYS_WAKE x true with
      wakeReq := true, wakeOut := true } := if_neg (by simp [h])

/-- Whether it is the first or not, a wake request leaves all but SYS_WAKE, WAKE_OUT and the request itself. -/
theorem wake_frame (d : Dev) (x : Fld) : RegsKept d (d.wake x) [Reg.SYS_WAKE] ∧
    HiddenKept d { d.wake x with wakeReq := d.wakeReq, wakeOut := d.wakeOut } := by
  cases h : d.wakeReq with
  | true =>
    rw [wake_requested x h, ← h]
    exact ⟨regsKept_refl d _, rfl⟩
  | false =>
    rw [wake_first x h]
    exact ⟨regsKept_trans (regsKept_wr d _ _ (by simp)) (regsKept_setB _ _ x true (by simp)), by rw [← h]; rfl⟩

theorem wake_keeps (d : Dev) (x : Fld) : (d.wake x).mode = d.mode ∧ (d.wake x).busRun = d.busRun ∧
    ∀ h, (d.wake x).phaseMem h = d.phaseMem h := by
  unfold wake
  split
  · exact ⟨rfl, rfl, fun _ => rfl⟩
  · exact ⟨rfl, rfl, fun h => by cases h <;> rfl⟩

/-- The first request records WAKE_IN as the one cause (R43). -/
theorem wake_wakeIn {d : Dev} (h : d.wakeReq = false) :
    (d.wake F.SYS_WAKE_WAKE_IN).wakeReq = true ∧ (d.wake F.SYS_WAKE_WAKE_IN).wakeOut = true ∧
      (d.wake F.SYS_WAKE_WAKE_IN).bit Reg.SYS_WAKE F.SYS_WAKE_WAKE_IN = true ∧
      (d.wake F.SYS_WAKE_WAKE_IN).bit Reg.SYS_WAKE F.SYS_WAKE_MOTION_A = false ∧
      (d.wake F.SYS_WAKE_WAKE_IN).bit Reg.SYS_WAKE F.SYS_WAKE_MOTION_B = false := by
  rw [wake_first _ h]
  let e := d.wr Reg.SYS_WAKE (d.rd Reg.SYS_WAKE &&& 0xFFFFFFF8)
  have hmask : ∀ x : Fld, getB 0xFFFFFFF8 x = false → e.bit Reg.SYS_WAKE x = false := fun x hx => by
    rw [bit, rd_wr_same, getB_and, hx, Bool.and_false]
  refine ⟨rfl, rfl, bit_setB_same e _ _ _ (by decide) (by decide), ?_, ?_⟩
  · exact (bit_setB_apart e _ _ _ _ (by decide) (by decide)).trans (hmask _ (by decide))
  · exact (bit_setB_apart e _ _ _ _ (by decide) (by decide)).trans (hmask _ (by decide))

/-! ### STANDBY entered (R42, R45) -/

/-- STANDBY before WAKE_IN is looked at: the AON state with the phase memories made ready for counting. -/
def standbyQuiet (d : Dev) (t : Nat) : Dev :=
  pmStandby d (pmStandby d { keepAon d d.fresh with mode := .standby, wakeReq := false, wakeOut := false } t .a) t .b

theorem enterStandby_powered {d : Dev} (t : Nat) (wakeIn : Bool) (h : d.powered = true) :
    d.enterStandby t wakeIn = if wakeIn then (d.standbyQuiet t).wake F.SYS_WAKE_WAKE_IN else d.standbyQuiet t := if_pos h

theorem phaseMem_standbyQuiet (d : Dev) (t : Nat) (h : Half) :
    ((d.standbyQuiet t).phaseMem h).count = 0 ∧ ((d.standbyQuiet t).phaseMem h).sig = (d.phaseMem h).sig ∧
      (((d.standbyQuiet t).phaseMem h).settled = true ↔ d.f Reg.SYS_PMCFG (pmFields h).1 = 0) := by
  cases h <;> exact ⟨rfl, rfl, decide_eq_true_iff⟩

theorem rd_standbyQuiet_pmcfg (d : Dev) (t : Nat) : (d.standbyQuiet t).rd Reg.SYS_PMCFG = d.rd Reg.SYS_PMCFG := by
  unfold standbyQuiet pmStandby
  rw [rd_setPhaseMem, rd_setPhaseMem]
  exact (rd_keepAon d d.fresh _).trans (if_pos (by decide))

/-! ### Crank edges in STANDBY (R45 to R47) -/

/-- An edge counted: by one in its direction; before SETTLE has ended it asks for no wake. -/
theorem standbyEdge_counts (d : Dev) (t : Nat) (h : Half) (fwd : Bool) :
    ((d.standbyEdge t h fwd).phaseMem h).count = (d.phaseMem h).count + (if fwd then 1 else -1) ∧
      ((d.standbyEdge t h fwd).phaseMem h).dirErr = (d.phaseMem h).dirErr ∧
      ((d.phaseMem h).settled = false → (d.standbyEdge t h fwd).wakeReq = d.wakeReq ∧
        (d.standbyEdge t h fwd).wakeOut = d.wakeOut) ∧
      (d.standbyEdge t h fwd).phaseMem h.other = d.phaseMem h.other ∧
      RegsKept d (d.standbyEdge t h fwd) [Reg.SYS_WAKE] := by
  unfold standbyEdge
  extract_lets p n recent d1 w
  have hreq : d1.wakeReq = d.wakeReq ∧ d1.wakeOut = d.wakeOut := by cases h <;> exact ⟨rfl, rfl⟩
  have hmem : d1.phaseMem h = { p with
      count := n, ovf := p.ovf || decide (n < -32768 ∨ 32767 < n), recent := recent } := phaseMem_setPhaseMem_same ..
  have hother : d1.phaseMem h.other = d.phaseMem h.other := phaseMem_setPhaseMem_other ..
  have hregs : RegsKept d d1 [Reg.SYS_WAKE] := fun a _ => rd_setPhaseMem ..
  split
  · next hwake =>
    obtain ⟨-, -, hk⟩ := d1.wake_keeps (motionBit h)
    refine ⟨by rw [hk, hmem], by rw [hk, hmem], fun hs => ?_, (hk _).trans hother,
      regsKept_trans hregs (d1.wake_frame _).1⟩
    have hs' : p.settled = false := hs
    simp [hs'] at hwake
  · exact ⟨by rw [hmem], by rw [hmem], fun _ => hreq, hother, hregs⟩

section Direction

variable {p : PhaseMem}

/-- With CRKD as the source an edge has the direction of its level, unless CRKD has just changed (R86). -/
theorem wakeDir_timed (crkd : Bool) (gap : Nat) (h : p.src = 2) : wakeDir p (.timed crkd gap) =
    some (if gap ≤ 10 * getF p.dirCfg F.SNS_DIRCFG_QWIN then none else some (crkd == p.fwdLvl)) := if_pos h

/-- With pulse widths as the source a pulse that is not discarded is forward up to FWD_MAX, reverse from REV_MIN on and
ambiguous between (R87). -/
theorem wakeDir_pulse {w : Nat} (h : p.src = 1) (hw : w ≤ 2 * (1000 * getF p.dirCfg F.SNS_DIRCFG_REV_MIN)) :
    wakeDir p (.pulse w) =
      if w ≤ 1000 * getF p.dirCfg F.SNS_DIRCFG_FWD_MAX then some (some true)
      else if 1000 * getF p.dirCfg F.SNS_DIRCFG_REV_MIN ≤ w then some (some false) else some none :=
  if_neg (by omega)

theorem wakeDir_noSource (e : WakeEdge) (h : p.src = 0) : wakeDir p e = none := by
  cases e with
  | timed crkd gap => exact if_neg (by omega)
  | pulse w => exact if_pos (by omega)

end Direction

variable {d : Dev} {h : Half} {e : WakeEdge}

theorem standbyCrank_counted {fwd : Bool} (t : Nat) (hm : d.mode = .standby)
    (he : wakeDir (d.phaseMem h) e = some (some fwd)) : d.standbyCrank t h e = d.standbyEdge t h fwd := by
  rw [standbyCrank, if_pos hm, he]

theorem standbyCrank_unclear (t : Nat) (hm : d.mode = .standby) (he : wakeDir (d.phaseMem h) e = some none) :
    d.standbyCrank t h e = d.setPhaseMem h { d.phaseMem h with dirErr := true } := by
  rw [standbyCrank, if_pos hm, he]

theorem standbyCrank_discarded (t : Nat) (hm : d.mode = .standby) (he : wakeDir (d.phaseMem h) e = none) :
    d.standbyCrank t h e = d := by
  rw [standbyCrank, if_pos hm, he]

end Dev

/-! ### The claims -/

theorem supplyLossKeepsOnlyAon : SupplyLossKeepsOnlyAonRule := by
  intro s t d
  refine ⟨fun hp okA okB => does_onDev_eq rfl ((if_pos hp).trans (d.handOver_both okA okB)) ?warning,
    fun hp wakeIn => does_onDev_eq rfl (Dev.enterStandby_powered _ wakeIn hp) ?standby, does_onDev rfl ?lost⟩
  case warning =>
    refine ⟨fun h => ?_, fun a _ => rfl, rfl⟩
    cases h <;> rfl
  case standby =>
    have hmem := d.phaseMem_standbyQuiet t.toNat
    have hcfg := d.rd_standbyQuiet_pmcfg t.toNat
    cases wakeIn with
    | false => exact ⟨rfl, rfl, rfl, rfl, hmem, hcfg⟩
    | true =>
      obtain ⟨hmode, hbus, hk⟩ := (d.standbyQuiet t.toNat).wake_keeps F.SYS_WAKE_WAKE_IN
      obtain ⟨hreq, hout, -⟩ := Dev.wake_wakeIn (d := d.standbyQuiet t.toNat) rfl
      exact ⟨hmode, hbus, hreq, hout, fun h => by rw [if_pos rfl, hk]; exact hmem h,
        (((d.standbyQuiet t.toNat).wake_frame _).1 _ (by decide)).trans hcfg⟩
  case lost => exact ⟨rfl, rfl, rfl, rfl, rfl⟩

theorem standbyWakes : StandbyWakesRule := by
  intro s t d
  refine ⟨fun hm hq => does_onDev_eq rfl (if_pos hm) ?wakeIn,
    fun hm hq => does_onDev_eq rfl ((if_pos hm).trans (Dev.wake_requested _ hq)) rfl,
    fun h hm ht => does_onDev_eq rfl (if_pos ⟨hm, ht⟩) ⟨Dev.phaseMem_setPhaseMem_same .., Dev.setPhaseMem_frame ..⟩,
    fun h ht => does_onDev_eq rfl (if_neg fun hc => Nat.not_lt.2 hc.2 ht) rfl, fun h hm => ?edge, does_onDev rfl rfl⟩
  case wakeIn =>
    obtain ⟨hreq, hout, hin, ha, hb⟩ := Dev.wake_wakeIn hq
    exact ⟨hreq, hout, hin, ha, hb, Dev.wake_frame ..⟩
  case edge =>
    intro p counted unclear fwdMax revMin qwin
    have counts : ∀ (e : WakeEdge) (fwd : Bool), Dev.wakeDir p e = some (some fwd) →
        Does (.standbyCrankEdge t h e) s (counted fwd) := fun e fwd he =>
      does_onDev_eq rfl (Dev.standbyCrank_counted t.toNat hm he) (d.standbyEdge_counts t.toNat h fwd)
    have errs : ∀ e : WakeEdge, Dev.wakeDir p e = some none → Does (.standbyCrankEdge t h e) s unclear := fun e he =>
      does_onDev_eq rfl (Dev.standbyCrank_unclear t.toNat hm he)
        ⟨Dev.phaseMem_setPhaseMem_same .., Dev.setPhaseMem_frame ..⟩
    refine ⟨fun crkd gap hs => ⟨fun hg => counts _ _ ?_, fun hg => errs _ ?_⟩,
      fun w hs hw => ⟨fun hf => counts _ _ ?_, fun hf hr => counts _ _ ?_, fun hf hr => errs _ ?_⟩,
      fun hs e => does_onDev_eq rfl (Dev.standbyCrank_discarded t.toNat hm (Dev.wakeDir_noSource e hs)) rfl⟩
    · rw [Dev.wakeDir_timed crkd gap hs, if_neg (Nat.not_le.2 hg)]
    · rw [Dev.wakeDir_timed crkd gap hs, if_pos hg]
    · rw [Dev.wakeDir_pulse hs hw, if_pos hf]
    · rw [Dev.wakeDir_pulse hs hw, if_neg (Nat.not_le.2 hf), if_pos hr]
    · rw [Dev.wakeDir_pulse hs hw, if_neg (Nat.not_le.2 hf), if_neg (Nat.not_le.2 hr)]

/-- Settles O7: the AON state is what `keepAon` and the phase memories hold, and each wake changes its own part of it. -/
theorem standbyAndSupplyLoss : Obligations.StandbyAndSupplyLoss := ⟨supplyLossKeepsOnlyAon, standbyWakes⟩

end Sys2Proof.Machine
end

section
/-! PROOFS. Messages of the host (R338 to R341): a request leaves the buffer, its layout and the mode are judged, its
accesses are made and answered. -/

namespace Sys2Proof.Machine

open Sys2Proof Sys2Proof.Claims

namespace Dev

/-! ### The response -/

/-- A response changes the queue of device frames alone. -/
theorem reply_eq (d : Dev) (p : Bool × Frame) (status count : Nat) (data : List Byte) :
    d.reply p status count data = { d with link := { d.link with
      txq := d.link.txq ++ if p.1 = true ∧ d.link.up = true then
        [⟨1, 0x03, [p.2.seq, p.2.type, BitVec.ofNat 8 status, BitVec.ofNat 8 count] ++ data, none, 0, 0⟩] else [] } } := by
  unfold reply respond queueFrame
  by_cases hw : p.1 = true
  · by_cases hu : d.link.up = true
    · rw [if_pos hw, if_pos hu, if_pos ⟨hw, hu⟩]
    · rw [if_pos hw, if_neg hu, if_neg fun h => hu h.2, List.append_nil]
  · rw [if_neg hw, if_neg fun h => hw h.1, List.append_nil]

theorem replied_reply (d : Dev) (p : Bool × Frame) (status count : Nat) (data : List Byte) :
    Replied d.link (d.reply p status count data).link p status count data := by
  rw [reply_eq]
  exact ⟨rfl, rfl⟩

theorem rd_reply (d : Dev) (p : Bool × Frame) (status count : Nat) (data : List Byte) (a : Nat) :
    (d.reply p status count data).rd a = d.rd a := by
  rw [reply_eq]
  rfl

theorem messagesOpen_iff (d : Dev) : d.messagesOpen = true ↔ d.mode = .operate ∨ d.mode = .halt ∨ d.mode = .service := by
  simp [messagesOpen, operating, or_assoc]

end Dev

/-- Accesses made and answered: the state after them but for the response. -/
theorem accessed_reply (p : Bool × Frame) (r : State) (ok : Bool) (count : Nat) (data : List Byte) :
    Accessed p r { r with dev := r.dev.reply p (if ok then 0 else 1) count data } ok count data := by
  refine ⟨rfl, rfl, Dev.replied_reply .., ?_⟩
  rw [Dev.reply_eq]

/-! ### The execution of a request -/

section Frame

variable {type : Byte} {layout : List Byte → Bool} {allowed : Dev → Bool} {run : Bool × Frame → State → State}
  {s : State} {p : Bool × Frame}

theorem runFrame_none (hn : s.dev.nextFrame type = none) : runFrame type layout allowed run s = s := by
  simp only [runFrame, hn]

theorem runFrame_format (hp : s.dev.nextFrame type = some p) (hl : layout p.2.payload = false) :
    runFrame type layout allowed run s = { s with dev := s.dev.popFrame.reply p 3 0 [] } := by
  simp only [runFrame, hp, hl, Bool.not_false, if_true]

theorem runFrame_denied (hp : s.dev.nextFrame type = some p) (hl : layout p.2.payload = true)
    (ha : allowed s.dev.popFrame = false) :
    runFrame type layout allowed run s = { s with dev := s.dev.popFrame.reply p 4 0 [] } := by
  simp only [runFrame, hp, hl, ha, Bool.not_true, Bool.not_false, if_true, Bool.false_eq_true, if_false]

theorem runFrame_run (hp : s.dev.nextFrame type = some p) (hl : layout p.2.payload = true)
    (ha : allowed s.dev.popFrame = true) :
    runFrame type layout allowed run s = run p { s with dev := s.dev.popFrame } := by
  simp only [runFrame, hp, hl, ha, Bool.not_true, Bool.false_eq_true, if_false]

end Frame

/-- A command that executes the oldest accepted frame executes it as its layout, its modes and its accesses say. -/
theorem executed_runFrame {c : Instr} {s : State} {t : Tick} {type : Byte} {layout : List Byte → Bool}
    {allowed : Dev → Bool} {run : Bool × Frame → State → State} {L : List Byte → Prop} {A : Dev → Prop}
    {R : Bool × Frame → State → State → Prop}
    (hx : exec c s = .next (runFrame type layout allowed run { s with dev := s.devAt t }))
    (hl : ∀ q, layout q = true ↔ L q) (ha : ∀ d, allowed d = true ↔ A d) (hr : ∀ p s₁, R p s₁ (run p s₁)) :
    Executed c s t type L A R := by
  have hl' : ∀ {q}, ¬L q → layout q = false := fun h => Bool.eq_false_iff.2 fun e => h ((hl _).1 e)
  have ha' : ∀ {d}, ¬A d → allowed d = false := fun h => Bool.eq_false_iff.2 fun e => h ((ha _).1 e)
  have answered : ∀ (p : Bool × Frame) (n : Nat), Replied (s.devAt t).popFrame.link
      ((s.devAt t).popFrame.reply p n 0 []).link p n 0 [] ∧ RegsKept (s.devAt t) ((s.devAt t).popFrame.reply p n 0 []) [] :=
    fun p n => ⟨Dev.replied_reply .., fun a _ => Dev.rd_reply ..⟩
  refine ⟨fun hn => ⟨_, hx.trans (congrArg _ (runFrame_none hn)), rfl⟩, fun p hp =>
    ⟨fun hq => ⟨_, hx.trans (congrArg _ (runFrame_format hp (hl' hq))), answered p 3⟩,
      fun hq hd => ⟨_, hx.trans (congrArg _ (runFrame_denied hp ((hl _).2 hq) (ha' hd))), answered p 4⟩,
      fun hq hd => ⟨_, hx.trans (congrArg _ (runFrame_run hp ((hl _).2 hq) ((ha _).2 hd))), hr p _⟩⟩⟩

/-- Settles O49: each message is a frame executed, and its response goes with the state that its accesses leave. -/
theorem hostMessages : Obligations.HostMessages := by
  intro s t h free opens words ks
  have hfree : ∀ d : Dev, (fun _ => true) d = true ↔ free d := fun _ => ⟨fun _ => trivial, fun _ => rfl⟩
  exact ⟨executed_runFrame rfl (fun _ => decide_eq_true_iff) hfree fun _ _ => accessed_reply ..,
    executed_runFrame rfl (fun _ => decide_eq_true_iff) hfree fun _ _ => accessed_reply ..,
    executed_runFrame rfl (fun _ => decide_eq_true_iff) Dev.messagesOpen_iff fun _ _ => accessed_reply ..,
    executed_runFrame rfl (fun _ => decide_eq_true_iff) Dev.messagesOpen_iff fun _ _ => accessed_reply ..,
    executed_runFrame rfl (fun _ => decide_eq_true_iff) Dev.messagesOpen_iff fun _ _ => accessed_reply ..,
    executed_runFrame rfl (fun _ => decide_eq_true_iff) Dev.messagesOpen_iff fun _ _ => accessed_reply ..⟩

end Sys2Proof.Machine
end

section
/-! PROOFS. A held debug request (R49): what happens between BOOT and OPERATE, the endings of a fault included, leaves it
held. -/

namespace Sys2Proof.Machine

open Sys2Proof

namespace Dev

/-! ### Choices and folds -/

theorem ite_debugReq (c : Prop) [Decidable c] (a b : Dev) :
    (if c then a else b).debugReq = if c then a.debugReq else b.debugReq := apply_ite Dev.debugReq c a b

theorem foldl_debugReq {α : Type} {g : Dev → α → Dev} (hg : ∀ d x, (g d x).debugReq = d.debugReq) (l : List α)
    (d : Dev) : (l.foldl g d).debugReq = d.debugReq := by
  induction l generalizing d with
  | nil => rfl
  | cons x l ih => rw [List.foldl_cons, ih, hg]

/-- A fold that acts on some of its units alone. -/
theorem foldl_ite_debugReq {α : Type} {c : Dev → α → Bool} {g k : Dev → α → Dev}
    (hg : ∀ d x, (g d x).debugReq = d.debugReq) (hk : ∀ d x, (k d x).debugReq = d.debugReq) (l : List α) (d : Dev) :
    (l.foldl (fun d x => if c d x then g d x else k d x) d).debugReq = d.debugReq :=
  foldl_debugReq (fun d x => by rw [ite_debugReq, hg, hk, ite_self]) l d

/-! ### Registers, flags, sends -/

@[simp] theorem setF_debugReq (d : Dev) (a : Nat) (x : Fld) (n : Nat) : (d.setF a x n).debugReq = d.debugReq := rfl

@[simp] theorem setB_debugReq (d : Dev) (a : Nat) (x : Fld) (b : Bool) : (d.setB a x b).debugReq = d.debugReq := rfl

@[simp] theorem incF_debugReq (d : Dev) (a : Nat) (x : Fld) : (d.incF a x).debugReq = d.debugReq := rfl

@[simp] theorem mark_debugReq (d : Dev) (a : Nat) (x : Fld) : (d.mark a x).debugReq = d.debugReq := by
  unfold mark
  split <;> rfl

@[simp] theorem flag_debugReq (d : Dev) (a : Nat) (x : Fld) (n : Nat) : (d.flag a x n).debugReq = d.debugReq := by
  unfold flag
  split <;> rfl

@[simp] theorem queueFrame_debugReq (d : Dev) (p : Nat) (ty : Byte) (l : List Byte) :
    (d.queueFrame p ty l).debugReq = d.debugReq := by
  unfold queueFrame
  split <;> rfl

/-- A STATUS queued changes the frames that wait, and nothing else. -/
theorem queueStatus_eq (d : Dev) (r : Byte) :
    ∃ l : List OutFrame, d.queueStatus r = { d with link := { d.link with txq := l } } := by
  unfold queueStatus queueFrame
  split
  · exact ⟨_, rfl⟩
  · split
    · exact ⟨_, rfl⟩
    · exact ⟨d.link.txq, rfl⟩

@[simp] theorem queueStatus_debugReq (d : Dev) (r : Byte) : (d.queueStatus r).debugReq = d.debugReq := by
  obtain ⟨l, hl⟩ := d.queueStatus_eq r
  rw [hl]

@[simp] theorem onHalf_debugReq (d : Dev) (h : Half) (g : HalfSt → HalfSt) : (d.onHalf h g).debugReq = d.debugReq :=
  setHalf_debugReq ..

@[simp] theorem setChan_debugReq (d : Dev) (h : Half) (c : Nat) (x : Chan) : (d.setChan h c x).debugReq = d.debugReq :=
  onHalf_debugReq ..

@[simp] theorem setBank_debugReq (d : Dev) (h : Half) (b : Nat) (x : Bank) : (d.setBank h b x).debugReq = d.debugReq :=
  onHalf_debugReq ..

@[simp] theorem setIgn_debugReq (d : Dev) (h : Half) (n : Nat) (x : Ign) : (d.setIgn h n x).debugReq = d.debugReq :=
  onHalf_debugReq ..

/-! ### Interrupts (R316 to R326) -/

@[simp] theorem queueMsg_debugReq (t : Nat) (d : Dev) (n : Nat) : (queueMsg t d n).debugReq = d.debugReq := by
  unfold queueMsg
  split <;> rfl

@[simp] theorem queueTgt_debugReq (d : Dev) (t : Nat) : (d.queueTgt t).debugReq = d.debugReq := by
  unfold queueTgt
  split
  · rfl
  · exact foldl_debugReq (queueMsg_debugReq t) _ _

@[simp] theorem settleIrq_debugReq (d : Dev) : d.settleIrq.debugReq = d.debugReq :=
  foldl_debugReq queueTgt_debugReq _ d

@[simp] theorem irqRaise_debugReq (d : Dev) (n : Nat) : (d.irqRaise n).debugReq = d.debugReq := by
  unfold irqRaise setPend
  split
  · rw [settleIrq_debugReq]
    split <;> rfl
  · rfl

/-! ### Event channels -/

@[simp] theorem rechoose_debugReq (d : Dev) (h : Half) (c : Nat) : (d.rechoose h c).debugReq = d.debugReq := by
  have hchoose : (d.choose h c).debugReq = d.debugReq := by rw [choose, setB_debugReq, setChan_debugReq]
  have hwithhold : (d.withhold h c).debugReq = d.debugReq := by
    rw [withhold, setB_debugReq, setB_debugReq, wr_debugReq, setChan_debugReq]
  unfold rechoose
  split
  · rfl
  · rfl
  · rfl
  · rw [ite_debugReq, hchoose, hwithhold, ite_self]

@[simp] theorem devArm_debugReq (d : Dev) (h : Half) (c : Nat) : (d.arm h c).debugReq = d.debugReq := by
  unfold arm startOver
  dsimp only
  split
  · split <;> simp
  · rfl

@[simp] theorem freeSlot_debugReq (d : Dev) (h : Half) (c : Nat) : (d.freeSlot h c).debugReq = d.debugReq := by
  unfold freeSlot countSlots
  split <;> simp

@[simp] theorem releaseSlot_debugReq (d : Dev) (h : Half) (c : Nat) : (d.releaseSlot h c).debugReq = d.debugReq := by
  unfold releaseSlot countSlots
  split <;> simp

@[simp] theorem endOfEarlier_debugReq (d : Dev) (h : Half) (c : Nat) : (d.endOfEarlier h c).debugReq = d.debugReq :=
  foldl_debugReq (fun d j => by split <;> simp) _ d

@[simp] theorem dropOcc_debugReq (d : Dev) (h : Half) (c r : Nat) (cut : Bool) :
    (d.dropOcc h c r cut).debugReq = d.debugReq := by
  have hmark : (d.markDrop h c r cut).debugReq = d.debugReq := by
    simp [markDrop, satF, raiseH, ite_debugReq]
  simp [dropOcc, closeOcc, ite_debugReq, hmark]

@[simp] theorem untake_debugReq (d : Dev) (h : Half) (c : Nat) : (d.untake h c).debugReq = d.debugReq := by
  simp [untake, ite_debugReq]

@[simp] theorem setAcc_debugReq (d : Dev) (h : Half) (a : Nat) (x : Acc) : (d.setAcc h a x).debugReq = d.debugReq := rfl

@[simp] theorem accClose_debugReq (d : Dev) (h : Half) (a t : Nat) (i : Bool) :
    (d.accClose h a t i).debugReq = d.debugReq := by
  unfold accClose
  dsimp only
  split <;> rfl

theorem endOcc_debugReq (h : Half) (r : Nat) (d : Dev) (c : Nat) : (d.endOcc h r c).debugReq = d.debugReq := by
  unfold endOcc
  dsimp only
  split
  · rw [ite_debugReq, dropOcc_debugReq, ite_debugReq, accClose_debugReq, ite_self, ite_self]
  · rw [ite_debugReq, untake_debugReq, dropOcc_debugReq, ite_self]
  · rw [ite_debugReq, untake_debugReq, dropOcc_debugReq, ite_self]
  · rw [ite_debugReq, dropOcc_debugReq, rechoose_debugReq, ite_self]
  · exact rechoose_debugReq ..

@[simp] theorem endOccs_debugReq (d : Dev) (h : Half) (r : Nat) : (d.endOccs h r).debugReq = d.debugReq :=
  foldl_debugReq (endOcc_debugReq h r) _ d

/-! ### Outputs -/

@[simp] theorem cutBank_debugReq (d : Dev) (h : Half) (b : Nat) : (d.cutBank h b).debugReq = d.debugReq := by
  unfold cutBank endShot bankStat
  dsimp only
  split
  · rfl
  · split
    · simp [ite_debugReq]
    · split <;> simp [ite_debugReq]

@[simp] theorem softOff_debugReq (d : Dev) (h : Half) (k : Nat) : (d.softOff h k).debugReq = d.debugReq := by
  unfold softOff ignStat ignDwell
  dsimp only
  split
  · rfl
  · split <;> simp

@[simp] theorem gaoSafe_debugReq (d : Dev) (h : Half) (k : Nat) : (d.gaoSafe h k).debugReq = d.debugReq := by
  unfold gaoSafe gaoDrive
  dsimp only
  split
  · split <;> rfl
  · rfl

theorem accSafe_debugReq (d : Dev) (h : Half) : (d.accSafe h).debugReq = d.debugReq :=
  foldl_debugReq (fun d a => by simp [ite_debugReq, accCut]) _ d

theorem urgentCancel_debugReq (d : Dev) (h : Half) (halt : Bool) : (d.urgentCancel h halt).debugReq = d.debugReq := by
  have hbit : ∀ (d : Dev) (e : Nat), (d.setBitN (Reg.ADC_URGCNCL h) e).debugReq = d.debugReq := fun d e =>
    mark_debugReq ..
  have hwait : ∀ (l : List Urg) (d : Dev),
      (l.foldl (fun d u => d.setBitN (Reg.ADC_URGCNCL h) u.entry) d).debugReq = d.debugReq :=
    foldl_debugReq fun d u => hbit d u.entry
  unfold urgentCancel
  extract_lets stays d1 mine d2
  have h1 : d1.debugReq = d.debugReq := by
    refine foldl_debugReq (fun d k => ?_) _ d
    exact hwait _ d
  exact (foldl_debugReq hbit _ d1).trans h1

@[simp] theorem endOutputs_debugReq (d : Dev) (h : Half) (halt : Bool) :
    (d.endOutputs h halt).debugReq = d.debugReq := by
  have hkeep : ∀ {α : Type} (d : Dev) (_ : α), d.debugReq = d.debugReq := fun _ _ => rfl
  unfold endOutputs dropPassed permitsClosed
  extract_lets d1 d2 d3
  calc _ = d3.debugReq := by
        rw [onHalf_debugReq, onHalf_debugReq, urgentCancel_debugReq, accSafe_debugReq]
    _ = d2.debugReq := foldl_ite_debugReq hkeep (fun d k => gaoSafe_debugReq d h k) _ _
    _ = d1.debugReq := foldl_ite_debugReq hkeep (fun d k => softOff_debugReq d h k) _ _
    _ = d.debugReq := foldl_ite_debugReq hkeep (fun d k => cutBank_debugReq d h k) _ _

/-! ### What is linked to a half -/

@[simp] theorem pinSafe_debugReq (d : Dev) (k : Nat) : (d.pinSafe k).debugReq = d.debugReq := by
  unfold pinSafe
  split <;> rfl

theorem coltSafe_debugReq (d : Dev) (h : Half) : (d.coltSafe h).debugReq = d.debugReq := by
  have hhalt : ∀ (d : Dev) (e : Nat), (d.coltHalt e 2).debugReq = d.debugReq := fun d e => by
    unfold coltHalt
    exact foldl_debugReq pinSafe_debugReq _ _
  exact foldl_debugReq (fun d e => by rw [ite_debugReq, hhalt, ite_self]) _ d

theorem pwmSafe_debugReq (d : Dev) (h : Half) : (d.pwmSafe h).debugReq = d.debugReq :=
  foldl_debugReq (fun d p => by simp [tripPair, ite_debugReq]) _ d

theorem timerCancel_debugReq (d : Dev) (n : Nat) : (d.timerCancel n).debugReq = d.debugReq := by
  have hun : (d.unfire n).debugReq = d.debugReq := by
    unfold unfire
    split
    · rfl
    · dsimp only
      split <;> split <;> rfl
  simp [timerCancel, ite_debugReq, hun]

theorem timersCancel_debugReq (d : Dev) (p : Nat → Bool) : (d.timersCancel p).debugReq = d.debugReq := by
  exact foldl_debugReq (fun d n => by rw [ite_debugReq, timerCancel_debugReq, ite_self]) _ d

@[simp] theorem endLinked_debugReq (d : Dev) (h : Half) : (d.endLinked h).debugReq = d.debugReq := by
  rw [endLinked, coltSafe_debugReq, pwmSafe_debugReq, timersSafe, timersCancel_debugReq]

/-! ### Commits and transactions that a mode change ends -/

@[simp] theorem setCommit_debugReq (d : Dev) (h : Half) (c : Option Commit) : (d.setCommit h c).debugReq = d.debugReq := by
  simp [setCommit]

@[simp] theorem onCommit_debugReq (d : Dev) (h : Half) (g : Commit → Commit) : (d.onCommit h g).debugReq = d.debugReq := by
  unfold onCommit
  split
  · exact setCommit_debugReq ..
  · rfl

@[simp] theorem resumeCommit_debugReq (d : Dev) (h : Half) : (d.resumeCommit h).debugReq = d.debugReq := by
  unfold resumeCommit
  split
  · split
    · exact foldl_debugReq (fun d k => onCommit_debugReq ..) _ d
    · rfl
  · rfl

theorem writeResult_debugReq (d : Dev) (h : Half) (code : Nat) (c s : Option Nat) (b x : Bool) :
    (d.writeResult h code c s b x).debugReq = d.debugReq := by
  rw [writeResult, ite_debugReq, queueFrame_debugReq, ite_self, raiseH, raise_debugReq, ite_debugReq, wr_debugReq,
    wr_debugReq, wr_debugReq, ite_self, ite_debugReq, ite_debugReq, mark_debugReq, mark_debugReq, mark_debugReq,
    mark_debugReq, ite_self, ite_self, wr_debugReq]

@[simp] theorem endCommit_debugReq (d : Dev) (h : Half) (code : Nat) (c s : Option Nat) (g : Half) :
    (d.endCommit h code c s g).debugReq = d.debugReq := by
  have hres : ∀ d : Dev, d.resumeCtx.debugReq = d.debugReq := fun d => by
    unfold resumeCtx
    split
    · dsimp only
      split <;> rfl
    · rfl
  exact (hres _).trans (foldl_debugReq (fun d k => by rw [writeResult_debugReq, setCommit_debugReq]) _ d)

@[simp] theorem endCtx_debugReq (d : Dev) (code check : Nat) (e : Option Nat) :
    (d.endCtx code check e).debugReq = d.debugReq := by
  unfold endCtx
  extract_lets w _ d1 d2
  have hend : ∀ e : Dev, ({ e with ctx := none, ctxOwner := none } : Dev).debugReq = e.debugReq := fun _ => rfl
  have h1 : d1.debugReq = d.debugReq := (hend _).trans (wr_debugReq d Reg.CTX_STAT w)
  have h2 : d2.debugReq = d.debugReq := by
    unfold d2
    split
    · rw [wr_debugReq, wr_debugReq, wr_debugReq, h1]
    · exact h1
  rw [resumeCommit_debugReq, resumeCommit_debugReq, raise_debugReq, h2]

theorem leaveAngle_debugReq (d : Dev) (h : Half) (m : HMode) : (d.leaveAngle h m).debugReq = d.debugReq := by
  unfold leaveAngle
  split
  · extract_lets phi d1
    have h1 : d1.debugReq = d.debugReq := by
      unfold d1
      split
      · simp [ite_debugReq]
      · rfl
    rw [← h1]
    split
    · simp [ite_debugReq]
    · rfl
  · rfl

/-! ### Modes of a half -/

theorem ganderMode_debugReq (d : Dev) (h : Half) (m : HMode) : (d.ganderMode h m).debugReq = d.debugReq := by
  unfold ganderMode
  split
  · rfl
  all_goals exact onHalf_debugReq ..

@[simp] theorem enterMode_debugReq (d : Dev) (h : Half) (m : HMode) : (d.enterMode h m).debugReq = d.debugReq := by
  have hin : (d.interp h).debugReq = d.debugReq := by
    unfold interp setTrack
    split <;> simp
  unfold enterMode setMode
  rw [ganderMode_debugReq]
  simp [ite_debugReq, leaveAngle_debugReq, hin]

@[simp] theorem enterSafe_debugReq (d : Dev) (h : Half) (r : Nat) (f : Bool) :
    (d.enterSafe h r f).debugReq = d.debugReq := by
  unfold enterSafe endHalf
  split <;> simp

/-! ### Faults (R355 to R362) -/

theorem recordFault_debugReq (d : Dev) (cls : FaultClass) (sc : Scope) : (d.recordFault cls sc).debugReq = d.debugReq := by
  cases sc <;> simp [recordFault, raiseH, ite_debugReq]

theorem react_debugReq (d : Dev) (cls : FaultClass) (sc : Scope) : (d.react cls sc).debugReq = d.debugReq := by
  unfold react
  extract_lets level hs go both acts d1 c n _ _ d2 d3
  have h1 : d1.debugReq = d.debugReq := by
    unfold d1
    split
    · split <;> rfl
    · rfl
  have h2 : d2.debugReq = d1.debugReq := by
    unfold d2
    split
    · rfl
    · split <;> rfl
  have h3 : d3.debugReq = d2.debugReq := foldl_debugReq (fun _ _ => onHalf_debugReq ..) _ _
  rw [foldl_debugReq (fun _ _ => enterSafe_debugReq ..), h3, h2, h1]

theorem fault_debugReq (d : Dev) (cls : FaultClass) (sc : Scope) : (d.fault cls sc).debugReq = d.debugReq := by
  simp [fault, hbRestart, ite_debugReq, react_debugReq, recordFault_debugReq]

theorem safeReqActs_debugReq (d : Dev) : d.safeReqActs.debugReq = d.debugReq := by
  simp [safeReqActs, startDevSafe, ite_debugReq]

/-! ### OPERATE entered (R32, R38) -/

theorem pmFound_debugReq (d : Dev) (h : Half) : (d.pmFound h).debugReq = d.debugReq := by
  have hset : ∀ p, (d.setPhaseMem h p).debugReq = d.debugReq := fun p => by cases h <;> rfl
  unfold pmFound
  extract_lets st p d1
  split
  · split
    · simp [d1, hset]
    · simp [d1, hset]
  · simp [d1, hset]

theorem ascReady_debugReq (d : Dev) (h : Half) : (d.ascReady h).debugReq = d.debugReq := by
  have halign : ∀ (d : Dev) (n : Nat) (x : Rat), (d.ascAlign h n x).debugReq = d.debugReq := fun d n x => by
    simp [ascAlign, setAscNext, ite_debugReq]
  unfold ascReady ascAlignAll
  rw [foldl_debugReq fun d n => by rw [ite_debugReq, halign, ite_self],
    foldl_debugReq fun d n => by rw [ite_debugReq, setB_debugReq, ite_self]]

theorem startHalf_debugReq (y : DevMem) (h : Half) : (startHalf y h).1.debugReq = y.1.debugReq := by
  unfold startHalf
  extract_lets d d1 d2 d3 d4 d5
  have h1 : d1.debugReq = d.debugReq := foldl_debugReq (fun d k => gaoSafe_debugReq d h k) _ d
  have h3 : d3.debugReq = d2.debugReq := (pmFound_debugReq ..).trans (by rw [signed, wr_debugReq, wr_debugReq])
  have h4 : d4.debugReq = d3.debugReq :=
    foldl_debugReq (fun d c => by rw [ite_debugReq, devArm_debugReq, ite_self]) _ d3
  have h5 : d5.debugReq = d4.debugReq := (onHalf_debugReq ..).trans (ascReady_debugReq d4 h)
  split
  · rw [ite_debugReq, softStart, setBoost, onHalf_debugReq, ite_self, h5, h4, h3, onHalf_debugReq, h1]
  · exact pmFound_debugReq d h

theorem openWindow_debugReq (d : Dev) : d.openWindow.debugReq = d.debugReq := by rw [openWindow, setB_debugReq]

theorem xlkStart_debugReq (d : Dev) : d.xlkStart.debugReq = d.debugReq := by
  rw [xlkStart, ite_debugReq, setB_debugReq, setB_debugReq, ite_self]

/-! #### The PWM channels -/

@[simp] theorem setPwm_debugReq (d : Dev) (c : Nat) (x : Pwm) : (d.setPwm c x).debugReq = d.debugReq := rfl

theorem openPeriod_debugReq (d : Dev) (o : Nat) : (d.openPeriod o).debugReq = d.debugReq := by
  unfold openPeriod
  dsimp only
  split
  · rfl
  · split
    · rfl
    · split <;> rfl
  · split <;> rfl
  · rfl

theorem newSet_debugReq (d : Dev) (c : Nat) (x : Pwm) : (d.newSet c x).debugReq = d.debugReq := by
  simp [newSet, pwmFlag, ite_debugReq]

theorem reload1_debugReq (d : Dev) (c : Nat) : (d.reload1 c).debugReq = d.debugReq := by
  unfold reload1
  extract_lets st cfg pair perS joins d0 old x per psc y d1 d2 d3 d4 d5 d6
  have h0 : d0.debugReq = d.debugReq := by
    refine foldl_debugReq (fun d o => ?_) _ d
    rw [closePeriod, setPwm_debugReq]
  have h2 : d2.debugReq = d1.debugReq := by rw [ite_debugReq, setB_debugReq, ite_self]
  have h3 : d3.debugReq = d2.debugReq := by rw [incF_debugReq, ite_debugReq, setB_debugReq, ite_self]
  have h4 : d4.debugReq = d3.debugReq := by rw [ite_debugReq, newSet_debugReq, ite_self]
  have h5 : d5.debugReq = d4.debugReq := by
    refine (foldl_debugReq openPeriod_debugReq _ _).trans ?_
    rw [ite_debugReq, joinPair, setPwm_debugReq, ite_self]
  have h6 : d6.debugReq = d5.debugReq := by rw [ite_debugReq, raise_debugReq, ite_self]
  refine (foldl_debugReq (fun d k => ?_) _ d6).trans (h6.trans (h5.trans (h4.trans (h3.trans (h2.trans h0)))))
  rw [ite_debugReq, send, ite_self]

theorem pwmReady_debugReq (d : Dev) : d.pwmReady.debugReq = d.debugReq := by
  have hreload : ∀ (d : Dev) (c : Nat), (d.reload c).debugReq = d.debugReq := fun d c => by
    rw [reload, ite_debugReq, reload1_debugReq, reload1_debugReq, ite_self]
  have hstart : ∀ (d : Dev) (c : Nat), (d.pwmStart c).debugReq = d.debugReq := fun d c => by
    unfold pwmStart
    extract_lets _ low d1 r d2
    rw [setF_debugReq, ite_debugReq, ite_debugReq, joinPair, setPwm_debugReq, ite_self, hreload, ite_self, setPwm_debugReq,
      setB_debugReq]
  exact foldl_debugReq (fun d c => by rw [ite_debugReq, hstart, ite_self]) _ d

/-! #### Converters, engines and the Mule -/

theorem convStart_debugReq (d : Dev) (h : Half) (k : Nat) : (d.convStart h k).debugReq = d.debugReq := by
  have hseq : ∀ (d : Dev) (l m : List Word), (d.seqChanged h k l m).debugReq = d.debugReq := fun d l m => by
    unfold seqChanged
    exact foldl_debugReq (fun d a => setAcc_debugReq d h a _) _ d
  have hconv : ∀ x, (d.setConv h k x).debugReq = d.debugReq := fun _ => rfl
  rw [convStart, ite_debugReq, passStart, hseq, setB_debugReq, hconv, ite_self]

theorem accChanged_debugReq (d : Dev) (h : Half) (a : Nat) : (d.accChanged h a).debugReq = d.debugReq := by
  simp [accChanged, accOpen, accReset, ite_debugReq]

theorem adcReady_debugReq (d : Dev) : d.adcReady.debugReq = d.debugReq := by
  refine foldl_debugReq (fun d h => ?_) _ d
  refine (foldl_debugReq (fun d a => ?_) _ _).trans ?_
  · rw [ite_debugReq, accChanged_debugReq, ite_self]
  · rw [convStart_debugReq, convStart_debugReq]

theorem coltBegin_debugReq (d : Dev) (e : Nat) : (d.coltBegin e).debugReq = d.debugReq := by
  unfold coltBegin
  extract_lets x rl d1 d2 w d3
  have hcolt : ∀ y, (d.setColt e y).debugReq = d.debugReq := fun _ => rfl
  have hflag : ∀ (d : Dev) (set clr tog : Word), (d.setGflag 0 set clr tog).debugReq = d.debugReq := fun _ _ _ _ => rfl
  have h2 : d2.debugReq = d.debugReq := (hflag ..).trans (hcolt _)
  have h3 : d3.debugReq = d2.debugReq := by rw [ite_debugReq, send, ite_self]
  split
  · rw [coltState, setF_debugReq, h3, h2]
  · rfl

theorem coltReady_debugReq (d : Dev) : d.coltReady.debugReq = d.debugReq := by
  refine foldl_debugReq (fun d e => ?_) _ d
  rw [ite_debugReq, coltBegin_debugReq, ite_self, foldl_debugReq pinSafe_debugReq]

theorem muleReady_debugReq (d : Dev) : d.muleReady.debugReq = d.debugReq := by
  have hload : ∀ (d : Dev) (c : Nat), (d.muleLoad c).debugReq = d.debugReq := fun d c => by
    simp [muleLoad, muleBad, muleIdle, muleRaise, setMule, showSet, ite_debugReq]
  exact foldl_debugReq (fun d c => by rw [ite_debugReq, hload, ite_self]) _ d

/-- A request held as OPERATE is entered is taken there, whatever the conditions found in BOOT make of it (R49). -/
theorem enterOperate_held (y : DevMem) (env : PowerUp) (hy : y.1.debugReq = true) :
    (enterOperate y env).1.mode = .halt := by
  unfold enterOperate
  extract_lets y1 y2 rdy
  have hz : (startHalf (startHalf y2 .a) .b).1.debugReq = true := by
    rw [startHalf_debugReq, startHalf_debugReq]
    show ((y1.1.sensesAt .a env.linesA).sensesAt .b env.linesB).debugReq = true
    rw [sensesAt, onSense, onHalf_debugReq, sensesAt, onSense, onHalf_debugReq]
    exact hy
  rw [DevMem.dev]
  generalize (startHalf (startHalf y2 .a) .b).1 = z at hz ⊢
  extract_lets d1 d2 d3 d4 d5 d6
  have h1 : d1.debugReq = true := by
    rw [wr_debugReq, setB_debugReq, setB_debugReq, setB_debugReq, hz]
  have h3 : d3.debugReq = true := by
    show d2.debugReq = true
    rw [queueStatus_debugReq, irqRaise_debugReq, openWindow_debugReq, muleReady_debugReq, coltReady_debugReq,
      adcReady_debugReq, pwmReady_debugReq, xlkStart_debugReq, h1]
  have h4 : d4.debugReq = true := by rw [ite_debugReq, fault_debugReq, ite_self, h3]
  have h5 : d5.debugReq = true := by rw [ite_debugReq, fault_debugReq, ite_self, h4]
  have h6 : d6.debugReq = true := (safeReqActs_debugReq d5).trans h5
  rw [if_pos h6]
  exact d6.enterHalt_modes.1

end Dev

end Sys2Proof.Machine
end

section
/-! PROOFS. JTAG debug requests and the entry into SERVICE (R49 to R51). -/

namespace Sys2Proof.Machine

open Sys2Proof Sys2Proof.Claims

namespace Dev

/-! ### HALT (R49, R50) -/

/-- HALT_PEND shows a request that is held. -/
theorem modeView_held {d : Dev} (h : d.debugReq = true) : d.modeView.getLsbD 16 = true := by
  have hcode : ∀ m, modeCode m ≤ 7 := fun m => by cases m <;> decide
  have hno : d.modeNo ≤ 5 := by
    unfold modeNo
    split <;> decide
  have ha := hcode (d.hmode .a)
  have hb := hcode (d.hmode .b)
  unfold modeView
  rw [h, BitVec.getLsbD_ofNat, Nat.testBit_eq_decide_div_mod_eq, show bnat true = 1 from rfl]
  simp only [Bool.and_eq_true, decide_eq_true_eq]
  omega

/-- Between two devices the mode, the tick and the hidden state of both halves are as before. -/
structure HalvesKept (d e : Dev) : Prop where
  mode : e.mode = d.mode
  time : e.timeBase = d.timeBase
  a : e.a = d.a
  b : e.b = d.b

namespace HalvesKept

variable {d e k : Dev}

theorem refl (d : Dev) : HalvesKept d d := ⟨rfl, rfl, rfl, rfl⟩

theorem trans (q : HalvesKept d e) (r : HalvesKept e k) : HalvesKept d k :=
  ⟨r.mode.trans q.mode, r.time.trans q.time, r.a.trans q.a, r.b.trans q.b⟩

theorem foldl {α : Type} {g : Dev → α → Dev} (hg : ∀ d x, HalvesKept d (g d x)) (l : List α) (d : Dev) :
    HalvesKept d (l.foldl g d) :=
  (foldl_relates (P := fun _ => True) HalvesKept.refl HalvesKept.trans l (fun d _ x _ => ⟨trivial, hg d x⟩) trivial).2

end HalvesKept

theorem halvesKept_pwmResume (d : Dev) : HalvesKept d d.pwmResume := by
  have q : HalvesKept d { d with pwmHalt := false } := ⟨rfl, rfl, rfl, rfl⟩
  refine q.trans (HalvesKept.foldl (fun d c => ?_) _ _)
  exact ⟨rfl, rfl, rfl, rfl⟩

theorem halvesKept_coltThaw (d : Dev) : HalvesKept d d.coltThaw := by
  refine HalvesKept.foldl (fun d e => ?_) _ d
  dsimp only
  split
  · exact ⟨rfl, rfl, rfl, rfl⟩
  · exact .refl d

/-- A first heartbeat window opens now, with no heartbeat in it. -/
theorem openWindow_first (d : Dev) : d.openWindow.link.lastHb = none ∧ d.openWindow.link.hbFirst = some d.now ∧
    HalvesKept d d.openWindow := ⟨rfl, rfl, rfl, rfl, rfl, rfl⟩

/-- A resume: OPERATE with a first heartbeat window that opens now, the halves as HALT held them. -/
theorem debugResume_halt {d : Dev} (hm : d.mode = .halt) : d.debugResume.mode = .operate ∧
    d.debugResume.link.lastHb = none ∧ d.debugResume.link.hbFirst = some d.now ∧ d.debugResume.a = d.a ∧
    d.debugResume.b = d.b := by
  unfold debugResume
  rw [hm]
  dsimp only
  have q := (halvesKept_pwmResume { d with mode := .operate }).trans (halvesKept_coltThaw _)
  generalize ({ d with mode := .operate } : Dev).pwmResume.coltThaw = e at q ⊢
  obtain ⟨hlast, hfirst, qw⟩ := e.openWindow_first
  obtain ⟨hmode, -, ha, hb⟩ := q.trans qw
  obtain ⟨l, hl⟩ := e.openWindow.queueStatus_eq 2
  rw [hl]
  exact ⟨hmode, hlast, hfirst.trans (congrArg (fun x : Tick => some x.toNat) q.time), ha, hb⟩

theorem debugResume_other {d : Dev} (hm : d.mode ≠ .halt) : d.debugResume = d := by
  unfold debugResume
  split
  · contradiction
  · rfl

/-! ### SERVICE (R51) -/

theorem enterService_leaves (d : Dev) :
    d.enterService.mode = .service ∧ d.enterService.bit Reg.SYS_READY F.SYS_READY_RDY = false := by
  unfold enterService
  extract_lets d1 d2 d3
  obtain ⟨l, hl⟩ := (({ d3 with mode := .service } : Dev).setB Reg.SYS_READY F.SYS_READY_RDY false).queueStatus_eq 2
  rw [hl]
  exact ⟨rfl, bit_setB_same _ _ _ _ (by decide) (by decide)⟩

/-- A flag of SYS_FLAG leaves the device mode and what the first key word left. -/
theorem flag_service (d : Dev) (a : Nat) (x : Fld) (n : Nat) :
    (d.flag a x n).mode = d.mode ∧ (d.flag a x n).svcKey = d.svcKey := by
  unfold flag
  split <;> exact ⟨rfl, rfl⟩

section Key

variable {d : Dev} {m : Master}

theorem serviceKey_first (h : d.svcKey = none) : d.serviceKey m 0x5E7C = { d with svcKey := some (m, d.now) } := by
  simp [serviceKey, h]

theorem serviceKey_second {t0 : Nat} (h : d.svcKey = some (m, t0)) (ht : d.now ≤ t0 + 200) :
    d.serviceKey m 0xA183 = if d.serviceMay then { d with svcKey := none }.enterService
      else { d with svcKey := none }.flag Reg.SYS_FLAG F.SYS_FLAG_SVC_DENIED 0xC1 := by
  simp [serviceKey, h, ht]

/-- Any word but the first one is KEY_ERR, unless it is the second one, by the same master and in time. -/
theorem serviceKey_wrong {v : Word} (hv : v ≠ 0x5E7C) (h : v ≠ 0xA183 ∨ d.svcKey = none ∨
    ∃ (k : Master) (t0 : Nat), d.svcKey = some (k, t0) ∧ (k ≠ m ∨ t0 + 200 < d.now)) :
    d.serviceKey m v = { d with svcKey := none }.keyErr := by
  unfold serviceKey
  extract_lets live mine d1
  have hno : ¬(v = 0xA183 ∧ mine = true) := by
    rintro ⟨hsecond, hmine⟩
    rcases h with h | h | ⟨k, t0, h, hk⟩
    · exact h hsecond
    · simp [mine, live, h] at hmine
    · simp only [mine, live, h, Bool.and_eq_true, decide_eq_true_eq] at hmine
      exact hk.elim (fun hk => hk hmine.2) fun ht => by omega
  rw [if_neg hv, if_neg hno]

end Key

end Dev

/-- Settles O9: a held request outlives everything that the entry into OPERATE does, and each key word is judged by the
one before it. -/
theorem haltAndServiceEntry : Obligations.HaltAndServiceEntry := by
  intro s t d
  refine ⟨fun hm => does_onDev_eq (e := d.enterHalt) rfl ?request ⟨rfl, d.enterHalt_modes⟩,
    fun hm => does_onDev_eq (e := { d with debugReq := true }) rfl ?held ⟨rfl, Dev.modeView_held rfl⟩,
    Dev.enterOperate_held, fun hm => does_onDev_eq (e := d) rfl ?ignored rfl,
    fun hm => does_onDev rfl (Dev.debugResume_halt hm), fun hm => does_onDev rfl (Dev.debugResume_other hm),
    fun m hr => ⟨fun hk => does_onWrite hr rfl ?first, fun t0 hk ht hmay => does_onWrite hr rfl ?service,
      fun t0 hk ht hmay => does_onWrite hr rfl ?denied, fun v hv hw => does_onWrite hr rfl ?wrong⟩⟩
  case request =>
    show d.debugRequest = _
    rw [Dev.debugRequest, hm]
  case held =>
    show d.debugRequest = _
    rcases hm with hm | hm <;> rw [Dev.debugRequest, hm]
  case ignored =>
    show d.debugRequest = _
    rcases hm with hm | hm <;> rw [Dev.debugRequest, hm]
  case first =>
    rw [Dev.serviceKey_first (d := d.okay 0) hk]
    exact ⟨rfl, fun _ _ => rfl, rfl⟩
  case service =>
    have hmay' : (d.okay 0).serviceMay = true := hmay
    rw [Dev.serviceKey_second (d := d.okay 0) hk ht, if_pos hmay']
    exact Dev.enterService_leaves _
  case denied =>
    have hmay' : ¬(d.okay 0).serviceMay = true := ne_true_of_eq_false hmay
    rw [Dev.serviceKey_second (d := d.okay 0) hk ht, if_neg hmay']
    obtain ⟨hmode, hkey⟩ := ({ d.okay 0 with svcKey := none } : Dev).flag_service Reg.SYS_FLAG F.SYS_FLAG_SVC_DENIED 0xC1
    exact ⟨Dev.bit_flag _ _ _ _ (by decide) (by decide), hkey, hmode, Dev.regsKept_flag _ _ _ _ (by simp)⟩
  case wrong =>
    rw [Dev.serviceKey_wrong (d := d.okay 0) hv hw]
    obtain ⟨hmode, hkey⟩ := ({ d.okay 0 with svcKey := none } : Dev).flag_service Reg.SYS_FLAG F.SYS_FLAG_KEY_ERR 0xC1
    obtain ⟨hbit, hregs, -⟩ := ({ d.okay 0 with svcKey := none } : Dev).keyErr_leaves
    exact ⟨hbit, hkey, hmode, hregs⟩

end Sys2Proof.Machine
end

section
/-! PROOFS. The transaction buffer and its commands (R75, R77, R80): how a transaction ends, what OPEN, COMMIT and ABORT
do in each state of the buffer, and the tests of COMMIT. -/

namespace Sys2Proof.Machine

open Sys2Proof Sys2Proof.Claims

namespace Dev

/-! ### What commits that resume leave alone (R79) -/

/-- Between two devices the transaction, its owner, the interrupts and every register but DMD_STAT are as before. -/
structure CommitsOnly (d e : Dev) : Prop where
  ctx : e.ctx = d.ctx
  owner : e.ctxOwner = d.ctxOwner
  irq : e.irq = d.irq
  regs : RegsKept d e [Reg.DMD_STAT .a, Reg.DMD_STAT .b]

namespace CommitsOnly

variable {d e k : Dev}

theorem refl (d : Dev) : CommitsOnly d d := ⟨rfl, rfl, rfl, regsKept_refl d _⟩

theorem trans (q : CommitsOnly d e) (r : CommitsOnly e k) : CommitsOnly d k :=
  ⟨r.ctx.trans q.ctx, r.owner.trans q.owner, r.irq.trans q.irq, regsKept_trans q.regs r.regs⟩

theorem onHalf (d : Dev) (h : Half) (g : HalfSt → HalfSt) : CommitsOnly d (d.onHalf h g) :=
  ⟨setHalf_ctx .., setHalf_ctxOwner .., setHalf_irq .., fun a _ => rd_onHalf d h g a⟩

theorem dmdStat (d : Dev) (h : Half) (x : Fld) (n : Nat) : CommitsOnly d (d.setF (Reg.DMD_STAT h) x n) :=
  ⟨rfl, rfl, rfl, regsKept_setF d _ x n (by cases h <;> simp)⟩

theorem setCommit (d : Dev) (h : Half) (c : Option Commit) : CommitsOnly d (d.setCommit h c) :=
  ((((onHalf d h _).trans (dmdStat _ h _ _)).trans (dmdStat _ h _ _)).trans (dmdStat _ h _ _)).trans (dmdStat _ h _ _)

theorem onCommit (d : Dev) (h : Half) (g : Commit → Commit) : CommitsOnly d (d.onCommit h g) := by
  unfold Dev.onCommit
  split
  · exact setCommit d h _
  · exact refl d

theorem resumeCommit (d : Dev) (h : Half) : CommitsOnly d (d.resumeCommit h) := by
  unfold Dev.resumeCommit
  split
  · split
    · exact (foldl_relates (P := fun _ => True) refl trans _ (fun d _ k _ => ⟨trivial, onCommit d k _⟩) trivial).2
    · exact refl d
  · exact refl d

end CommitsOnly

/-! ### The end of a transaction (R80) -/

/-- CTX_STAT as the end of a transaction leaves it. -/
def ctxEndWord (code check : Nat) (entry : Option Nat) : Word :=
  BitVec.ofNat 32 (check * 2 ^ 24 + code * 2 ^ 16 + entry.getD 0 * 2 ^ 10 + bnat entry.isSome * 2 ^ 9)

/-- A word shows the result of a transaction in the fields of CTX_STAT, and STATE IDLE. -/
def ShowsEnd (w : Word) (code check : Nat) (entry : Option Nat) : Prop :=
  getF w F.CTX_STAT_STATE = 0 ∧ getF w F.CTX_STAT_CODE = code ∧ getF w F.CTX_STAT_CHECK = check ∧
    getB w F.CTX_STAT_ENTV = entry.isSome ∧ getF w F.CTX_STAT_ENTRY = entry.getD 0

theorem showsEnd_ctxEndWord {code check : Nat} {entry : Option Nat} (hcode : code < 256) (hcheck : check < 256)
    (hentry : entry.getD 0 < 64) : ShowsEnd (ctxEndWord code check entry) code check entry := by
  have hv := bnat_le_one entry.isSome
  refine ⟨?_, ?_, ?_, getB_ofNat _ 9 _ (by decide) (by omega), ?_⟩ <;>
    simp only [ctxEndWord, getF, F.CTX_STAT_STATE, F.CTX_STAT_CODE, F.CTX_STAT_CHECK, F.CTX_STAT_ENTRY,
      BitVec.toNat_ofNat] <;> omega

/-- The device with the buffer released and a result in CTX_STAT. -/
def ctxReleased (d : Dev) (w : Word) : Dev := { d.wr Reg.CTX_STAT w with ctx := none, ctxOwner := none }

/-- The device with a switch at a tick counted and the tick shown (R80). -/
def ctxCounted (d : Dev) (n : Nat) : Dev :=
  ((d.wr Reg.CTX_SEQ (d.rd Reg.CTX_SEQ + 1)).wr Reg.CTX_APPLIED_LO (lo32 n)).wr Reg.CTX_APPLIED_HI (hi32 n)

@[simp] theorem rd_ctxReleased (d : Dev) (w : Word) (a : Nat) :
    (d.ctxReleased w).rd a = if a = Reg.CTX_STAT then w else d.rd a := by
  rw [rd_congr (e := d.ctxReleased w) (d := d.wr Reg.CTX_STAT w) rfl, rd_wr]

/-- The three registers of a switch are apart from each other. -/
theorem rd_ctxCounted (d : Dev) (n : Nat) : (d.ctxCounted n).rd Reg.CTX_SEQ = d.rd Reg.CTX_SEQ + 1 ∧
    (d.ctxCounted n).rd Reg.CTX_APPLIED_LO = lo32 n ∧ (d.ctxCounted n).rd Reg.CTX_APPLIED_HI = hi32 n := by
  simp [ctxCounted, rd_wr, Reg.CTX_SEQ, Reg.CTX_APPLIED_LO, Reg.CTX_APPLIED_HI]

theorem regsKept_ctxCounted (d : Dev) (n : Nat) :
    RegsKept d (d.ctxCounted n) [Reg.CTX_SEQ, Reg.CTX_APPLIED_LO, Reg.CTX_APPLIED_HI] :=
  regsKept_trans (regsKept_trans (regsKept_wr _ _ _ (by simp)) (regsKept_wr _ _ _ (by simp)))
    (regsKept_wr _ _ _ (by simp))

/-- The device at the end of a transaction, before the commits that waited for it resume (R80). -/
def ctxClosed (d : Dev) (code : Nat) (w : Word) : Dev :=
  (if code ≤ 1 then (d.ctxReleased w).ctxCounted d.now else d.ctxReleased w).raise 0xC2

theorem endCtx_eq (d : Dev) (code check : Nat) (entry : Option Nat) : d.endCtx code check entry =
    ((d.ctxClosed code (ctxEndWord code check entry)).resumeCommit .a).resumeCommit .b := rfl

section Closed

variable (d : Dev) {code : Nat} (w : Word)

theorem rd_ctxClosed_applied (h : code ≤ 1) (a : Nat) :
    (d.ctxClosed code w).rd a = ((d.ctxReleased w).ctxCounted d.now).rd a := by
  rw [ctxClosed, if_pos h, rd_raise]

theorem rd_ctxClosed_rejected (h : 1 < code) (a : Nat) : (d.ctxClosed code w).rd a = (d.ctxReleased w).rd a := by
  rw [ctxClosed, if_neg (by omega), rd_raise]

/-- CTX_STAT holds the result, whether or not a switch is counted. -/
theorem stat_ctxClosed : (d.ctxClosed code w).rd Reg.CTX_STAT = w := by
  have hreleased : (d.ctxReleased w).rd Reg.CTX_STAT = w := by rw [rd_ctxReleased, if_pos rfl]
  by_cases h : code ≤ 1
  · rw [rd_ctxClosed_applied d w h, regsKept_ctxCounted _ _ _ (by decide), hreleased]
  · rw [rd_ctxClosed_rejected d w (by omega), hreleased]

/-- The buffer is free and the done source is raised. -/
theorem ctxClosed_frees : (d.ctxClosed code w).ctx = none ∧ (d.ctxClosed code w).ctxOwner = none ∧
    0xC2 ∈ (d.ctxClosed code w).irq.raised := by
  refine ⟨?_, ?_, List.mem_append_right _ (List.mem_singleton_self _)⟩ <;> rw [ctxClosed] <;> split <;> rfl

/-- Whatever commits resume then, the transaction has ended with the result that CTX_STAT holds. -/
theorem ctxEnded_ctxClosed {e : Dev} {check : Nat} {entry : Option Nat} (hw : ShowsEnd w code check entry)
    (q : CommitsOnly (d.ctxClosed code w) e) : CtxEnded d e code check entry := by
  obtain ⟨hstate, hcode, hcheck, hentv, hentry⟩ := hw
  obtain ⟨hctx, howner, hirq⟩ := d.ctxClosed_frees (code := code) w
  have hrd : e.rd Reg.CTX_STAT = w := (q.regs _ (by decide)).trans (d.stat_ctxClosed w)
  have hreleased : RegsKept d (d.ctxReleased w) [Reg.CTX_STAT] := fun a ha => by
    rw [rd_ctxReleased, if_neg (by simpa using ha)]
  have hfield : ∀ x, e.f Reg.CTX_STAT x = getF w x := fun x => congrArg (getF · x) hrd
  refine ⟨q.ctx.trans hctx, q.owner.trans howner, q.irq ▸ hirq, (hfield _).trans hstate, (hfield _).trans hcode,
    (hfield _).trans hcheck, (congrArg (getB · _) hrd).trans hentv, (hfield _).trans hentry, fun h => ?_,
    fun h a ha => ?_⟩
  · obtain ⟨hseq, hlo, hhi⟩ := (d.ctxReleased w).rd_ctxCounted d.now
    have hr := rd_ctxClosed_applied d w h
    refine ⟨?_, ?_, ?_, fun a ha => ?_⟩
    · rw [q.regs _ (by decide), hr, hseq, hreleased _ (by decide)]
    · rw [q.regs _ (by decide), hr, hlo]
    · rw [q.regs _ (by decide), hr, hhi]
    · simp only [List.mem_cons, List.not_mem_nil, or_false, not_or] at ha
      obtain ⟨hst, hsq, hl, hu, hda, hdb⟩ := ha
      rw [q.regs a (by simp [hda, hdb]), hr, regsKept_ctxCounted _ _ a (by simp [hsq, hl, hu]),
        hreleased a (by simp [hst])]
  · simp only [List.mem_cons, List.not_mem_nil, or_false, not_or] at ha
    obtain ⟨hst, hda, hdb⟩ := ha
    rw [q.regs a (by simp [hda, hdb]), rd_ctxClosed_rejected d w h, hreleased a (by simp [hst])]

end Closed

/-- What `endCtx` leaves is a transaction that has ended (R80). -/
theorem ctxEnded_endCtx (d : Dev) {code check : Nat} {entry : Option Nat} (hcode : code < 256) (hcheck : check < 256)
    (hentry : entry.getD 0 < 64) : CtxEnded d (d.endCtx code check entry) code check entry := by
  rw [endCtx_eq]
  exact ctxEnded_ctxClosed d _ (showsEnd_ctxEndWord hcode hcheck hentry)
    (.trans (.resumeCommit _ .a) (.resumeCommit _ .b))

/-- The answer given to the access is not part of what the end of a transaction is compared with. -/
theorem ctxEnded_of_okay {d e : Dev} {v : Word} {code check : Nat} {entry : Option Nat}
    (h : CtxEnded (d.okay v) e code check entry) : CtxEnded d e code check entry := h

/-- Interpolation does not depend on the answer, nor does φ. -/
theorem track_interp_okay (d : Dev) (v : Word) (h : Half) :
    ((d.okay v).interp h).track h = (d.interp h).track h := by
  by_cases ht : d.tracking h = true
  · have ht' : (d.okay v).tracking h = true := ht
    rw [interp, interp, if_pos ht, if_pos ht']
    cases h <;> rfl
  · have ht' : ¬(d.okay v).tracking h = true := ht
    rw [interp, interp, if_neg ht, if_neg ht']
    rfl

theorem passageAfter_okay (d : Dev) (v : Word) (h : Half) (ang : Nat) :
    (d.okay v).passageAfter h ang = d.passageAfter h ang := by
  have hphi : (d.okay v).phi h = d.phi h := by rw [phi, phi, track_interp_okay]
  have hcyc : (d.okay v).cycLen h = d.cycLen h := rfl
  rw [passageAfter, passageAfter, hphi, hcyc]

/-! ### The commands in each state of the buffer (R75, R77) -/

section Commands

variable {d : Dev} {m : Master}

theorem ctxMine_free (h : d.ctxOwner = none) : d.ctxMine m = true := by rw [ctxMine, h]

theorem ctxCtl_mine (g : Dev → Dev) (h : d.ctxMine m = true) : d.ctxCtl m g = g d := if_pos h

theorem ctxCtl_other (g : Dev → Dev) (h : d.ctxMine m = false) : d.ctxCtl m g = d.busErr :=
  if_neg (ne_true_of_eq_false h)

theorem ctxClaim_idle (h : d.ctxState = 0) : d.ctxClaim m =
    { (d.setF Reg.CTX_STAT F.CTX_STAT_STATE 1).setF Reg.CTX_STAT F.CTX_STAT_OWNER (ownerCode m) with
      ctxOwner := some m } := by rw [ctxClaim, h]; rfl

theorem ctxClaim_open (h : d.ctxState = 1) : d.ctxClaim m = d := by rw [ctxClaim, h]; rfl

theorem ctxClaim_busy (h : 2 ≤ d.ctxState) : d.ctxClaim m = d.ctxBusy := by
  unfold ctxClaim
  split
  · omega
  · omega
  · rfl

theorem ctxCommitCmd_idle (count apply : Nat) (h : d.ctxState = 0) : d.ctxCommitCmd count apply = d := by
  rw [ctxCommitCmd, h]; rfl

theorem ctxCommitCmd_open (count apply : Nat) (h : d.ctxState = 1) :
    d.ctxCommitCmd count apply = d.ctxStart count apply := by rw [ctxCommitCmd, h]; rfl

theorem ctxCommitCmd_busy (count apply : Nat) (h : 2 ≤ d.ctxState) : d.ctxCommitCmd count apply = d.ctxBusy := by
  unfold ctxCommitCmd
  split
  · omega
  · omega
  · rfl

/-- OWNER has room for the code of every master. -/
theorem ownerCode_lt (m : Master) : ownerCode m < 8 := by cases m <;> simp [ownerCode]

/-- OPEN of a free buffer claims it, in STATE and OWNER of CTX_STAT alone. -/
theorem ctxClaim_claims (h : d.ctxState = 0) :
    (d.ctxClaim m).ctxState = 1 ∧ (d.ctxClaim m).ctxOwner = some m ∧
    (d.ctxClaim m).f Reg.CTX_STAT F.CTX_STAT_OWNER = ownerCode m ∧ RegsKept d (d.ctxClaim m) [Reg.CTX_STAT] ∧
    BitsKept (d.rd Reg.CTX_STAT) ((d.ctxClaim m).rd Reg.CTX_STAT) [F.CTX_STAT_STATE, F.CTX_STAT_OWNER] ∧
    HiddenKept d { d.ctxClaim m with ctxOwner := d.ctxOwner } := by
  rw [ctxClaim_idle h]
  let d1 := d.setF Reg.CTX_STAT F.CTX_STAT_STATE 1
  let d2 := d1.setF Reg.CTX_STAT F.CTX_STAT_OWNER (ownerCode m)
  have hstate : d2.f Reg.CTX_STAT F.CTX_STAT_STATE = 1 := by
    rw [f_setF_apart _ _ _ _ _ (by decide) (by decide), f_setF_same _ _ _ _ (by decide)]
    rfl
  have howner : d2.f Reg.CTX_STAT F.CTX_STAT_OWNER = ownerCode m := by
    rw [f_setF_same _ _ _ _ (by decide)]
    exact Nat.mod_eq_of_lt (ownerCode_lt m)
  have hregs : RegsKept d d2 [Reg.CTX_STAT] :=
    regsKept_trans (regsKept_setF _ _ _ _ (by simp)) (regsKept_setF _ _ _ _ (by simp))
  have hbits : BitsKept (d.rd Reg.CTX_STAT) (d2.rd Reg.CTX_STAT) [F.CTX_STAT_STATE, F.CTX_STAT_OWNER] := by
    rw [rd_setF_same, rd_setF_same]
    exact bitsKept_trans (bitsKept_putF_mem _ _ _ (by simp)) (bitsKept_putF_mem _ _ _ (by simp))
  exact ⟨hstate, rfl, howner, hregs, hbits, rfl⟩

/-- BUSY changes CODE alone. -/
theorem ctxBusy_leaves (d : Dev) : d.ctxBusy.f Reg.CTX_STAT F.CTX_STAT_CODE = 0x18 ∧
    d.ctxBusy.ctxState = d.ctxState ∧ RegsKept d d.ctxBusy [Reg.CTX_STAT] ∧
    BitsKept (d.rd Reg.CTX_STAT) (d.ctxBusy.rd Reg.CTX_STAT) [F.CTX_STAT_CODE] := by
  refine ⟨f_setF_same _ _ _ _ (by decide), f_setF_apart _ _ _ _ _ (by decide) (by decide),
    regsKept_setF _ _ _ _ (by simp), ?_⟩
  rw [ctxBusy, rd_setF_same]
  exact bitsKept_putF _ _ _

theorem ctxAbortCmd_idle (h : d.ctxState = 0) : d.ctxAbortCmd = d := if_pos h

theorem ctxAbortCmd_ends (h : d.ctxState ≠ 0) : CtxEnded d d.ctxAbortCmd 0x19 0 none := by
  rw [ctxAbortCmd, if_neg h]
  exact ctxEnded_endCtx d (by decide) (by decide) (by decide)

theorem ctxBuf_taken (k : Nat) (v : Word) (h : d.ctxState = 1) (hm : d.ctxMine m = true) :
    d.ctxBuf m k v = d.wr (Reg.CTX_BUF k) v := if_pos ⟨h, hm⟩

theorem ctxBuf_refused (k : Nat) (v : Word) (h : d.ctxState ≠ 1 ∨ d.ctxMine m = false) : d.ctxBuf m k v = d.busErr :=
  if_neg fun hx => h.elim (fun hs => hs hx.1) fun hm => by simp [hm] at hx

end Commands

/-! ### The tests of COMMIT (R77) -/

section Tests

variable {d : Dev} {n p : Nat}

theorem applyAbsent_iff :
    d.applyAbsent p = true ↔ ∃ h : Half, ctxAngleHalf p = some h ∧ (d.half h).enabled = false := by
  unfold applyAbsent
  split <;> simp [absent, *]

theorem commitCode_count (hn : n = 0 ∨ 64 < n) : d.commitCode n p = some 0x10 := if_pos hn

section Counted

variable (hn : ¬(n = 0 ∨ 64 < n))
include hn

theorem commitCode_absent (ha : d.applyAbsent p = true) : d.commitCode n p = some 0x14 := by
  simp only [commitCode, if_neg hn, if_pos ha]

variable (ha : ¬d.applyAbsent p = true)
include ha

theorem commitCode_idle (ho : d.operating = false) : d.commitCode n p = some 0x17 := by
  simp [commitCode, hn, ha, ho]

variable (ho : d.operating = true)
include ho

/-- Only an ANGLE apply point is tested any further. -/
theorem commitCode_angle {h : Half} (hp : ctxAngleHalf p = some h) : d.commitCode n p =
    if d.issuing h = false then some 0x1A
    else if d.cycLen h ≤ (d.rd Reg.CTX_WHEN_LO).toNat then some 0x1C else none := by
  simp [commitCode, hn, ha, ho, hp]

theorem commitCode_noAngleHalf (hp : ctxAngleHalf p = none) : d.commitCode n p = none := by
  simp [commitCode, hn, ha, ho, hp]

theorem commitCode_notIssuing (hi : ∃ h : Half, ctxAngleHalf p = some h ∧ d.issuing h = false) :
    d.commitCode n p = some 0x1A := by
  obtain ⟨h, hp, hi⟩ := hi
  rw [commitCode_angle hn ha ho hp, if_pos hi]

variable (hi : ¬∃ h : Half, ctxAngleHalf p = some h ∧ d.issuing h = false)
include hi

theorem commitCode_range (hr : ∃ h : Half, ctxAngleHalf p = some h ∧ d.cycLen h ≤ (d.rd Reg.CTX_WHEN_LO).toNat) :
    d.commitCode n p = some 0x1C := by
  obtain ⟨h, hp, hr⟩ := hr
  rw [commitCode_angle hn ha ho hp, if_neg fun hx => hi ⟨h, hp, hx⟩, if_pos hr]

theorem commitCode_none (hr : ¬∃ h : Half, ctxAngleHalf p = some h ∧ d.cycLen h ≤ (d.rd Reg.CTX_WHEN_LO).toNat) :
    d.commitCode n p = none := by
  cases hp : ctxAngleHalf p with
  | some h =>
    rw [commitCode_angle hn ha ho hp, if_neg fun hx => hi ⟨h, hp, hx⟩, if_neg fun hx => hr ⟨h, hp, hx⟩]
  | none => exact commitCode_noAngleHalf hn ha ho hp

end Counted

/-- A condition of R77 that holds ends the transaction with its code. -/
theorem ctxStart_rejected {code : Nat} (h : d.commitCode n p = some code) (hcode : code < 256) :
    CtxEnded d (d.ctxStart n p) code 0 none := by
  simp only [ctxStart, h]
  exact ctxEnded_endCtx d hcode (by decide) (by decide)

/-! ### A COMMIT that passes (R76, R77, R79) -/

/-- CTX_STAT is none of the buffer's words. -/
theorem ctxEntries_setStat (d : Dev) (x : Fld) (k c : Nat) :
    (d.setF Reg.CTX_STAT x k).ctxEntries c = d.ctxEntries c := by
  have hne : ∀ i, Reg.CTX_BUF i ≠ Reg.CTX_STAT := fun i => by simp only [Reg.CTX_BUF, Reg.CTX_STAT]; omega
  refine List.map_congr_left fun i _ => ?_
  rw [ctxEntry, ctxEntry, rd_setF_other _ _ _ (hne _), rd_setF_other _ _ _ (hne _)]

theorem ctxWrites_iff {x : Ctx} (hx : d.ctx = some x) (h : Half) :
    d.ctxWrites h = true ↔ ∃ e ∈ d.ctxEntries x.count, halfAt e.1 = some h := by
  simp only [ctxWrites, hx, List.any_eq_true, decide_eq_true_eq]

/-- A transaction on a device waits where some half that its entries write to has a commit (R79). -/
theorem waits_iff {e : Dev} {x : Ctx} (hx : e.ctx = some x) (hentries : e.ctxEntries x.count = d.ctxEntries n)
    (hhalf : ∀ h, e.half h = d.half h) :
    ([Half.a, Half.b].any fun h => e.ctxWrites h && (e.half h).commit.isSome) = true ↔
      ∃ h : Half, (d.half h).commit.isSome = true ∧ ∃ w ∈ d.ctxEntries n, halfAt w.1 = some h := by
  simp only [List.any_eq_true, Bool.and_eq_true, ctxWrites_iff hx, hentries, hhalf]
  exact ⟨fun ⟨h, _, hwrites, hcommit⟩ => ⟨h, hcommit, hwrites⟩,
    fun ⟨h, hcommit, hwrites⟩ => ⟨h, by cases h <;> simp, hwrites, hcommit⟩⟩

/-- A COMMIT that passes takes COUNT and the apply point, and starts the checks: nothing else changes. -/
theorem ctxStart_starts (h : d.commitCode n p = none) :
    (d.ctxStart n p).ctxState = 2 ∧ RegsKept d (d.ctxStart n p) [Reg.CTX_STAT] ∧
    HiddenKept d { d.ctxStart n p with ctx := d.ctx } ∧
    ∃ x : Ctx, (d.ctxStart n p).ctx = some x ∧ x.count = n ∧ x.apply = p ∧ x.checkEnd = none ∧
      x.tick = (d.rd Reg.CTX_WHEN_LO).toNat + (d.rd Reg.CTX_WHEN_HI).toNat * 2 ^ 32 ∧
      (∀ h : Half, ctxAngleHalf p = some h → x.target = d.passageAfter h (d.rd Reg.CTX_WHEN_LO).toNat) ∧
      (x.waits = true ↔ ∃ h : Half, (d.half h).commit.isSome = true ∧
        ∃ e ∈ d.ctxEntries n, halfAt e.1 = some h) := by
  simp only [ctxStart, h]
  refine ⟨f_setF_same _ _ _ _ (by decide), regsKept_setF d _ _ _ (by simp), rfl, _, rfl, rfl, rfl, rfl, rfl, ?_, ?_⟩
  · intro h hp
    simp only [hp]
  · exact waits_iff rfl (ctxEntries_setStat d ..) fun h => by cases h <;> rfl

end Tests

end Dev

/-! ### The claim -/

section Masters

variable {c : Instr} {s : State} {t : Tick} {m : Master} {g : Dev → Dev} {Q : Dev → Prop}
variable (hr : (s.devAt t).reach Reg.CTX_CTL true = true)
variable (he : exec c s = .next { s with dev := (s.devAt t).onWrite Reg.CTX_CTL fun d => d.ctxCtl m g })
include hr he

/-- A command to CTX_CTL by a master that may act on the transaction has its effect. -/
theorem does_ctxMine (hm : (s.devAt t).ctxMine m = true) (hq : Q (g ((s.devAt t).okay 0))) : Does c s Q :=
  does_onWrite hr he (by rwa [Dev.ctxCtl_mine (d := (s.devAt t).okay 0) g hm])

/-- A command to CTX_CTL by another master is a bus error. -/
theorem does_ctxOther (hm : (s.devAt t).ctxMine m = false) :
    Does c s (fun d' => d' = { s.devAt t with answer := ⟨true, 0⟩ }) :=
  does_onWrite hr he (Dev.ctxCtl_other (d := (s.devAt t).okay 0) g hm)

end Masters

/-- Each command to CTX_CTL, and each write of a word, does what the state and the owner of the buffer ask for. -/
theorem transactionBuffer : TransactionBufferRule := by
  intro s t m d st
  let d0 := d.okay 0
  refine ⟨fun hr => ⟨fun ho h0 => does_ctxMine hr rfl (Dev.ctxMine_free ho) ?claim,
      fun hm h1 => does_ctxMine hr rfl hm (Dev.ctxClaim_open (d := d0) h1),
      fun hm h2 count when => ⟨does_ctxMine hr rfl hm (Dev.ctxClaim_busy (d := d0) h2),
        does_ctxMine hr rfl hm ?busy⟩,
      fun hm h0 count when => ⟨does_ctxMine hr rfl hm (Dev.ctxCommitCmd_idle (d := d0) _ _ h0),
        does_ctxMine hr rfl hm (Dev.ctxAbortCmd_idle (d := d0) h0)⟩,
      fun hm h0 => does_ctxMine hr rfl hm (Dev.ctxEnded_of_okay (Dev.ctxAbortCmd_ends (d := d0) h0)),
      fun hm count when => ⟨does_ctxOther hr rfl hm, does_ctxOther hr rfl hm, does_ctxOther hr rfl hm⟩⟩,
    fun k v hr => ⟨fun h1 hm => does_onWrite hr rfl ?taken,
      fun h => does_onWrite hr rfl (Dev.ctxBuf_refused (d := d0) _ _ h)⟩⟩
  case claim =>
    obtain ⟨hstate, howner, hcode, hregs, hbits, hhidden⟩ := Dev.ctxClaim_claims (d := d0) (m := m) h0
    exact ⟨hstate, howner, hcode, hregs, hbits, hiddenKept_answer hhidden⟩
  case busy =>
    rw [Dev.ctxCommitCmd_busy (d := d0) _ _ h2]
    exact ⟨rfl, d0.ctxBusy_leaves⟩
  case taken =>
    rw [Dev.ctxBuf_taken (d := d0) _ _ h1 hm]
    exact ⟨Dev.rd_wr_same .., Dev.regsKept_wr d0 _ _ (by simp), rfl⟩

/-- The conditions of R77 follow one another in the model's test as in the rule. -/
theorem transactionCommit : TransactionCommitRule := by
  intro s t m count when d n p lo hr hm h1 countBad absent noAngle range
  have starts : ∀ Q : Dev → Prop, Q ((d.okay 0).ctxStart n when.toNat) → Does (.ctxCommit t m count when) s Q :=
    fun Q hq => does_ctxMine hr rfl hm (by rwa [Dev.ctxCommitCmd_open (d := d.okay 0) _ _ h1])
  have ends : ∀ code : Nat, (d.okay 0).commitCode n when.toNat = some code → code < 256 →
      Does (.ctxCommit t m count when) s (fun d' => CtxEnded d d' code 0 none) := fun code hc hlt =>
    starts _ (Dev.ctxEnded_of_okay (Dev.ctxStart_rejected hc hlt))
  have habsent : (d.okay 0).applyAbsent when.toNat = true ↔ absent := Dev.applyAbsent_iff
  refine ⟨fun hc => ends _ (Dev.commitCode_count hc) (by decide),
    fun hc ha => ends _ (Dev.commitCode_absent hc (habsent.2 ha)) (by decide),
    fun hc ha ho => ends _ (Dev.commitCode_idle hc (mt habsent.1 ha) ho) (by decide),
    fun hc ha ho hi => ends _ (Dev.commitCode_notIssuing hc (mt habsent.1 ha) ho hi) (by decide),
    fun hc ha ho hi hg => ends _ (Dev.commitCode_range hc (mt habsent.1 ha) ho hi hg) (by decide),
    fun hc ha ho hi hg => starts _ ?_⟩
  obtain ⟨hstate, hregs, hhidden, x, hx, hcount, happly, hend, htick, htarget, hwaits⟩ :=
    Dev.ctxStart_starts (d := d.okay 0) (Dev.commitCode_none hc (mt habsent.1 ha) ho hi hg)
  exact ⟨hstate, hregs, hiddenKept_answer hhidden, x, hx, hcount, happly, hend, htick,
    fun h hp => (htarget h hp).trans (d.passageAfter_okay 0 h lo), hwaits⟩

/-- Settles O11: each command is decided by the state and the owner of the buffer, COMMIT by R77's conditions in their
order. -/
theorem transactionBufferAndCommit : Obligations.TransactionBufferAndCommit := ⟨transactionBuffer, transactionCommit⟩

end Sys2Proof.Machine
end
